-- ==== Sys2Proof/Word.lean ====
section
/-! DEFINITION. Word.lean: the word types of the part: link characters (8 bits), check registers, converter codes
(12 bits), and the index types of bays, log segments and segregation groups. -/

namespace Sys2Proof

/-- A character code on the link, or a tag of two hex digits. -/
abbrev Byte := BitVec 8

/-- The record check register of R209. -/
abbrev Word16 := BitVec 16

/-- A code of the sampler's converter, 0 to 4,095 (R139). -/
abbrev Adc := BitVec 12

/-- A bay; index b stands for bay b + 1 of the manual. -/
abbrev Bay := Fin 8

/-- A log segment; index i stands for segment i + 1 of the manual (R169). -/
abbrev SegNo := Fin 32

/-- A segregation group; index 0 stands for group A, 7 for H (R194). -/
abbrev Group := Fin 8

end Sys2Proof
end

