-- ==== Sys2Proof/Syntax.lean ====
section
/-! DEFINITION. Syntax.lean: the commands of the part, one constructor of `Instr` for each row of
spec/opcode_table.json, with the operand types. A request row carries its header and its fields as the grammar of
R205 reads them; `none` in place of the fields says that they are not of the verb's form (R6, SYNTAX). -/

namespace Sys2Proof

/-- The fifteen unit names of the link (R5). -/
inductive UnitName where
  | DV | CK | DT | CP
  | B (b : Bay)
  | TS | DL | ST
deriving DecidableEq, Repr

/-- The twelve sources of the append queue (R174). -/
inductive LogSource where
  | B (b : Bay)
  | DT | CK | ST | DV
deriving DecidableEq, Repr

inductive NoticeMode where
  | PUSH | POLL
deriving DecidableEq, Repr

inductive AttnMode where
  | LEVEL | PULSE
deriving DecidableEq, Repr

inductive DutyKind where
  | DRIVE | WORK | REST
deriving DecidableEq, Repr

/-- The seven hazard classes of R82. -/
inductive HazClass where
  | c21 | c22 | c3 | c51 | c61 | c8 | c9
deriving DecidableEq, Repr, Inhabited

inductive PackGroup where
  | I | II | III | NONE
deriving DecidableEq, Repr, Inhabited

inductive SegEntry where
  | ALLOW | APART | NEVER
deriving DecidableEq, Repr

/-- Which of the two DST rules a request writes (R25). -/
inductive RuleName where
  | FWD | REV
deriving DecidableEq, Repr

/-- How a DST rule chooses its date (R25, R26). -/
inductive DateSel where
  | DATE (day : Nat)
  | WEEKDAY (week wday : Nat)
deriving DecidableEq, Repr

/-- The eight sections of a settings copy (R193). -/
inductive Section where
  | PRODUCT | SEGREGATION | BAY | HOURS | TOLERANCE | CALENDAR | SAMPLER | LINK
deriving DecidableEq, Repr

/-- The route plan (R72). -/
structure Plan where
  drive : Nat
  total : Nat
  breaks : Nat
deriving DecidableEq, Repr

/-- One entry of the product table (R194). -/
structure Product where
  code : String
  un : Nat
  cls : HazClass
  pg : PackGroup
  group : Group
  aCold : Nat
  bCold : Nat
  aHot : Nat
  bHot : Nat
deriving DecidableEq, Repr, Inhabited

/-- One document line (R82). -/
structure DocLine where
  comp : Nat
  product : String
  un : Nat
  cls : HazClass
  pg : PackGroup
  qty : Nat
  cap : Nat
deriving DecidableEq, Repr, Inhabited

/-- A time of the form `YYYY-MM-DD hh:mm` as written; whether the date exists is tested where it is used. -/
structure DateHm where
  year : Nat
  month : Nat
  day : Nat
  hour : Nat
  minute : Nat
deriving DecidableEq, Repr

/-- A character received on RXD; `framing` marks one received with a framing error (R1). -/
structure RxChar where
  code : Byte
  framing : Bool
deriving DecidableEq, Repr

/-- The head of a request: its tag (R4), and the level of the SUPV input when the request arrives (R203, log 2). -/
structure Hdr where
  tag : Byte
  supv : Bool
deriving DecidableEq, Repr

/-- The fields of a request as parsed; `none`: they are not of the verb's form, and the request is refused SYNTAX. -/
abbrev Parsed (α : Type) := Option α

/-- A verb that takes no fields; `none`: a field was given. -/
abbrev NoFields := Parsed Unit

/-- What the routing tests of R5 refuse. -/
inductive BadRequest where
  /-- Tag FF; the unit token as received (test 1). -/
  | tagReserved (token : String)
  /-- A unit token that names no unit (test 2). -/
  | unknownUnit (token : String)
  /-- The verb is missing or not 1 to 12 capitals (test 3). -/
  | badVerb (u : UnitName)
  /-- A verb the unit does not have (test 4). -/
  | unknownVerb (u : UnitName)
deriving DecidableEq, Repr

/-- How far the write of a record had got when a start cut it off (R177, R188); `beforeOpening`: the ACTIVE segment had
been closed with reason FILLED and the next was not yet opened (R188). -/
inductive CutPoint where
  | beforeOpening
  | beforeFirstSlot
  | torn
  | completed
deriving DecidableEq, Repr

/-- What the world decides at a start: the outcome of the settings check (R202), how far the write in progress had
got (R177), the segments whose states a scan that the start cuts off had already written (R187), and the order in which
the sources post (R16: "either may be appended first"); log 9. -/
structure StartEnv where
  settingsGood : Bool
  cut : CutPoint
  wrote : List SegNo
  order : List LogSource
deriving DecidableEq, Repr

structure CkSetArgs where
  date : DateHm
  second : Nat
deriving DecidableEq, Repr

/-- R25. A `none` in `rule` or `sel` is a word not listed for the field (R205: refused RANGE). -/
structure RuleArgs where
  rule : Option RuleName
  month : Nat
  sel : Option DateSel
  hour : Nat
deriving DecidableEq, Repr

/-- R28; an outer `none` is a word that is not OFF (R205: refused RANGE), an inner `none` is OFF. -/
structure DaycloseArgs where
  minute : Option (Option Nat)
  hour : Option (Option Nat)
  wday : Option (Option Nat)
deriving DecidableEq, Repr

structure ImportArgs where
  drv : Nat
  kind : Option DutyKind
  start : DateHm
  stop : DateHm
deriving DecidableEq, Repr

/-- One kind:min item of CLOSETRIP (R52); `none` is a kind not listed. -/
structure SegArg where
  kind : Option DutyKind
  minutes : Nat
deriving DecidableEq, Repr

structure ClosetripArgs where
  drv : Nat
  stop : DateHm
  segs : List SegArg
deriving DecidableEq, Repr

structure QueryPlanArgs where
  drv : Nat
  plan : Plan
deriving DecidableEq, Repr

structure DtListArgs where
  drv : Nat
  start : Nat
deriving DecidableEq, Repr

structure OpenArgs where
  doc : String
  lines : Nat
  tanker : String
  plan : Plan
  carrier : Option String
  driver : Option Nat
deriving DecidableEq, Repr

/-- R86; a `none` class or group is a word not listed. -/
structure LineArgs where
  comp : Nat
  product : String
  un : Nat
  cls : Option HazClass
  pg : Option PackGroup
  qty : Nat
  cap : Nat
deriving DecidableEq, Repr

structure ShowLineArgs where
  doc : String
  line : Nat
deriving DecidableEq, Repr

structure AmendQtyArgs where
  doc : String
  comp : Nat
  qty : Nat
deriving DecidableEq, Repr

structure AmendProdArgs where
  doc : String
  comp : Nat
  product : String
deriving DecidableEq, Repr

structure AmendRemoveArgs where
  doc : String
  comp : Nat
deriving DecidableEq, Repr

structure AssignArgs where
  doc : String
  drv : Nat
deriving DecidableEq, Repr

structure StartArgs where
  comp : Nat
  preset : Nat
deriving DecidableEq, Repr

structure TempArgs where
  comp : Nat
  temp : Int
deriving DecidableEq, Repr

/-- R197 PRODUCT; a `none` is a word not listed. -/
structure ProductArgs where
  code : String
  un : Nat
  cls : Option HazClass
  pg : Option PackGroup
  group : Option Group
  aCold : Nat
  bCold : Nat
  aHot : Nat
  bHot : Nat
deriving DecidableEq, Repr

/-- R197 SEGREGATION; a `none` group is a letter outside A to H. -/
structure PairArgs where
  x : Option Group
  y : Option Group
  entry : Option SegEntry
deriving DecidableEq, Repr

/-- R197 BAY; outer `none`: field not given, inner `none` of `enable`: a word not listed. -/
structure BayArgs where
  n : Nat
  enable : Option (Option Bool)
  factor : Option Nat
  step : Option Nat
  pause : Option Nat
deriving DecidableEq, Repr

structure HoursArgs where
  dDay : Option Nat
  dCont : Option Nat
  bMin : Option Nat
  rDaily : Option Nat
  dWeek : Option Nat
  sSpan : Option Nat
  margin : Option Nat
deriving DecidableEq, Repr

structure ToleranceArgs where
  abs : Option Nat
  permille : Option Nat
deriving DecidableEq, Repr

/-- What `ST SHOW` reads of a section (R198); a `none` row is a letter outside A to H. -/
inductive ShowSel where
  | whole
  | code (p : String)
  | start (i : Nat)
  | row (x : Option Group)
  | bay (n : Nat)
deriving DecidableEq, Repr

structure ShowArgs where
  sec : Section
  staged : Bool
  sel : ShowSel
deriving DecidableEq, Repr

/-- The commands: one constructor per row of spec/opcode_table.json, in the table's order. -/
inductive Instr where
  | rxCharacter (c : RxChar) (supv : Bool)
  | lineSilence
  | unknownRequest (h : Hdr) (u : BadRequest)
  | transmitLineEnd (supv : Bool)
  | attnPulseEnd
  | dvStatus (h : Hdr) (f : NoFields)
  | dvClear (h : Hdr) (f : NoFields)
  | dvMode (h : Hdr) (a : Parsed (Option NoticeMode))
  | dvNext (h : Hdr) (f : NoFields)
  | dvReset (h : Hdr) (f : NoFields)
  | deviceReset (e : StartEnv)
  | coldStart (e : StartEnv)
  | warmStart (e : StartEnv)
  | resetLine (e : StartEnv)
  | mainSupplyLoss
  | clockTick
  | minuteReached
  | dstInstant
  | ckStatus (h : Hdr) (f : NoFields)
  | ckSet (h : Hdr) (a : Parsed CkSetArgs)
  | ckDstrule (h : Hdr) (a : Parsed RuleArgs)
  | ckDstruleOff (h : Hdr) (f : NoFields)
  | ckRules (h : Hdr) (f : NoFields)
  | ckDayclose (h : Hdr) (a : Parsed DaycloseArgs)
  | ckClearstamp (h : Hdr) (f : NoFields)
  | dtStatus (h : Hdr) (f : NoFields)
  | dtEnrol (h : Hdr) (drv : Parsed Nat)
  | dtRemove (h : Hdr) (drv : Parsed Nat)
  | dtImport (h : Hdr) (a : Parsed ImportArgs)
  | dtArrive (h : Hdr) (drv : Parsed Nat)
  | dtDepart (h : Hdr) (drv : Parsed Nat)
  | dtClosetrip (h : Hdr) (a : Parsed ClosetripArgs)
  | dtQuery (h : Hdr) (drv : Parsed Nat)
  | dtQueryPlan (h : Hdr) (a : Parsed QueryPlanArgs)
  | dtList (h : Hdr) (a : Parsed DtListArgs)
  | cpStatus (h : Hdr) (f : NoFields)
  | cpOpen (h : Hdr) (a : Parsed OpenArgs)
  | cpLine (h : Hdr) (a : Parsed LineArgs)
  | cpConfirm (h : Hdr) (f : NoFields)
  | cpAbort (h : Hdr) (f : NoFields)
  | cpVoid (h : Hdr) (doc : Parsed String)
  | cpShow (h : Hdr) (doc : Parsed String)
  | cpShowLine (h : Hdr) (a : Parsed ShowLineArgs)
  | cpList (h : Hdr) (start : Parsed Nat)
  | cpAmendQty (h : Hdr) (a : Parsed AmendQtyArgs)
  | cpAmendProd (h : Hdr) (a : Parsed AmendProdArgs)
  | cpAmendRemove (h : Hdr) (a : Parsed AmendRemoveArgs)
  | cpWithdraw (h : Hdr) (doc : Parsed String)
  | bStatus (h : Hdr) (b : Bay) (f : NoFields)
  | bStatusLine (h : Hdr) (b : Bay) (comp : Parsed Nat)
  | bAssign (h : Hdr) (b : Bay) (a : Parsed AssignArgs)
  | bStart (h : Hdr) (b : Bay) (a : Parsed StartArgs)
  | bStop (h : Hdr) (b : Bay) (f : NoFields)
  | bResume (h : Hdr) (b : Bay) (f : NoFields)
  | bAckstray (h : Hdr) (b : Bay) (f : NoFields)
  | bTemp (h : Hdr) (b : Bay) (a : Parsed TempArgs)
  | bDriver (h : Hdr) (b : Bay) (drv : Parsed Nat)
  | bAckrestart (h : Hdr) (b : Bay) (f : NoFields)
  | bDispatch (h : Hdr) (b : Bay) (f : NoFields)
  | bCancel (h : Hdr) (b : Bay) (f : NoFields)
  | bClear (h : Hdr) (b : Bay) (f : NoFields)
  | bReset (h : Hdr) (b : Bay) (f : NoFields)
  | pulseEdge (b : Bay)
  | haltEdge (b : Bay) (active : Bool)
  | bondEdge (b : Bay) (good : Bool)
  | pauseLimit (b : Bay)
  | settleEnd (b : Bay)
  | tsStatus (h : Hdr) (f : NoFields)
  | tsCalibrate (h : Hdr) (f : NoFields)
  | sampleComplete (c1 c2 : Adc)
  | calibrationComplete (l1 l2 h1 h2 : Adc)
  | calibrationPeriod
  | dlStatus (h : Hdr) (f : NoFields)
  | dlStatusSeg (h : Hdr) (seg : Parsed Nat)
  | dlOpenSeg (h : Hdr) (seg : Parsed Nat)
  | dlOpenSeq (h : Hdr) (seq : Parsed Nat)
  | dlRead (h : Hdr) (f : NoFields)
  | dlExported (h : Hdr) (seg : Parsed Nat)
  | dlReclaim (h : Hdr) (seg : Parsed Nat)
  | appendServe
  | appendWriteComplete
  | storeAccessEnd
  | reclaimComplete
  | scanEnd
  | stStatus (h : Hdr) (f : NoFields)
  | stShow (h : Hdr) (a : Parsed ShowArgs)
  | stDiscard (h : Hdr) (f : NoFields)
  | stSetProduct (h : Hdr) (a : Parsed ProductArgs)
  | stSetProductDelete (h : Hdr) (code : Parsed String)
  | stSetSegregation (h : Hdr) (a : Parsed PairArgs)
  | stSetBay (h : Hdr) (a : Parsed BayArgs)
  | stSetHours (h : Hdr) (a : Parsed HoursArgs)
  | stSetTolerance (h : Hdr) (a : Parsed ToleranceArgs)
  | stSetCalendar (h : Hdr) (wday : Parsed Nat)
  | stSetSampler (h : Hdr) (period : Parsed Nat)
  | stSetLink (h : Hdr) (attn : Parsed (Option AttnMode))
  | stApply (h : Hdr) (f : NoFields)
  | applyComplete
deriving DecidableEq, Repr

end Sys2Proof
end

