-- ==== Sys2Proof/Decode.lean ====
section
/-! DEFINITION. Decode.lean: the command that a word spells by the table's bits. No row of spec/opcode_table.json gives
bits: the part has no register window, and its requests are lines of text (read in Machine/Operands.lean). -/

namespace Sys2Proof

/-- No word spells a command: the table gives no bits. -/
def decodeTableWord (_nbits _w : Nat) : Option Instr := none

end Sys2Proof
end

