-- ==== Sys2Proof/Config.lean ====
section
/-! DEFINITION. Config.lean: the limits the manual fixes, and the free values it leaves open. A free value is an
opaque constant: nothing in Lean can evaluate it. -/

namespace Sys2Proof.Config

/-- Last value of the second count (R18). -/
def maxCount : Nat := 4294967295
/-- Last sequence number (R173), and the largest decimal value of a field (R205). -/
def maxSeq : Nat := 4294967295
def maxDecimal : Nat := 4294967295
/-- Ceiling of the rejection, refusal, stray, day, trip and amendment counts (R2, R51, R100, R108, R176, R178). -/
def maxCount16 : Nat := 65535
/-- Ceiling of a line's pulse count (R109). -/
def maxPulses : Nat := 16777215
/-- Ceiling of a line's sample counts (R109). -/
def maxSamples : Nat := 255
/-- Characters of a received line, CR LF included (R1). -/
def maxLine : Nat := 240
/-- Places of the input buffer and of the reply queue (R3, R7). -/
def bufferSize : Nat := 4
def replySize : Nat := 4
/-- Driver records, and entries of one duty list (R37). -/
def maxDrivers : Nat := 96
def maxEntries : Nat := 32
/-- Documents, and entries of one amendment stack (R80, R100). -/
def maxDocs : Nat := 64
def maxStack : Nat := 4
/-- Products of a product table (R194). -/
def maxProducts : Nat := 24
/-- Records of DT's outbox (R50). -/
def maxDtOutbox : Nat := 4
/-- Slots of a segment (R169). -/
def segSlots : Nat := 256
/-- Erase work of a reclaim, and work of an apply, in milliseconds (R184, R199). -/
def eraseWork : Nat := 800
def applyWork : Nat := 200
/-- Settle time in milliseconds (R123). -/
def settleTime : Nat := 3000
/-- Stray pulses that raise the STRAY notice (R124). -/
def strayLimit : Nat := 20
/-- Range of a temperature in tenths of a degree (R126, R144). -/
def minTemp : Int := -400
def maxTemp : Int := 700
/-- Bounds of the volume correction factor (R160). -/
def minVcf : Nat := 900000
def maxVcf : Nat := 1100000
/-- Largest capacity and declared quantity (R82). -/
def maxVolume : Nat := 20000
/-- Largest UN number (R82). -/
def maxUn : Nat := 3599

/-- FREE VALUE: the second count after a cold start, which R36 calls not meaningful (log 8). The argument is the
state's counter of free values. -/
opaque coldCount : Nat → BitVec 32

/-- FREE VALUE: what a rule reads for a product code that is not in the product table (log 12). -/
opaque missingProduct : String → Product

end Sys2Proof.Config
end

