-- ==== Sys2Proof/Machine/Arith.lean ====
section
/-! DEFINITION. Machine/Arith.lean: the rounding terms of the manual (00_scope.md, "Rounding"), saturating counts,
clamps, and the two line checks (R204, R209). -/

namespace Sys2Proof.Machine

/-- Round half up of n / d (00_scope.md). -/
def roundHalfUp (n d : Nat) : Nat := (2 * n + d) / (2 * d)

/-- Round half away from zero of n / d (00_scope.md). -/
def roundHalfAway (n : Int) (d : Nat) : Int :=
  if n < 0 then -(roundHalfUp n.natAbs d : Int) else (roundHalfUp n.natAbs d : Int)

/-- Adds k to a count that stays at its ceiling. -/
def satAdd (cap n k : Nat) : Nat := min cap (n + k)

/-- Brings a value into a range (R6, clamped values). -/
def clamp (lo hi n : Nat) : Nat := max lo (min hi n)

/-- Hands on a number in evaluated form; equal to `k n` (`Laws.Basic.strict_eq`). It keeps the checks below
evaluable on long lines. -/
def strict {α : Type} (n : Nat) (k : Nat → α) : α :=
  match n with
  | 0 => k 0
  | m + 1 => k (m + 1)

/-- One shift of the CRC-8 register, polynomial 07 hex (R204). -/
def crc8Shift (r : Byte) : Byte := if r.msb then (r <<< 1) ^^^ 0x07#8 else r <<< 1

/-- One character into the CRC-8 register (R204). -/
def crc8Char (r : Byte) (c : Char) : Byte :=
  Nat.repeat crc8Shift 8 (r ^^^ BitVec.ofNat 8 c.toNat)

def crc8From (r : Byte) : List Char → Byte
  | [] => r
  | c :: cs => strict (crc8Char r c).toNat fun n => crc8From (BitVec.ofNat 8 n) cs

/-- The check of a line over its covered characters (R204). -/
def crc8 (cs : List Char) : Byte := crc8From 0 cs

/-- One shift of the CRC-16 register, polynomial 1021 hex (R209). -/
def crc16Shift (r : Word16) : Word16 := if r.msb then (r <<< 1) ^^^ 0x1021#16 else r <<< 1

/-- One character into the high 8 bits of the CRC-16 register (R209). -/
def crc16Char (r : Word16) (c : Char) : Word16 :=
  Nat.repeat crc16Shift 8 (r ^^^ (BitVec.ofNat 16 c.toNat <<< 8))

def crc16From (r : Word16) : List Char → Word16
  | [] => r
  | c :: cs => strict (crc16Char r c).toNat fun n => crc16From (BitVec.ofNat 16 n) cs

/-- The record check over its covered characters (R209). -/
def crc16 (cs : List Char) : Word16 := crc16From 0xFFFF#16 cs

end Sys2Proof.Machine
end

