-- ==== Sys2Proof/Machine/Calendar.lean ====
section
/-! DEFINITION. Machine/Calendar.lean: the Gregorian calendar of R18, the DST instants of R26 and the week start of
R31, as functions of a second count since 2000-01-01 00:00:00 standard. -/

namespace Sys2Proof.Machine

/-- A calendar date. -/
structure Civil where
  year : Nat
  month : Nat
  day : Nat
deriving DecidableEq, Repr

/-- R18: divisible by 4, except divisible by 100 but not by 400. -/
def isLeap (y : Nat) : Bool := (y % 4 == 0 && y % 100 != 0) || y % 400 == 0

def daysInYear (y : Nat) : Nat := if isLeap y then 366 else 365

/-- Length of month m, 1 to 12; 0 for any other number. -/
def daysInMonth (y m : Nat) : Nat :=
  match m with
  | 1 => 31 | 2 => if isLeap y then 29 else 28 | 3 => 31 | 4 => 30 | 5 => 31 | 6 => 30
  | 7 => 31 | 8 => 31 | 9 => 30 | 10 => 31 | 11 => 30 | 12 => 31
  | _ => 0

/-- Days of year y before its month m. -/
def daysBeforeMonth (y : Nat) : Nat → Nat
  | 0 => 0
  | m + 1 => daysBeforeMonth y m + daysInMonth y m

/-- Leap years among 1 to y. -/
def leapsThrough (y : Nat) : Nat := y / 4 - y / 100 + y / 400

/-- Days from 2000-01-01 to a date; negative before it. -/
def dayNumber (y m d : Nat) : Int :=
  365 * ((y : Int) - 2000) + ((leapsThrough (y - 1) : Int) - leapsThrough 1999) + daysBeforeMonth y m + d - 1

/-- The year that holds day n counted from the first day of year y, and the day's number in it. -/
def yearFrom : Nat → Nat → Nat → Nat × Nat
  | 0, y, n => (y, n)
  | fuel + 1, y, n => if n < daysInYear y then (y, n) else yearFrom fuel (y + 1) (n - daysInYear y)

def monthFrom : Nat → Nat → Nat → Nat → Nat × Nat
  | 0, _, m, n => (m, n)
  | fuel + 1, y, m, n => if n < daysInMonth y m then (m, n) else monthFrom fuel y (m + 1) (n - daysInMonth y m)

/-- The date of day n after 2000-01-01 (R18); the second count reaches into 2136, within the 200 years searched. -/
def civil (n : Nat) : Civil :=
  let y := yearFrom 200 2000 n
  let m := monthFrom 12 y.1 1 y.2
  ⟨y.1, m.1, m.2 + 1⟩

def daySeconds : Nat := 86400

/-- R18: 0 is Sunday, and 2000-01-01 is a Saturday. -/
def weekday (day : Nat) : Nat := (day + 6) % 7

/-- The date exists in the calendar and the time of day is in range (R21). -/
def dateValid (t : DateHm) : Bool :=
  1 ≤ t.month && t.month ≤ 12 && 1 ≤ t.day && t.day ≤ daysInMonth t.year t.month && t.hour ≤ 23 && t.minute ≤ 59

/-- The dates CK SET accepts (R18). -/
def inSetSpan (t : DateHm) : Bool := 2000 ≤ t.year && t.year ≤ 2099

/-- Minutes from 2000-01-01 00:00; negative before it. -/
def dateMinutes (t : DateHm) : Int := dayNumber t.year t.month t.day * 1440 + t.hour * 60 + t.minute

/-- One DST rule (R25). -/
structure DstRule where
  month : Nat
  sel : DateSel
  hour : Nat
deriving DecidableEq, Repr

/-- The date a rule gives in year y, as a day number (R26). -/
def ruleDay (r : DstRule) (y : Nat) : Nat :=
  let len := daysInMonth y r.month
  let first := (dayNumber y r.month 1).toNat
  match r.sel with
  | .DATE day => first + (min day len - 1)
  | .WEEKDAY week wday =>
    let firstHit := (wday + 7 - weekday first) % 7
    let lastHit := firstHit + 7 * ((len - 1 - firstHit) / 7)
    if week = 7 then first + lastHit else first + min (firstHit + 7 * (week - 1)) lastHit

/-- F(Y): standard time HOUR:00 on the forward rule's date (R26). -/
def forwardInstant (r : DstRule) (y : Nat) : Nat := ruleDay r y * daySeconds + r.hour * 3600

/-- R(Y): local DST time HOUR:00 on the reverse rule's date, one hour earlier in standard time (R26). -/
def reverseInstant (r : DstRule) (y : Nat) : Nat := ruleDay r y * daySeconds + r.hour * 3600 - 3600

def yearOf (t : Nat) : Nat := (civil (t / daySeconds)).year

/-- The DST-in-force state at standard time t (R26). -/
def inForceAt (fwd rev : Option DstRule) (t : Nat) : Bool :=
  match fwd, rev with
  | some f, some r =>
    let y := yearOf t
    let ft := forwardInstant f y
    let rt := reverseInstant r y
    if ft < rt then decide (ft ≤ t) && decide (t < rt) else decide (ft ≤ t) || decide (t < rt)
  | _, _ => false

/-- The four instants R26 names for the year of t. -/
def instantsNear (fwd rev : Option DstRule) (t : Nat) : List Nat :=
  match fwd, rev with
  | some f, some r =>
    let y := yearOf t
    [forwardInstant f y, reverseInstant r y, forwardInstant f (y + 1), reverseInstant r (y + 1)]
  | _, _ => []

/-- The next DST instant later than now, or none while DST is disabled (R26). -/
def nextInstant (fwd rev : Option DstRule) (t : Nat) : Option Nat :=
  ((instantsNear fwd rev t).filter (fun i => decide (t < i))).min?

/-- The instant just reached: the latest of the year's instants at or before t (R27). -/
def reachedInstant (fwd rev : Option DstRule) (t : Nat) : Nat :=
  (((instantsNear fwd rev t).filter (fun i => decide (i ≤ t))).max?).getD t

/-- The seconds by which local time runs ahead of standard time (R19). -/
def dstOffset (dst : Bool) : Nat := if dst then 3600 else 0

/-- The week start in standard seconds, from now, the present DST state, the DST rules and the weekday W (R31).
The local 00:00 is looked for first with DST in force (its first occurrence), then without; a skipped 00:00 gives the
forward instant, which is the same standard time as 00:00 without DST. -/
def weekStart (fwd rev : Option DstRule) (dst : Bool) (w now : Nat) : Nat :=
  let today := (now + dstOffset dst) / daySeconds
  let back := (weekday today + 7 - w) % 7
  if today ≤ back then 0
  else
    let midnight := (today - back) * daySeconds
    if inForceAt fwd rev (midnight - 3600) then midnight - 3600 else midnight

end Sys2Proof.Machine
end

