-- ==== Sys2Proof/Machine/State.lean ====
section
/-! DEFINITION. Machine/State.lean: the state of the part, block by block, the closed Fault and Refusal types, and the
state after reset. INVENTORY.md lists every field with its rule and its reset value. -/

namespace Sys2Proof.Machine

/-- No condition stops the part: requests are refused by a reply code, lines are counted. Nothing raises a fault. -/
inductive Fault where
deriving DecidableEq, Repr

/-- Raised only by a row of the table without a meaning; safe, because nothing is done. -/
inductive Refusal where
  /-- The row named has no meaning in this model; no row uses it. -/
  | notModelled (mnemonic : String)
deriving DecidableEq, Repr

/-! ## Lines of the link -/

/-- The reply codes of 11_message_and_record_formats.md. -/
inductive ReplyCode where
  | SYNTAX | RANGE | STATE | BUSY | TAG_RESERVED | UNKNOWN_UNIT | UNKNOWN_VERB | CLOCK_UNSET | TIME_BEFORE_HISTORY
  | EXISTS | TABLE_FULL | NOT_FOUND | LIST_FULL | OVERLAP | FUTURE_TIME | TRIP_OPEN | BEFORE_DEPARTURE
  | DRIVER_UNKNOWN | DRIVER_ABSENT | DRIVER_BUSY | DRIVER_MISMATCH | DOC_BUSY | SEQUENCE | LINE_CONFLICT
  | PRODUCT_MISMATCH | SEGREGATION | LINE_STATE | LAST_LINE | STACK_FULL | STACK_EMPTY | NO_BOND | HALTED
  | HOURS_LIMIT | KEY_REQUIRED | NOT_EXPORTED | BAY_ACTIVE | PRODUCT_IN_USE
deriving DecidableEq, Repr

/-- One field of a line the part sends: NAME=value, or a bare word when `value` is none (R6, R206). -/
structure Fld where
  name : String
  value : Option String
deriving DecidableEq, Repr

/-- What a unit answers: OK (`code = none`) or ER with a code, and the fields (R5). -/
structure Answer where
  code : Option ReplyCode
  fields : List Fld
deriving DecidableEq, Repr

/-- A composed reply: the request's tag and unit token, and the answer (R4, R5). -/
structure Reply where
  tag : Byte
  token : String
  answer : Answer
deriving DecidableEq, Repr

/-- The notice kinds (01_the_message_link.md, "Notices"). -/
inductive NKind where
  | STATE | LINES | HOLD | STRAY | TRIP | STAGING | HEALTH | SPACE | RECLAIM | DAY | DST | POWER | APPLIED
  | FRAME_REJECT | FAULT
deriving DecidableEq, Repr

structure Notice where
  unit : UnitName
  kind : NKind
  fields : List Fld
deriving DecidableEq, Repr

/-- A line on TXD (R7). -/
inductive TxLine where
  | reply (r : Reply)
  | notice (n : Notice)
deriving DecidableEq, Repr

inductive StartKind where
  | COLD | WARM | DEVICE
deriving DecidableEq, Repr

/-- The message link DV (01_the_message_link.md). The MARKS component of R13 is `marks` itself. -/
structure Dv where
  rx : List RxChar
  overlong : Bool
  buffer : List Instr
  replies : List Reply
  wire : Option TxLine
  notices : List Notice
  mode : NoticeMode
  marks : List UnitName
  full : Nat
  long : Nat
  check : Nat
  addr : Nat
  sampler : Bool
  log : Bool
  settings : Bool
  startKind : StartKind
  resetWait : Bool
  attnPulse : Bool
deriving DecidableEq, Repr

/-! ## Settings (10_settings_and_supervisor_key.md) -/

structure BayEntry where
  enabled : Bool
  factor : Nat
  step : Nat
  pause : Nat
deriving DecidableEq, Repr

structure HoursParams where
  dDay : Nat
  dCont : Nat
  bMin : Nat
  rDaily : Nat
  dWeek : Nat
  sSpan : Nat
  margin : Nat
deriving DecidableEq, Repr

structure Tolerance where
  abs : Nat
  permille : Nat
deriving DecidableEq, Repr

/-- One copy of the settings: the eight sections of R193. -/
structure Settings where
  products : List Product
  matrix : Vector (Vector SegEntry 8) 8
  bays : Vector BayEntry 8
  hours : HoursParams
  tol : Tolerance
  weekStart : Nat
  period : Nat
  attn : AttnMode
deriving DecidableEq, Repr

/-! ## Log records (R171, R172) -/

/-- The time fields of a record (R19). -/
structure Stamp where
  std : Nat
  loc : Nat
  dst : Bool
deriving DecidableEq, Repr

inductive VerdictKind where
  | CLEAR | TIGHT | LIMIT
deriving DecidableEq, Repr

/-- The four tests of R73, in their order. -/
inductive HoursTest where
  | DAY | WEEK | SPAN | CONT
deriving DecidableEq, Repr

/-- The line states of R109. -/
inductive LineState where
  | OPEN | LOADING | FINISHING | VERIFIED | OVER | UNDER | PROBE_FAULT | NO_TEMP
deriving DecidableEq, Repr

/-- The result marks of a line (R109). -/
structure Marks where
  n : Bool
  z : Bool
  v : Bool
  c : Bool
deriving DecidableEq, Repr

/-- The reconciled figures of a line: Tm, VCF, Vs and deviation, present together (R158, R163). -/
structure Figures where
  tm : Int
  vcf : Nat
  vs : Nat
  dev : Int
deriving DecidableEq, Repr

structure DispatchItem where
  comp : Nat
  product : String
  un : Nat
  cls : HazClass
  pg : PackGroup
  qty : Nat
  vo : Nat
  figs : Option Figures
  marks : Marks
  manual : Bool
deriving DecidableEq, Repr

structure DispatchBody where
  bay : Bay
  doc : String
  tanker : String
  carrier : Option String
  drv : Nat
  verdict : VerdictKind
  least : Int
  test : HoursTest
  amend : Nat
  items : List DispatchItem
deriving DecidableEq, Repr

structure TripItem where
  kind : DutyKind
  minutes : Nat
deriving DecidableEq, Repr

structure TripBody where
  drv : Nat
  doc : String
  depart : Nat
  stop : Nat
  items : List TripItem
deriving DecidableEq, Repr

structure CancelItem where
  comp : Nat
  product : String
  qty : Nat
  pulses : Nat
  vo : Nat
  state : LineState
  marks : Marks
  figs : Option Figures
deriving DecidableEq, Repr

inductive CancelReason where
  | OPERATOR | RESET
deriving DecidableEq, Repr

structure CancelBody where
  bay : Bay
  doc : String
  drv : Nat
  reason : CancelReason
  items : List CancelItem
deriving DecidableEq, Repr

/-- Day counts of DISPATCH, CANCEL and TRIP_CLOSE records (R178). -/
structure DayCounts where
  dispatch : Nat
  cancel : Nat
  trip : Nat
deriving DecidableEq, Repr

/-- The eight kinds of record with their own fields and items (R172). CK makes a DAY_CLOSE with counts 0, and DL
fills them in (R178). -/
inductive Body where
  | DISPATCH (d : DispatchBody)
  | TRIP_CLOSE (t : TripBody)
  | CANCEL (c : CancelBody)
  | DAY_CLOSE (n : DayCounts)
  | POWER (loss restore : Option Nat)
  | CLOCK_SET (old : Option Nat) (new : Nat)
  | SETTINGS (changed : List Section)
  | RESTART (kind : StartKind)
deriving DecidableEq, Repr

/-- A record as its unit hands it to the log: without sequence number and check (R172). -/
structure LogRec where
  stamp : Option Stamp
  body : Body
deriving DecidableEq, Repr

/-! ## Clock (02_clock_calendar_and_terminal_day.md) -/

structure Ck where
  count : Nat
  isSet : Bool
  dst : Bool
  fwd : Option DstRule
  rev : Option DstRule
  matchMin : Option Nat
  matchHour : Option Nat
  matchWday : Option Nat
  lastFired : Option Nat
  latestLoss : Option Nat
  firstLoss : Option Nat
  lastRestore : Option Nat
  dstAtLoss : Bool
  minuteDue : Bool
  outbox : List LogRec
deriving DecidableEq, Repr

/-! ## Duty table (03_duty_table.md) -/

inductive DriverStatus where
  | ABSENT | ON_SITE
  | AT_BAY (b : Bay)
  | ON_TRIP
deriving DecidableEq, Repr

inductive EntrySource where
  | TERMINAL | IMPORT | TRIP
deriving DecidableEq, Repr

/-- A duty entry (R38); open while `stop` is none. -/
structure Entry where
  start : Nat
  stop : Option Nat
  kind : DutyKind
  source : EntrySource
deriving DecidableEq, Repr

/-- A verdict record (R75). -/
structure VerdictRec where
  verdict : VerdictKind
  least : Int
  test : HoursTest
  marks : List HoursTest
  slackDay : Int
  slackWeek : Int
  slackSpan : Int
  slackCont : Int
  capacity : Nat
  plan : Plan
  now : Nat
deriving DecidableEq, Repr

/-- A driver record (R37). -/
structure Driver where
  num : Nat
  status : DriverStatus
  list : List Entry
  trip : Option String
  last : Option VerdictRec
  pend : Bool
deriving DecidableEq, Repr

/-- The latest trip closure (R51). -/
structure LastTrip where
  drv : Nat
  doc : String
  depart : Nat
  stop : Nat
deriving DecidableEq, Repr

/-- The duty table; its records are kept in number order, the canonical form of a table without order (log 29). -/
structure Dt where
  drivers : List Driver
  outbox : List LogRec
  trips : Nat
  logfull : Nat
  lastTrip : Option LastTrip
deriving DecidableEq, Repr

/-! ## Consignment papers (05_consignment_papers.md) -/

inductive DocState where
  | DRAFT
  | BOUND (b : Bay)
  | RELEASED
deriving DecidableEq, Repr

/-- The kind of an amendment; REMOVE with the position the line held, from 0 (R100). -/
inductive AmendKind where
  | QTY | PROD
  | REMOVE (pos : Nat)
deriving DecidableEq, Repr

structure StackEntry where
  kind : AmendKind
  line : DocLine
deriving DecidableEq, Repr

/-- A document record (R81); the stack stands newest last (R100). -/
structure Doc where
  num : String
  state : DocState
  tanker : String
  carrier : Option String
  driver : Option Nat
  plan : Plan
  lines : List DocLine
  count : Nat
  stack : List StackEntry
deriving DecidableEq, Repr

/-- A document being assembled (R84). -/
structure Staging where
  num : String
  expected : Nat
  tanker : String
  carrier : Option String
  driver : Option Nat
  plan : Plan
  lines : List DocLine
deriving DecidableEq, Repr

structure Cp where
  docs : List Doc
  staging : Option Staging
deriving DecidableEq, Repr

/-! ## Bays (06_loading_bays.md) -/

inductive BayState where
  | CLOSED | IDLE | ASSIGNED | LOADING | PAUSED | FINISHING | HELD | DISPATCHING | DISPATCHED
deriving DecidableEq, Repr

/-- The hold reasons as a set (R110). -/
structure Holds where
  hours : Bool
  quantity : Bool
  temperature : Bool
  stray : Bool
  restart : Bool
deriving DecidableEq, Repr

/-- A line record (R109). -/
structure LineRec where
  comp : Nat
  state : LineState
  pulses : Nat
  vo : Nat
  sampleSum : Int
  weightSum : Nat
  pend : Nat
  taken : Nat
  faulted : Nat
  finalTemp : Option Int
  figs : Option Figures
  marks : Marks
  manual : Bool
deriving DecidableEq, Repr

/-- The compartment context (R108): `pauseMs` and `settleMs` are the elapsed interval times in milliseconds, and
`settled` says that the settle has ended. -/
structure Ctx where
  comp : Nat
  preset : Nat
  haltReason : Bool
  bondReason : Bool
  pauseMs : Nat
  settleMs : Nat
  settled : Bool
  crossings : Nat
  final : Bool
deriving DecidableEq, Repr

/-- One bay: the record of R108, the input levels, and the RELEASE output. -/
structure BayUnit where
  state : BayState
  holds : Holds
  doc : Option String
  driver : Option Nat
  plan : Option Plan
  verdict : Option VerdictRec
  lines : List LineRec
  ctx : Option Ctx
  stray : Nat
  outbox : List LogRec
  logfull : Nat
  bond : Bool
  halt : Bool
  release : Bool
deriving DecidableEq, Repr

/-! ## Temperature sampler (07_temperature_sampler.md) -/

/-- The converter (R139); `withdrawn` says that the sampled request was withdrawn (R145). -/
inductive Conv where
  | FREE
  | SAMPLE (b : Bay) (withdrawn : Bool)
  | CAL
deriving DecidableEq, Repr

/-- A pending request (R140). -/
structure Req where
  weight : Nat
  final : Bool
deriving DecidableEq, Repr

/-- The latest calibration (R151); `time` none is UNSET. -/
structure LastCal where
  time : Option Nat
  lo : Nat
  hi : Nat
deriving DecidableEq, Repr

structure Ts where
  conv : Conv
  reqs : Vector (Option Req) 8
  lastServed : Bay
  clo : Nat
  chi : Nat
  fault : Bool
  due : Bool
  sinceCal : Option Nat
  lastCal : Option LastCal
deriving DecidableEq, Repr

/-! ## Dispatch log (09_dispatch_log.md) -/

inductive SegState where
  | ERASED | ACTIVE | CLOSED | RECLAIMING | DAMAGED
deriving DecidableEq, Repr

inductive CloseReason where
  | DAY | FILLED
deriving DecidableEq, Repr

/-- A record in the store; `check` is none while erased (R171). -/
structure StoredRec where
  seq : Nat
  record : LogRec
  check : Option Word16
deriving DecidableEq, Repr

/-- A segment (R170); its first and last sequence are those of its records. -/
structure Segment where
  state : SegState
  opened : Option Nat
  records : List StoredRec
  reason : Option CloseReason
  exported : Bool
deriving DecidableEq, Repr

/-- An append in the queue (R174). -/
structure Append where
  source : LogSource
  record : LogRec
deriving DecidableEq, Repr

/-- The append being written (R177); `opened` says that its serving opened the segment (R175, step 2). -/
structure Writing where
  source : LogSource
  record : LogRec
  seq : Nat
  seg : SegNo
  opened : Bool
deriving DecidableEq, Repr

/-- The cursor: a sequence number and a position, 0 or 4 (R180). -/
structure Cursor where
  seq : Nat
  pos : Nat
deriving DecidableEq, Repr

structure Reclaim where
  seg : SegNo
  work : Nat
deriving DecidableEq, Repr

structure Dl where
  segs : Vector Segment 32
  highMark : Nat
  queue : List Append
  writing : Option Writing
  nextSeq : Nat
  lastOpened : SegNo
  day : DayCounts
  countsFromStore : Bool
  refused : Nat
  reclaim : Option Reclaim
  cursor : Option Cursor
  scan : Bool
  accesses : Nat
deriving DecidableEq, Repr

/-- Settings and supervisor key; `apply` is the work remaining in milliseconds. -/
structure St where
  store : Settings
  storeGood : Bool
  applied : Settings
  staging : Settings
  apply : Option Nat
  defaults : Bool
  outbox : Option LogRec
deriving DecidableEq, Repr

/-- The part. `pending` is the queue of commands; `supply` and `supv` are the main supply and the key level last
presented; `fresh` is the model's counter of free values (log 8). -/
structure State where
  pending : List Instr
  supply : Bool
  supv : Bool
  fresh : Nat
  dv : Dv
  ck : Ck
  dt : Dt
  cp : Cp
  bays : Vector BayUnit 8
  ts : Ts
  dl : Dl
  st : St
deriving DecidableEq, Repr

/-! ## The state after reset -/

def Holds.none : Holds := ⟨false, false, false, false, false⟩
def Marks.none : Marks := ⟨false, false, false, false⟩
def DayCounts.zero : DayCounts := ⟨0, 0, 0⟩

/-- The factory defaults of R202. -/
def Settings.factory : Settings where
  products := []
  matrix := Vector.replicate 8 (Vector.replicate 8 .ALLOW)
  bays := Vector.replicate 8 ⟨false, 10000, 1000, 15⟩
  hours := ⟨540, 270, 45, 660, 3360, 780, 30⟩
  tol := ⟨10, 5⟩
  weekStart := 1
  period := 10
  attn := .LEVEL

/-- R17, R202: after a cold start that finds the settings check failed; the FAULT notice is on the wire (MARKS=NONE: log
45). -/
def Dv.reset : Dv where
  rx := []
  overlong := false
  buffer := []
  replies := []
  wire := some (.notice ⟨.DV, .FAULT, [⟨"FAULT", some "SET"⟩, ⟨"MARKS", some "NONE"⟩, ⟨"SAMPLER", some "CLEAR"⟩,
    ⟨"LOG", some "CLEAR"⟩, ⟨"SETTINGS", some "SET"⟩]⟩)
  notices := [⟨.ST, .APPLIED, [⟨"RESULT", some "DEFAULTS"⟩, ⟨"CHANGED", some "NONE"⟩]⟩]
  mode := .PUSH
  marks := []
  full := 0
  long := 0
  check := 0
  addr := 0
  sampler := false
  log := false
  settings := true
  startKind := .COLD
  resetWait := false
  attnPulse := false

/-- R36, cold start; the count is log 8's choice. -/
def Ck.reset : Ck where
  count := 0
  isSet := false
  dst := false
  fwd := none
  rev := none
  matchMin := some 0
  matchHour := some 0
  matchWday := none
  lastFired := none
  latestLoss := none
  firstLoss := none
  lastRestore := none
  dstAtLoss := false
  minuteDue := false
  outbox := []

/-- R64, cold start. -/
def Dt.reset : Dt := ⟨[], [], 0, 0, none⟩

/-- R107, cold start. -/
def Cp.reset : Cp := ⟨[], none⟩

/-- R138, cold start with every bay disabled; the input levels are log 7's choice. -/
def BayUnit.reset : BayUnit where
  state := .CLOSED
  holds := Holds.none
  doc := none
  driver := none
  plan := none
  verdict := none
  lines := []
  ctx := none
  stray := 0
  outbox := []
  logfull := 0
  bond := false
  halt := false
  release := false

/-- R152: the start's calibration has begun. -/
def Ts.reset : Ts where
  conv := .CAL
  reqs := Vector.replicate 8 none
  lastServed := 7
  clo := 410
  chi := 3686
  fault := false
  due := true
  sinceCal := none
  lastCal := none

/-- An ERASED segment has every mark cleared (R170). -/
def Segment.erased : Segment := ⟨.ERASED, none, [], none, false⟩

/-- R192, R189: an empty, never-reclaimed store, the scan running, and DV's RESTART record posted (R16). -/
def Dl.reset : Dl where
  segs := Vector.replicate 32 Segment.erased
  highMark := 0
  queue := [⟨.DV, ⟨none, .RESTART .COLD⟩⟩]
  writing := none
  nextSeq := 1
  lastOpened := 31
  day := DayCounts.zero
  countsFromStore := true
  refused := 0
  reclaim := none
  cursor := none
  scan := true
  accesses := 0

/-- R202: the check failed and the factory defaults are in force (log 6). -/
def St.reset : St := ⟨.factory, false, .factory, .factory, none, true, none⟩

/-- The part right after reset: a cold start that finds the settings check failed and the log erased (log 6). -/
def State.reset : State where
  pending := []
  supply := true
  supv := false
  fresh := 0
  dv := Dv.reset
  ck := Ck.reset
  dt := Dt.reset
  cp := Cp.reset
  bays := Vector.replicate 8 BayUnit.reset
  ts := Ts.reset
  dl := Dl.reset
  st := St.reset

end Sys2Proof.Machine
end

