-- ==== Sys2Proof/Machine/Format.lean ====
section
/-! DEFINITION. Machine/Format.lean: how the part writes numbers, times, words, lines and log records
(R204, R206, R208, R209). -/

namespace Sys2Proof.Machine

/-! ## Numbers and times (R206) -/

def dec (n : Nat) : String := String.ofList (Nat.toDigits 10 n)

def decInt (z : Int) : String := if z < 0 then "-" ++ dec z.natAbs else dec z.natAbs

/-- n with at least w digits. -/
def pad (w n : Nat) : String :=
  let ds := Nat.toDigits 10 n
  String.ofList (List.replicate (w - ds.length) '0' ++ ds)

def hexDigit (n : Nat) : Char := Char.ofNat (if n < 10 then 48 + n else 55 + n)
def hex2 (b : Byte) : String := String.ofList [hexDigit (b.toNat / 16), hexDigit (b.toNat % 16)]
def hex4 (w : Word16) : String :=
  String.ofList [hexDigit (w.toNat / 4096), hexDigit (w.toNat / 256 % 16), hexDigit (w.toNat / 16 % 16),
    hexDigit (w.toNat % 16)]

def joinWith (sep : String) : List String → String
  | [] => ""
  | [a] => a
  | a :: as => a ++ sep ++ joinWith sep as

/-- A list value (R6). -/
def commas (l : List String) : String := joinWith "," l
/-- A list value that is NONE when it has no item. -/
def commasOrNone (l : List String) : String := if l = [] then "NONE" else commas l

/-- A bare date. -/
def dateText (day : Nat) : String :=
  let c := civil day
  pad 4 c.year ++ "-" ++ pad 2 c.month ++ "-" ++ pad 2 c.day

/-- `YYYY-MM-DD hh:mm` of a minute. -/
def minuteText (m : Nat) : String :=
  dateText (m / 1440) ++ " " ++ pad 2 (m / 60 % 24) ++ ":" ++ pad 2 (m % 60)

/-- `YYYY-MM-DD hh:mm:ss` of a second. -/
def timeText (t : Nat) : String := minuteText (t / 60) ++ ":" ++ pad 2 (t % 60)

/-- YYYYMMDDhhmm. -/
def twelve (m : Nat) : String :=
  let c := civil (m / 1440)
  pad 4 c.year ++ pad 2 c.month ++ pad 2 c.day ++ pad 2 (m / 60 % 24) ++ pad 2 (m % 60)

/-- YYYYMMDDhhmmss. -/
def fourteen (t : Nat) : String := twelve (t / 60) ++ pad 2 (t % 60)

def timeOrNone (t : Option Nat) : String := t.elim "NONE" timeText
def drvText (n : Nat) : String := pad 8 n
def unText (n : Nat) : String := pad 4 n
def bayText (b : Bay) : String := dec (b.val + 1)
def segText (s : SegNo) : String := dec (s.val + 1)
def yesNo (b : Bool) : String := if b then "YES" else "NO"
def yn (b : Bool) : String := if b then "Y" else "N"

/-! ## Words -/

def unitText : UnitName → String
  | .DV => "DV" | .CK => "CK" | .DT => "DT" | .CP => "CP" | .TS => "TS" | .DL => "DL" | .ST => "ST"
  | .B b => "B" ++ bayText b

def allBays : List Bay := [0, 1, 2, 3, 4, 5, 6, 7]

/-- The fifteen units in the order in which R5 names them. -/
def allUnits : List UnitName := [.DV, .CK, .DT, .CP] ++ allBays.map .B ++ [.TS, .DL, .ST]

def codeText : ReplyCode → String
  | .SYNTAX => "SYNTAX" | .RANGE => "RANGE" | .STATE => "STATE" | .BUSY => "BUSY"
  | .TAG_RESERVED => "TAG_RESERVED" | .UNKNOWN_UNIT => "UNKNOWN_UNIT" | .UNKNOWN_VERB => "UNKNOWN_VERB"
  | .CLOCK_UNSET => "CLOCK_UNSET" | .TIME_BEFORE_HISTORY => "TIME_BEFORE_HISTORY" | .EXISTS => "EXISTS"
  | .TABLE_FULL => "TABLE_FULL" | .NOT_FOUND => "NOT_FOUND" | .LIST_FULL => "LIST_FULL" | .OVERLAP => "OVERLAP"
  | .FUTURE_TIME => "FUTURE_TIME" | .TRIP_OPEN => "TRIP_OPEN" | .BEFORE_DEPARTURE => "BEFORE_DEPARTURE"
  | .DRIVER_UNKNOWN => "DRIVER_UNKNOWN" | .DRIVER_ABSENT => "DRIVER_ABSENT" | .DRIVER_BUSY => "DRIVER_BUSY"
  | .DRIVER_MISMATCH => "DRIVER_MISMATCH" | .DOC_BUSY => "DOC_BUSY" | .SEQUENCE => "SEQUENCE"
  | .LINE_CONFLICT => "LINE_CONFLICT" | .PRODUCT_MISMATCH => "PRODUCT_MISMATCH" | .SEGREGATION => "SEGREGATION"
  | .LINE_STATE => "LINE_STATE" | .LAST_LINE => "LAST_LINE" | .STACK_FULL => "STACK_FULL"
  | .STACK_EMPTY => "STACK_EMPTY" | .NO_BOND => "NO_BOND" | .HALTED => "HALTED" | .HOURS_LIMIT => "HOURS_LIMIT"
  | .KEY_REQUIRED => "KEY_REQUIRED" | .NOT_EXPORTED => "NOT_EXPORTED" | .BAY_ACTIVE => "BAY_ACTIVE"
  | .PRODUCT_IN_USE => "PRODUCT_IN_USE"

def kindText : NKind → String
  | .STATE => "STATE" | .LINES => "LINES" | .HOLD => "HOLD" | .STRAY => "STRAY" | .TRIP => "TRIP"
  | .STAGING => "STAGING" | .HEALTH => "HEALTH" | .SPACE => "SPACE" | .RECLAIM => "RECLAIM" | .DAY => "DAY"
  | .DST => "DST" | .POWER => "POWER" | .APPLIED => "APPLIED" | .FRAME_REJECT => "FRAME_REJECT" | .FAULT => "FAULT"

def modeText : NoticeMode → String
  | .PUSH => "PUSH" | .POLL => "POLL"
def attnText : AttnMode → String
  | .LEVEL => "LEVEL" | .PULSE => "PULSE"
def startText : StartKind → String
  | .COLD => "COLD" | .WARM => "WARM" | .DEVICE => "DEVICE"
def dutyText : DutyKind → String
  | .DRIVE => "DRIVE" | .WORK => "WORK" | .REST => "REST"
def classText : HazClass → String
  | .c21 => "2.1" | .c22 => "2.2" | .c3 => "3" | .c51 => "5.1" | .c61 => "6.1" | .c8 => "8" | .c9 => "9"
def packText : PackGroup → String
  | .I => "I" | .II => "II" | .III => "III" | .NONE => "NONE"
def groupText (g : Group) : String := String.ofList [Char.ofNat (65 + g.val)]
def entryText : SegEntry → String
  | .ALLOW => "ALLOW" | .APART => "APART" | .NEVER => "NEVER"
/-- R198: a row of the matrix is returned as letters. -/
def entryLetter : SegEntry → String
  | .ALLOW => "L" | .APART => "P" | .NEVER => "N"
def sectionText : Section → String
  | .PRODUCT => "PRODUCT" | .SEGREGATION => "SEGREGATION" | .BAY => "BAY" | .HOURS => "HOURS"
  | .TOLERANCE => "TOLERANCE" | .CALENDAR => "CALENDAR" | .SAMPLER => "SAMPLER" | .LINK => "LINK"
def verdictText : VerdictKind → String
  | .CLEAR => "CLEAR" | .TIGHT => "TIGHT" | .LIMIT => "LIMIT"
def testText : HoursTest → String
  | .DAY => "DAY" | .WEEK => "WEEK" | .SPAN => "SPAN" | .CONT => "CONT"
def lineStateText : LineState → String
  | .OPEN => "OPEN" | .LOADING => "LOADING" | .FINISHING => "FINISHING" | .VERIFIED => "VERIFIED" | .OVER => "OVER"
  | .UNDER => "UNDER" | .PROBE_FAULT => "PROBE_FAULT" | .NO_TEMP => "NO_TEMP"
def bayStateText : BayState → String
  | .CLOSED => "CLOSED" | .IDLE => "IDLE" | .ASSIGNED => "ASSIGNED" | .LOADING => "LOADING" | .PAUSED => "PAUSED"
  | .FINISHING => "FINISHING" | .HELD => "HELD" | .DISPATCHING => "DISPATCHING" | .DISPATCHED => "DISPATCHED"
def segStateText : SegState → String
  | .ERASED => "ERASED" | .ACTIVE => "ACTIVE" | .CLOSED => "CLOSED" | .RECLAIMING => "RECLAIMING"
  | .DAMAGED => "DAMAGED"
def closeText : CloseReason → String
  | .DAY => "DAY" | .FILLED => "FILLED"
def sourceText : LogSource → String
  | .B b => unitText (.B b) | .DT => "DT" | .CK => "CK" | .ST => "ST" | .DV => "DV"
/-- A driver's status without its bay (R55, R78). -/
def statusText : DriverStatus → String
  | .ABSENT => "ABSENT" | .ON_SITE => "ON_SITE" | .AT_BAY _ => "AT_BAY" | .ON_TRIP => "ON_TRIP"
def docStateText : DocState → String
  | .DRAFT => "DRAFT" | .BOUND _ => "BOUND" | .RELEASED => "RELEASED"
def amendText : AmendKind → String
  | .QTY => "QTY" | .PROD => "PROD" | .REMOVE _ => "REMOVE"

/-- The marks set, in the order N, Z, V, C, or NONE (R163, R208); several letters stand together, without a separator (log
46). -/
def marksText (m : Marks) : String :=
  let s := (if m.n then "N" else "") ++ (if m.z then "Z" else "") ++ (if m.v then "V" else "") ++ (if m.c then "C" else "")
  if s = "" then "NONE" else s

/-- The hold reasons in the order of R110. -/
def holdNames (h : Holds) : List String :=
  (if h.hours then ["HOURS"] else []) ++ (if h.quantity then ["QUANTITY"] else []) ++
    (if h.temperature then ["TEMPERATURE"] else []) ++ (if h.stray then ["STRAY"] else []) ++
    (if h.restart then ["RESTART"] else [])

def planText (p : Plan) : String := commas [dec p.drive, dec p.total, dec p.breaks]
/-- Least slack and its named test (R78). -/
def leastText (least : Int) (test : HoursTest) : String := decInt least ++ "," ++ testText test

/-! ## Lines of the part (R204, R207) -/

/-- A field with a value. -/
def fld (name value : String) : Fld := ⟨name, some value⟩
/-- A bare word. -/
def bare (name : String) : Fld := ⟨name, none⟩
/-- A field left out when its part is absent (R206). -/
def fldIf {α : Type} (o : Option α) (name : String) (f : α → String) : List Fld :=
  match o with
  | some a => [fld name (f a)]
  | none => []

def fldText (f : Fld) : String :=
  match f.value with
  | some v => f.name ++ "=" ++ v
  | none => f.name

/-- A line with its check and CR LF (R204). -/
def closeLine (covered : String) : String :=
  covered ++ "*" ++ hex2 (crc8 covered.toList) ++ "\r\n"

def noticeBody (n : Notice) : List String := unitText n.unit :: kindText n.kind :: n.fields.map fldText

def replyText (r : Reply) : String :=
  let status := match r.answer.code with
    | none => ["OK"]
    | some c => ["ER", codeText c]
  closeLine (joinWith " " (hex2 r.tag :: r.token :: status ++ r.answer.fields.map fldText) ++ " ")

def noticeText (n : Notice) : String := closeLine (joinWith " " ("**" :: noticeBody n) ++ " ")

/-- The characters on TXD for a line (R7, R204). -/
def TxLine.text : TxLine → String
  | .reply r => replyText r
  | .notice n => noticeText n

def ok (fs : List Fld) : Answer := ⟨none, fs⟩
def er (c : ReplyCode) (fs : List Fld := []) : Answer := ⟨some c, fs⟩

/-! ## Log records in readout (R208, R209) -/

def bodyKind : Body → String
  | .DISPATCH _ => "DISPATCH" | .TRIP_CLOSE _ => "TRIP_CLOSE" | .CANCEL _ => "CANCEL" | .DAY_CLOSE _ => "DAY_CLOSE"
  | .POWER .. => "POWER" | .CLOCK_SET .. => "CLOCK_SET" | .SETTINGS _ => "SETTINGS" | .RESTART _ => "RESTART"

def logTime (t : Option Nat) : String := t.elim "NONE" fourteen

/-- The kind's own fields (R208). -/
def bodyFields : Body → List Fld
  | .DISPATCH d =>
    [fld "BAY" (bayText d.bay), fld "DOC" d.doc, fld "TANKER" d.tanker] ++ fldIf d.carrier "CARRIER" id ++
      [fld "DRV" (drvText d.drv), fld "VERDICT" (verdictText d.verdict), fld "LEAST" (leastText d.least d.test),
       fld "AMEND" (dec d.amend)]
  | .TRIP_CLOSE t =>
    [fld "DRV" (drvText t.drv), fld "DOC" t.doc, fld "DEPART" (twelve t.depart), fld "END" (twelve t.stop)]
  | .CANCEL c =>
    [fld "BAY" (bayText c.bay), fld "DOC" c.doc, fld "DRV" (drvText c.drv),
     fld "REASON" (match c.reason with | .OPERATOR => "OPERATOR" | .RESET => "RESET")]
  | .DAY_CLOSE n => [fld "DISPATCH" (dec n.dispatch), fld "CANCEL" (dec n.cancel), fld "TRIPS" (dec n.trip)]
  | .POWER loss restore => [fld "LOSS" (logTime loss), fld "RESTORE" (logTime restore)]
  | .CLOCK_SET old new => [fld "OLD" (logTime old), fld "NEW" (fourteen new)]
  | .SETTINGS changed => [fld "CHANGED" (commasOrNone (changed.map sectionText))]
  | .RESTART k => [fld "START" (startText k)]

/-- The four figures of a line; `-` where the line has none, reconciled to PROBE_FAULT or NO_TEMP included (R208, log 18). -/
def figTexts : Option Figures → List String
  | some f => [decInt f.tm, dec f.vcf, dec f.vs, decInt f.dev]
  | none => ["-", "-", "-", "-"]

def dispatchItemText (i : DispatchItem) : String :=
  joinWith "/" ([dec i.comp, i.product, unText i.un, classText i.cls, packText i.pg, dec i.qty, dec i.vo] ++
    figTexts i.figs ++ [marksText i.marks, yn i.manual])

def cancelItemText (i : CancelItem) : String :=
  joinWith "/" ([dec i.comp, i.product, dec i.qty, dec i.pulses, dec i.vo, lineStateText i.state, marksText i.marks] ++
    figTexts i.figs)

/-- The items of a record, in record order (R208). -/
def bodyItems : Body → List String
  | .DISPATCH d => d.items.map dispatchItemText
  | .TRIP_CLOSE t => t.items.map fun i => dutyText i.kind ++ ":" ++ dec i.minutes
  | .CANCEL c => c.items.map cancelItemText
  | _ => []

/-- The number of items, each in one slot (R171). -/
def bodyCount : Body → Nat
  | .DISPATCH d => d.items.length
  | .TRIP_CLOSE t => t.items.length
  | .CANCEL c => c.items.length
  | _ => 0

def stampFields : Option Stamp → List Fld
  | some s => [fld "STD" (fourteen s.std), fld "LOCAL" (fourteen s.loc), fld "DST" (yn s.dst)]
  | none => []

/-- The characters the record check covers (R209). -/
def recordText (seq : Nat) (r : LogRec) : String :=
  let header := [fld "SEQ" (dec seq), fld "KIND" (bodyKind r.body)] ++ stampFields r.stamp ++ bodyFields r.body ++
    [fld "N" (dec (bodyCount r.body))]
  let items := bodyItems r.body
  joinWith " " (header.map fldText) ++ (if items = [] then "" else " I=" ++ commas items)

/-- The record check RC (R209). -/
def recordCheck (seq : Nat) (r : LogRec) : Word16 := crc16 (recordText seq r).toList

/-- A record is complete when its check is present and matches its contents (R171). -/
def StoredRec.complete (r : StoredRec) : Bool := r.check == some (recordCheck r.seq r.record)

/-- The slots a record occupies (R169). -/
def LogRec.slots (r : LogRec) : Nat := 1 + bodyCount r.body

end Sys2Proof.Machine
end

