-- ==== Sys2Proof/Machine/Flags.lean ====
section
/-! DEFINITION. Machine/Flags.lean: the flags that are computed from other state: hold reasons matched to the lines
(R110), the bay state that follows the hold reasons, the RELEASE output (R112), the global fault summary (R13), the ATTN
output (R11), and the log's fault component. -/

namespace Sys2Proof.Machine

/-! ## Bays -/

def Holds.any (h : Holds) : Bool := h.hours || h.quantity || h.temperature || h.stray || h.restart

def LineState.isQuantity : LineState → Bool
  | .OVER | .UNDER => true
  | _ => false

def LineState.isTemperature : LineState → Bool
  | .PROBE_FAULT | .NO_TEMP => true
  | _ => false

/-- QUANTITY and TEMPERATURE set or cleared to match the lines (R110, R164). -/
def BayUnit.matchHolds (u : BayUnit) : BayUnit :=
  { u with holds := { u.holds with quantity := u.lines.any (·.state.isQuantity),
                                   temperature := u.lines.any (·.state.isTemperature) } }

/-- ASSIGNED with a hold reason goes to HELD, and HELD without one to ASSIGNED (R110). -/
def BayUnit.adjust (u : BayUnit) : BayUnit :=
  match u.state with
  | .ASSIGNED => if u.holds.any then { u with state := .HELD } else u
  | .HELD => if u.holds.any then u else { u with state := .ASSIGNED }
  | _ => u

/-- The conditions under which RELEASE may be active (R112). -/
def BayUnit.mayRelease (u : BayUnit) : Bool :=
  u.state == .LOADING && u.bond && !u.halt && u.verdict.any fun v => v.verdict == .CLEAR || v.verdict == .TIGHT

/-- Drives RELEASE by its conditions (R112). -/
def BayUnit.drive (u : BayUnit) : BayUnit := { u with release := u.mayRelease }

/-- A line is loaded when its pulse count is more than 0 (R109). -/
def LineRec.loaded (l : LineRec) : Bool := decide (0 < l.pulses)
def BayUnit.anyLoaded (u : BayUnit) : Bool := u.lines.any (·.loaded)
def BayUnit.loadedCount (u : BayUnit) : Nat := (u.lines.filter (·.loaded)).length

def BayUnit.lineOf (u : BayUnit) (c : Nat) : Option LineRec := u.lines.find? fun l => l.comp == c

/-- Replaces the line record of a compartment. -/
def BayUnit.modLine (c : Nat) (f : LineRec → LineRec) (u : BayUnit) : BayUnit :=
  { u with lines := u.lines.map fun l => if l.comp == c then f l else l }

/-- A new line record (R109, R116). -/
def openLine (c : Nat) : LineRec := ⟨c, .OPEN, 0, 0, 0, 0, 0, 0, 0, none, none, Marks.none, false⟩

/-- A bay is away from IDLE and CLOSED (R21, R199). -/
def BayUnit.busy (u : BayUnit) : Bool := u.state != .IDLE && u.state != .CLOSED

/-- The bay enters IDLE or CLOSED: nothing is bound, no line, no hold reason (R132, R138). -/
def BayUnit.empty (u : BayUnit) (st : BayState) : BayUnit :=
  { u with state := st, holds := Holds.none, doc := none, driver := none, plan := none, verdict := none, lines := [],
           ctx := none }

/-! ## Fields that many lines carry -/

def lineStates (u : BayUnit) : String := commas (u.lines.map fun l => dec l.comp ++ ":" ++ lineStateText l.state)
def verdictFields (u : BayUnit) : List Fld :=
  fldIf u.verdict "VERDICT" fun v => verdictText v.verdict ++ "," ++ leastText v.least v.test

/-- R113, R207. -/
def stateFields (u : BayUnit) (reason : String) : List Fld :=
  [fld "STATE" (bayStateText u.state), fld "REASON" reason] ++ fldIf u.doc "DOC" id ++ fldIf u.driver "DRV" drvText ++
    fldIf u.ctx "C" (fun c => dec c.comp) ++ [fld "LOGFULL" (dec u.logfull)]
/-- The line states; left out while the bay has no line records, which stand only with a document (R108, R206). -/
def lineFields (u : BayUnit) : List Fld := if u.lines = [] then [] else [fld "L" (lineStates u)]
def linesFields (u : BayUnit) : List Fld := fldIf u.doc "DOC" id ++ lineFields u
def holdFields (u : BayUnit) : List Fld := fld "HOLD" (commasOrNone (holdNames u.holds)) :: verdictFields u
def strayFields (u : BayUnit) : List Fld := [fld "COUNT" (dec u.stray), fld "STATE" (bayStateText u.state)]

/-! ## The global fault summary (R13) -/

/-- The summary is set while any component is set. -/
def Dv.faultSet (d : Dv) : Bool := d.marks != [] || d.sampler || d.log || d.settings

def setClear (b : Bool) : String := if b then "SET" else "CLEAR"

/-- The MARKS list of R13 and R14, or NONE; its order is log 47. -/
def Dv.markText (d : Dv) : String := commasOrNone (d.marks.map unitText)

/-- The FAULT notice (R13, R207); MARKS is NONE where no mark is set (log 45). -/
def faultFields (d : Dv) : List Fld :=
  [fld "FAULT" (setClear d.faultSet), fld "MARKS" d.markText, fld "SAMPLER" (setClear d.sampler),
   fld "LOG" (setClear d.log), fld "SETTINGS" (setClear d.settings)]

/-- A component differs (R13: "every later change of any component"). -/
def Dv.sameComponents (d e : Dv) : Bool :=
  d.marks == e.marks && d.sampler == e.sampler && d.log == e.log && d.settings == e.settings

def Dv.pending (d : Dv) (u : UnitName) (k : NKind) : Bool := d.notices.any fun n => n.unit == u && n.kind == k

/-- The set marks (R12) with one more set, in the order in which R5 names the units. That the lists of R13 and R14 stand in
that order is the model's choice (log 47). -/
def setMark (u : UnitName) (marks : List UnitName) : List UnitName :=
  allUnits.filter fun v => v == u || marks.contains v

/-! ## ATTN (R11) -/

/-- The ATTN output: by the queue in LEVEL mode, the running pulse in PULSE mode; inactive without the supply. -/
def State.attn (s : State) : Bool :=
  s.supply && match s.st.applied.attn with
    | .LEVEL => s.dv.notices != []
    | .PULSE => s.dv.attnPulse

/-! ## The log's counts of segments (R190) -/

def Dl.count (d : Dl) (p : Segment → Bool) : Nat := (d.segs.toList.filter p).length
def Dl.erased (d : Dl) : Nat := d.count fun g => g.state == .ERASED
def Dl.damaged (d : Dl) : Nat := d.count fun g => g.state == .DAMAGED

end Sys2Proof.Machine
end

