-- ==== Sys2Proof/Machine/Hours.lean ====
section
/-! DEFINITION. Machine/Hours.lean: duty lists (R38, R40, R41, R43, R53) and the hours allowance (R65 to R75), as
functions of a list, now in minutes, the week start in minutes and the hours parameters. -/

namespace Sys2Proof.Machine

/-- The end of the minutes an entry covers, the open entry to now (R38). -/
def Entry.till (now : Nat) (e : Entry) : Nat := e.stop.getD now

/-- An off-duty run (R67). -/
structure Run where
  start : Nat
  stop : Nat
deriving DecidableEq, Repr

def Run.length (r : Run) : Nat := r.stop - r.start

/-- The runs of the parts from `prev` on; `run` is the start of the run that reaches `prev`, if any (R66, R67). -/
def runsFrom (now prev : Nat) (run : Option Nat) : List Entry → List Run
  | [] =>
    let run' := if prev < now then some (run.getD prev) else run
    match run' with
    | some s => [⟨s, max prev now⟩]
    | none => []
  | e :: es =>
    let run' := if prev < e.start then some (run.getD prev) else run
    match e.kind with
    | .REST => runsFrom now (e.till now) (some (run'.getD e.start)) es
    | _ =>
      match run' with
      | some s => ⟨s, e.start⟩ :: runsFrom now (e.till now) none es
      | none => runsFrom now (e.till now) none es

/-- The off-duty runs of a list at now (R67). -/
def offRuns (now : Nat) : List Entry → List Run
  | [] => []
  | e :: es => runsFrom now e.start none (e :: es)

/-- The latest run of at least n minutes. -/
def latestRun (n now : Nat) (l : List Entry) : Option Run :=
  ((offRuns now l).filter fun r => decide (n ≤ r.length)).getLast?

/-- R68. -/
def dutyDayStart (p : HoursParams) (now : Nat) (l : List Entry) : Nat :=
  match latestRun p.rDaily now l with
  | some r => r.stop
  | none => (l.head?.map (·.start)).getD now

/-- R69. -/
def contDriveStart (p : HoursParams) (now : Nat) (l : List Entry) : Nat :=
  match latestRun p.bMin now l with
  | some r => r.stop
  | none => dutyDayStart p now l

/-- The horizon of R41. -/
def horizon (p : HoursParams) (week now : Nat) (l : List Entry) : Nat :=
  match latestRun p.rDaily now l with
  | some r => min week r.start
  | none => week

/-- R41: closed entries that end before the horizon are removed. -/
def prune (p : HoursParams) (week now : Nat) (l : List Entry) : List Entry :=
  let h := horizon p week now l
  l.filter fun e => e.stop.all fun t => decide (h ≤ t)

/-- Driving minutes from a bound up to now (R70). -/
def driveSince (bound now : Nat) (l : List Entry) : Nat :=
  (l.map fun e => if e.kind = .DRIVE then e.till now - max e.start bound else 0).sum

/-- The figures of R70 and allowances of R71. -/
structure HoursFigures where
  dayStart : Nat
  contStart : Nat
  dayDrive : Nat
  weekDrive : Nat
  contDrive : Nat
  span : Nat
  aDay : Nat
  aWeek : Nat
  aSpan : Nat
  aCont : Nat
deriving DecidableEq, Repr

/-- R65 to R71 over the pruned view of a stored list (R42). -/
def hoursFigures (p : HoursParams) (week now : Nat) (stored : List Entry) : HoursFigures :=
  let l := prune p week now stored
  let ds := dutyDayStart p now l
  let cs := contDriveStart p now l
  let dd := driveSince ds now l
  let wd := driveSince week now l
  let cd := driveSince cs now l
  { dayStart := ds, contStart := cs, dayDrive := dd, weekDrive := wd, contDrive := cd, span := now - ds,
    aDay := p.dDay - dd, aWeek := p.dWeek - wd, aSpan := p.sSpan - (now - ds), aCont := p.dCont - cd }

/-- R72 to R75. -/
def verdictOf (p : HoursParams) (f : HoursFigures) (plan : Plan) (now : Nat) : VerdictRec :=
  let cap := f.aCont + plan.breaks * p.dCont
  let day : Int := f.aDay - plan.drive
  let week : Int := f.aWeek - plan.drive
  let span : Int := f.aSpan - plan.total
  let cont : Int := cap - plan.drive
  let least := min (min day week) (min span cont)
  let test : HoursTest := if day = least then .DAY else if week = least then .WEEK else if span = least then .SPAN else .CONT
  let marks := (if day < 0 then [HoursTest.DAY] else []) ++ (if week < 0 then [HoursTest.WEEK] else []) ++
    (if span < 0 then [HoursTest.SPAN] else []) ++ (if cont < 0 then [HoursTest.CONT] else [])
  let verdict : VerdictKind := if least < 0 then .LIMIT else if least < (p.margin : Int) then .TIGHT else .CLEAR
  { verdict := verdict, least := least, test := test, marks := marks, slackDay := day, slackWeek := week,
    slackSpan := span, slackCont := cont, capacity := cap, plan := plan, now := now }

/-- The verdict for a stored list and a plan at now. -/
def computeVerdict (p : HoursParams) (week now : Nat) (stored : List Entry) (plan : Plan) : VerdictRec :=
  verdictOf p (hoursFigures p week now stored) plan now

/-- The plan's ranges (R72). -/
def planInRange (p : Plan) : Bool :=
  decide (1 ≤ p.drive) && decide (p.drive ≤ 720) && decide (p.drive ≤ p.total) && decide (p.total ≤ 1440) &&
    decide (p.breaks ≤ 4)

/-- Two entries overlap when each starts before the other ends (R38). -/
def overlaps (now : Nat) (a b : Entry) : Bool :=
  decide (a.start < b.till now) && decide (b.start < a.till now)

/-- Closes the open entry at now; an entry of length 0 is removed (R40). -/
def closeOpen (now : Nat) (l : List Entry) : List Entry :=
  l.filterMap fun e =>
    match e.stop with
    | some _ => some e
    | none => if e.start = now then none else some { e with stop := some now }

/-- Opens an entry at the tail (R40). -/
def openEntry (now : Nat) (k : DutyKind) (l : List Entry) : List Entry := l ++ [⟨now, none, k, .TERMINAL⟩]

/-- Puts a closed entry at its place in start order (R49). -/
def insertEntry (e : Entry) : List Entry → List Entry
  | [] => [e]
  | x :: xs => if e.start < x.start then e :: x :: xs else x :: insertEntry e xs

/-- The layout of R53 from `pos` toward END. -/
def layTrip (stop : Nat) : Nat → List TripItem → List Entry
  | pos, [] => if pos < stop then [⟨pos, some stop, .WORK, .TRIP⟩] else []
  | pos, i :: is =>
    if pos < stop then
      let e := min (pos + i.minutes) stop
      ⟨pos, some e, i.kind, .TRIP⟩ :: layTrip stop e is
    else []

/-- The list with the open DRIVE entry replaced by the trip's entries (R54). -/
def closeTrip (stop : Nat) (items : List TripItem) (l : List Entry) : List Entry :=
  l.flatMap fun e => if e.stop.isNone then layTrip stop e.start items else [e]

end Sys2Proof.Machine
end

