-- ==== Sys2Proof/Machine/Reconcile.lean ====
section
/-! DEFINITION. Machine/Reconcile.lean: quantity reconciliation, stages 1 to 6 (R153 to R166), as functions of a line
record, the meter factor, the product, the declared quantity and the tolerances. -/

namespace Sys2Proof.Machine

/-- Stage 1: observed volume in tenths of a litre (R155). -/
def observedVolume (pulses factor : Nat) : Nat := roundHalfUp (pulses * factor) 1000

def stage1 (factor : Nat) (l : LineRec) : LineRec :=
  { l with vo := observedVolume l.pulses factor,
           marks := { l.marks with c := decide (l.pulses = Config.maxPulses) } }

/-- What stage 2 decides: a mean temperature, or the line state that ends the reconciliation. -/
inductive MeanTemp where
  | mean (t : Int)
  | stop (st : LineState)
deriving DecidableEq, Repr

/-- Stage 2, with a final sample (R156) or without (R157). -/
def meanTemp (withFinal : Bool) (l : LineRec) : MeanTemp :=
  if 0 < l.faulted then .stop .PROBE_FAULT
  else if 0 < l.weightSum then .mean (roundHalfAway l.sampleSum l.weightSum)
  else if withFinal then
    match l.finalTemp with
    | some t => .mean t
    | none => .stop .NO_TEMP
  else .stop .NO_TEMP

/-- Stages 3 and 4: the raw correction factor (R159, R160). -/
def rawFactor (p : Product) (tm : Int) : Int :=
  let dt := tm - 150
  let a := if 0 ≤ dt then p.aHot else p.aCold
  let b := if 0 ≤ dt then p.bHot else p.bCold
  1000000 - roundHalfAway (a * dt) 100 - roundHalfUp (b * (dt * dt).natAbs) 2048

/-- The VCF: the raw factor clamped (R160). -/
def vcfOf (p : Product) (tm : Int) : Nat :=
  clamp Config.minVcf Config.maxVcf (rawFactor p tm).toNat

/-- Mark V: the factor was clamped (R160). -/
def vcfClamped (p : Product) (tm : Int) : Bool :=
  decide (rawFactor p tm < Config.minVcf) || decide ((Config.maxVcf : Int) < rawFactor p tm)

/-- Stage 5 (R161). -/
def standardVolume (vo vcf : Nat) : Nat := roundHalfUp (vo * vcf) 1000000

/-- Stage 6: deviation and tolerance in tenths (R162). -/
def deviation (vs qty : Nat) : Int := (vs : Int) - 10 * qty
def toleranceOf (t : Tolerance) (qty : Nat) : Nat := max (10 * t.abs) (roundHalfUp (10 * qty * t.permille) 1000)

def outcomeOf (dev : Int) (tol : Nat) : LineState :=
  if (tol : Int) < dev then .OVER else if dev < -(tol : Int) then .UNDER else .VERIFIED

/-- Stage 6 on a line with its other figures in place: deviation, line state, marks N and Z (R162). -/
def stage6 (t : Tolerance) (qty : Nat) (f : Figures) (l : LineRec) : LineRec :=
  let d := deviation f.vs qty
  { l with state := outcomeOf d (toleranceOf t qty), figs := some { f with dev := d },
           marks := { l.marks with n := decide (d < 0), z := decide (d = 0) } }

/-- Stages 3 to 6 with a given Tm (R165). -/
def stages3to6 (p : Product) (t : Tolerance) (qty : Nat) (tm : Int) (l : LineRec) : LineRec :=
  let vcf := vcfOf p tm
  stage6 t qty ⟨tm, vcf, standardVolume l.vo vcf, 0⟩ { l with marks := { l.marks with v := vcfClamped p tm } }

/-- A line whose stage 2 gave no temperature (R158). -/
def stopLine (st : LineState) (l : LineRec) : LineRec :=
  { l with state := st, figs := none, marks := ⟨false, false, false, l.marks.c⟩, manual := false }

/-- A full reconciliation: stages 1 to 6 (R153). -/
def reconcile (withFinal : Bool) (factor : Nat) (p : Product) (t : Tolerance) (qty : Nat) (l : LineRec) : LineRec :=
  let l1 := stage1 factor l
  match meanTemp withFinal l1 with
  | .mean tm => stages3to6 p t qty tm l1
  | .stop st => stopLine st l1

/-- Re-reconciliation on a quantity change: stage 6 from the stored Vs (R166). -/
def reReconcile (t : Tolerance) (qty : Nat) (l : LineRec) : LineRec :=
  match l.figs with
  | some f => stage6 t qty f l
  | none => l

/-- Litres from tenths (R163). -/
def litres (tenths : Nat) : Nat := roundHalfUp tenths 10

end Sys2Proof.Machine
end

