-- ==== Sys2Proof/Machine/Ops.lean ====
section
/-! DEFINITION. Machine/Ops.lean: the operations every unit shares: updates of one unit, raising notices (R8), the
transmitter's choice (R7), the fault components (R13), time (R19), posting to the append queue (R174), and changes of a
bay with their notices (R113). -/

namespace Sys2Proof.Machine

/-! ## Updates of one unit -/

def State.modDv (s : State) (f : Dv → Dv) : State := { s with dv := f s.dv }
def State.modCk (s : State) (f : Ck → Ck) : State := { s with ck := f s.ck }
def State.modDt (s : State) (f : Dt → Dt) : State := { s with dt := f s.dt }
def State.modCp (s : State) (f : Cp → Cp) : State := { s with cp := f s.cp }
def State.modTs (s : State) (f : Ts → Ts) : State := { s with ts := f s.ts }
def State.modDl (s : State) (f : Dl → Dl) : State := { s with dl := f s.dl }
def State.modSt (s : State) (f : St → St) : State := { s with st := f s.st }
def State.bay (s : State) (b : Bay) : BayUnit := s.bays[b]
def State.setBay (s : State) (b : Bay) (u : BayUnit) : State := { s with bays := s.bays.set b u }
def State.modBay (s : State) (b : Bay) (f : BayUnit → BayUnit) : State := s.setBay b (f (s.bay b))

/-! ## Notices (R8) -/

/-- The pair of unit and kind of a notice (R8). -/
def Notice.pair (n : Notice) : UnitName × NKind := (n.unit, n.kind)

/-- Placement at the tail, or replacement in place (R8). -/
def putNotice (n : Notice) : List Notice → List Notice
  | [] => [n]
  | m :: ms => if m.unit = n.unit ∧ m.kind = n.kind then n :: ms else m :: putNotice n ms

/-- A unit raises a notice; in PULSE mode ATTN is driven (R8, R11). -/
def raise (u : UnitName) (k : NKind) (fs : List Fld) (s : State) : State :=
  s.modDv fun d => { d with notices := putNotice ⟨u, k, fs⟩ d.notices,
                            attnPulse := d.attnPulse || s.st.applied.attn == .PULSE }

def raiseIf (c : Bool) (u : UnitName) (k : NKind) (fs : List Fld) (s : State) : State :=
  if c then raise u k fs s else s

/-- Raises a notice only while one of the pair is pending (R13, R179). -/
def raiseIfPending (u : UnitName) (k : NKind) (fs : List Fld) (s : State) : State := raiseIf (s.dv.pending u k) u k fs s

/-! ## The transmitter (R7) -/

/-- When the transmitter is free it starts the oldest reply, else in PUSH mode the oldest notice (R7, R15). -/
def pump (s : State) : State :=
  match s.dv.wire with
  | some _ => s
  | none =>
    match s.dv.replies with
    | r :: rs => s.modDv fun d => { d with wire := some (.reply r), replies := rs }
    | [] =>
      if s.dv.mode = .PUSH ∧ s.dv.resetWait = false then
        match s.dv.notices with
        | n :: ns => s.modDv fun d => { d with wire := some (.notice n), notices := ns }
        | [] => s
      else s

/-! ## The global fault summary (R13) -/

/-- An owner reports its component: FAULT is raised when the summary goes from clear to set, and at every change
while a FAULT notice is pending (R13). -/
def setComponents (g : Dv → Dv) (s : State) : State :=
  let t := s.modDv g
  let news := !s.dv.sameComponents t.dv
  raiseIf (news && (s.dv.pending .DV .FAULT || (!s.dv.faultSet && t.dv.faultSet))) .DV .FAULT (faultFields t.dv) t

/-! ## Time (R19) -/

def State.nowMin (s : State) : Nat := s.ck.count / 60
/-- Local time of a second at the present DST state (R19). -/
def Ck.localAt (c : Ck) (t : Nat) : Nat := t + dstOffset c.dst
/-- The time fields of a record made now (R19). -/
def State.stamp (s : State) : Option Stamp :=
  if s.ck.isSet then some ⟨s.ck.count, s.ck.localAt s.ck.count, s.ck.dst⟩ else none
/-- A record made now. -/
def State.makeRec (s : State) (b : Body) : LogRec := ⟨s.stamp, b⟩
/-- R31, in standard seconds. -/
def State.weekStart (s : State) : Nat := Machine.weekStart s.ck.fwd s.ck.rev s.ck.dst s.st.applied.weekStart s.ck.count
def State.weekMin (s : State) : Nat := s.weekStart / 60
/-- Pruning of a changed list at the present now (R41). -/
def State.pruned (s : State) (l : List Entry) : List Entry := prune s.st.applied.hours s.weekMin s.nowMin l
/-- A verdict at the present now (R65). -/
def State.verdict (s : State) (l : List Entry) (p : Plan) : VerdictRec :=
  computeVerdict s.st.applied.hours s.weekMin s.nowMin l p

/-! ## Settings -/

/-- The product a rule reads for a code; a code that is not in the table gives a free value (log 12). -/
def Settings.product (c : Settings) (code : String) : Product :=
  (c.products.find? fun p => p.code == code).getD (Config.missingProduct code)
def Settings.hasProduct (c : Settings) (code : String) : Bool := c.products.any fun p => p.code == code
def State.entry (s : State) (b : Bay) : BayEntry := s.st.applied.bays[b]

/-! ## The append queue (R174) -/

/-- The records a source holds for the log. -/
def State.outbox (s : State) : LogSource → List LogRec
  | .B b => (s.bay b).outbox
  | .DT => s.dt.outbox
  | .CK => s.ck.outbox
  | .ST => s.st.outbox.toList
  | .DV => []

/-- The source has an append pending at the log: waiting, or being written. -/
def Dl.hasAppend (d : Dl) (src : LogSource) : Bool :=
  d.queue.any (fun a => a.source == src) || d.writing.any fun w => w.source == src

/-- A post is placed at the tail (R174). -/
def postRecord (src : LogSource) (r : LogRec) (s : State) : State := s.modDl fun d => { d with queue := d.queue ++ [⟨src, r⟩] }

/-- A source with no append pending posts its oldest outbox record (R23, R50, R129, R201). -/
def postFrom (src : LogSource) (s : State) : State :=
  if s.dl.hasAppend src then s
  else match s.outbox src with
    | r :: _ => postRecord src r s
    | [] => s

/-! ## A bay and its notices (R113) -/

/-- Whether STATE is raised before LINES and HOLD, as the rule lists them, or after (log 10). -/
inductive NoticeOrder where
  | stateFirst | stateLast
deriving DecidableEq, Repr

/-- A change of a bay: RELEASE follows its conditions (R112), then STATE when the bay state changed, LINES when a line
changed, HOLD when the hold reasons changed (R113). -/
def changeBay (b : Bay) (reason : String) (lines : Bool) (order : NoticeOrder) (f : BayUnit → BayUnit) (s : State) : State :=
  let old := s.bay b
  let new := (f old).drive
  let t := s.setBay b new
  let tellState := raiseIf (old.state != new.state) (.B b) .STATE (stateFields new reason)
  let tellLines := raiseIf lines (.B b) .LINES (linesFields new)
  let tellHold := raiseIf (old.holds != new.holds) (.B b) .HOLD (holdFields new)
  match order with
  | .stateFirst => tellHold (tellLines (tellState t))
  | .stateLast => tellState (tellHold (tellLines t))

/-- Raises STATE without a change of state (R113: LOG_FULL, LATE_DISPATCH). -/
def tellState (b : Bay) (reason : String) (s : State) : State := raise (.B b) .STATE (stateFields (s.bay b) reason) s

/-- Raises HOLD whether or not the hold reasons changed (R127). -/
def tellHold (b : Bay) (s : State) : State := raise (.B b) .HOLD (holdFields (s.bay b)) s

/-! ## Every bay in turn -/

def forBays (f : Bay → State → State) (s : State) : State := allBays.foldl (fun t b => f b t) s

/-- Some bay is in a state other than IDLE or CLOSED (R21, R25). -/
def State.anyBayBusy (s : State) : Bool := allBays.any fun b => (s.bay b).busy

end Sys2Proof.Machine
end

