-- ==== Sys2Proof/Machine/DutyOps.lean ====
section
/-! DEFINITION. Machine/DutyOps.lean: driver records and what the bays ask of DT (R37, R57 to R62). -/

namespace Sys2Proof.Machine

def State.driverOf (s : State) (n : Nat) : Option Driver := s.dt.drivers.find? fun x => x.num == n

def modDriver (n : Nat) (f : Driver → Driver) (s : State) : State :=
  s.modDt fun d => { d with drivers := d.drivers.map fun x => if x.num == n then f x else x }

/-- A new record at its place in number order (log 29). -/
def insertDriver (x : Driver) : List Driver → List Driver
  | [] => [x]
  | y :: ys => if x.num < y.num then x :: y :: ys else y :: insertDriver x ys

/-- Why DT refuses a bind (R57). -/
def dtBindRefusal (s : State) (v : Nat) : Option ReplyCode :=
  match s.driverOf v with
  | none => some .DRIVER_UNKNOWN
  | some x =>
    match x.status with
    | .ABSENT => some .DRIVER_ABSENT
    | .AT_BAY _ => some .DRIVER_BUSY
    | .ON_TRIP => some .DRIVER_BUSY
    | .ON_SITE => none

/-- The stored list of a driver. -/
def State.dutyList (s : State) (v : Nat) : List Entry := ((s.driverOf v).map (·.list)).getD []

/-- The verdict a bay receives for a driver and a plan (R57, R59, R60). -/
def State.driverVerdict (s : State) (v : Nat) (p : Plan) : VerdictRec := s.verdict (s.dutyList v) p

/-- A bind that is not refused (R57). -/
def dtBind (v : Nat) (b : Bay) (p : Plan) (s : State) : State :=
  modDriver v (fun x => { x with status := .AT_BAY b, last := some (s.driverVerdict v p) }) s

/-- An unbind; NOT_BOUND changes nothing (R58). -/
def dtUnbind (v : Nat) (b : Bay) : State → State :=
  modDriver v fun x => if x.status = .AT_BAY b then { x with status := .ON_SITE, pend := false } else x

/-- A swap whose new driver can be bound (R59). -/
def dtSwap (old v : Nat) (b : Bay) (p : Plan) (s : State) : State :=
  dtBind v b p (modDriver old (fun x => if x.status = .AT_BAY b then { x with status := .ON_SITE } else x) s)

/-- DT's answer to a dispatch check (R60). -/
inductive DispatchAnswer where
  | notBound
  | limit (v : VerdictRec)
  | listFull (v : VerdictRec)
  | go (v : VerdictRec)
deriving DecidableEq, Repr

/-- The list as a dispatch completion at now would leave it (R60, R61). -/
def State.departList (s : State) (l : List Entry) : List Entry :=
  s.pruned (openEntry s.nowMin .DRIVE (closeOpen s.nowMin l))

def dispatchAnswer (s : State) (v : Nat) (b : Bay) (p : Plan) : DispatchAnswer :=
  match s.driverOf v with
  | none => .notBound
  | some x =>
    if x.status ≠ .AT_BAY b then .notBound
    else
      let r := s.verdict x.list p
      if r.verdict = .LIMIT then .limit r
      else if Config.maxEntries < (s.departList x.list).length then .listFull r
      else .go r

/-- What the dispatch check leaves in the driver's record (R60). -/
def dispatchCheck (v : Nat) (b : Bay) (p : Plan) (s : State) : State :=
  match dispatchAnswer s v b p with
  | .notBound => s
  | .limit r => modDriver v (fun x => { x with last := some r }) s
  | .listFull r => modDriver v (fun x => { x with last := some r }) s
  | .go r => modDriver v (fun x => { x with last := some r, pend := true }) s

/-- Dispatch completion; any other case is NOT_BOUND and changes nothing (R61). -/
def dtComplete (v : Nat) (b : Bay) (doc : String) (s : State) : State :=
  modDriver v (fun x =>
    if x.status = .AT_BAY b ∧ x.pend = true then
      { x with list := s.departList x.list, trip := some doc, status := .ON_TRIP, pend := false }
    else x) s

/-- Abandonment (R62). -/
def dtAbandon (v : Nat) (b : Bay) : State → State :=
  modDriver v fun x => if x.status = .AT_BAY b then { x with pend := false } else x

/-- The TRIP notice (R51). -/
def tripFields (d : Dt) : List Fld :=
  fldIf d.lastTrip "DRV" (fun t => drvText t.drv) ++ fldIf d.lastTrip "DOC" (·.doc) ++
    fldIf d.lastTrip "DEPART" (fun t => minuteText t.depart) ++ fldIf d.lastTrip "END" (fun t => minuteText t.stop) ++
    [fld "TRIPS" (dec d.trips), fld "LOGFULL" (dec d.logfull)]

end Sys2Proof.Machine
end

