-- ==== Sys2Proof/Machine/PapersOps.lean ====
section
/-! DEFINITION. Machine/PapersOps.lean: the document table and what the bays and the duty table ask of CP (R80, R83,
R89, R95 to R99), the validation of a staging (R88), and the discard of a staging (R84). -/

namespace Sys2Proof.Machine

def State.docOf (s : State) (d : String) : Option Doc := s.cp.docs.find? fun x => x.num == d

def modDoc (d : String) (f : Doc → Doc) (s : State) : State :=
  s.modCp fun c => { c with docs := c.docs.map fun x => if x.num == d then f x else x }

/-- The document leaves the table, which closes up (R80). -/
def dropDoc (d : String) (s : State) : State := s.modCp fun c => { c with docs := c.docs.filter fun x => x.num != d }

def Doc.lineOf (x : Doc) (c : Nat) : Option DocLine := x.lines.find? fun l => l.comp == c

/-! ## Requests from the bays (R95 to R98) -/

/-- The driver check (R97): no driver named, or this one. -/
def Doc.matchesDriver (x : Doc) (v : Nat) : Bool := x.driver.all (· == v)

/-- Why CP refuses a bind (R95). -/
def cpBindRefusal (s : State) (d : String) (v : Nat) : Option ReplyCode :=
  match s.docOf d with
  | none => some .NOT_FOUND
  | some x =>
    match x.state with
    | .BOUND _ => some .DOC_BUSY
    | .RELEASED => some .STATE
    | .DRAFT => if x.matchesDriver v then none else some .DRIVER_MISMATCH

/-- A bind that is not refused (R95). -/
def cpBind (d : String) (b : Bay) : State → State := modDoc d fun x => { x with state := .BOUND b, stack := [] }

/-- An unbind; NOT_BOUND changes nothing (R96). -/
def cpUnbind (d : String) (b : Bay) : State → State :=
  modDoc d fun x => if x.state = .BOUND b then { x with state := .DRAFT, stack := [] } else x

/-- A release; NOT_BOUND changes nothing (R98). -/
def cpRelease (d : String) (b : Bay) : State → State :=
  modDoc d fun x => if x.state = .BOUND b then { x with state := .RELEASED, stack := [] } else x

/-- A removal at trip closure (R99). -/
def cpRemove (d : String) : State → State := dropDoc d

/-- A line read: none is NOT_BOUND (R97). -/
def lineRead (s : State) (d : Option String) (b : Bay) (c : Nat) : Option DocLine := do
  let x ← s.docOf (← d)
  if x.state = .BOUND b then x.lineOf c else none

/-! ## Segregation (R89) -/

def Settings.segEntry (c : Settings) (x y : Group) : SegEntry := c.matrix[x][y]

/-- One pair of lines (R89). -/
def pairPasses (c : Settings) (i j : DocLine) : Bool :=
  match c.segEntry (c.product i.product).group (c.product j.product).group with
  | .ALLOW => true
  | .APART => decide (i.comp + 2 ≤ j.comp) || decide (j.comp + 2 ≤ i.comp)
  | .NEVER => false

/-- The first pair that fails, by i and then by j (R89). -/
def firstFailingPair (c : Settings) : List DocLine → Option (Nat × Nat)
  | [] => none
  | i :: rest =>
    match rest.find? fun j => !pairPasses c i j with
    | some j => some (i.comp, j.comp)
    | none => firstFailingPair c rest

def pairField (p : Nat × Nat) : Fld := fld "C" (dec p.1 ++ "," ++ dec p.2)

/-! ## Validation (R88) -/

/-- The first line whose compartment equals that of an earlier line. -/
def firstConflict : List Nat → List DocLine → Option Nat
  | _, [] => none
  | seen, l :: ls => if seen.contains l.comp then some l.comp else firstConflict (l.comp :: seen) ls

/-- The line's UN number, class and packing group are the product's (R82). -/
def lineMatchesProduct (p : Product) (l : DocLine) : Bool := l.un == p.un && l.cls == p.cls && l.pg == p.pg

def firstLine (ls : List DocLine) (bad : DocLine → Bool) : Option Nat := (ls.find? bad).map (·.comp)

/-- The first test of R88 that fails, with its code and fields. -/
def validation (s : State) (g : Staging) : Option (ReplyCode × List Fld) :=
  let c := s.st.applied
  if (s.docOf g.num).isSome then some (.EXISTS, [fld "DOC" g.num])
  else if Config.maxDocs ≤ s.cp.docs.length then some (.TABLE_FULL, [])
  else if !planInRange g.plan then some (.RANGE, [bare "PLAN"])
  else match firstConflict [] g.lines with
    | some n => some (.LINE_CONFLICT, [fld "C" (dec n)])
    | none =>
      match firstLine g.lines fun l => decide (l.cap < l.qty) with
      | some n => some (.RANGE, [fld "C" (dec n)])
      | none =>
        match firstLine g.lines fun l => !c.hasProduct l.product with
        | some n => some (.NOT_FOUND, [fld "C" (dec n)])
        | none =>
          match firstLine g.lines fun l => !lineMatchesProduct (c.product l.product) l with
          | some n => some (.PRODUCT_MISMATCH, [fld "C" (dec n)])
          | none => (firstFailingPair c g.lines).map fun p => (.SEGREGATION, [pairField p])

/-! ## Staging (R84) -/

def stagingFields (reason : String) (g : Staging) : List Fld :=
  [fld "REASON" reason, fld "DOC" g.num, fld "GOT" (dec g.lines.length), fld "OF" (dec g.expected)]

/-- The staging is discarded and the notice raised with the reason (R84). -/
def discardStaging (reason : String) (s : State) : State :=
  match s.cp.staging with
  | none => s
  | some g => raise .CP .STAGING (stagingFields reason g) (s.modCp fun c => { c with staging := none })

end Sys2Proof.Machine
end

