-- ==== Sys2Proof/Machine/BayOps.lean ====
section
/-! DEFINITION. Machine/BayOps.lean: what happens inside a bay whatever caused it: entry into FINISHING (R123), a
sampler result (R118), reconciliation of the active line (R164), amendments that reach the bay (R135), the return to
IDLE and its CANCEL record (R132), and the DISPATCH record (R130). -/

namespace Sys2Proof.Machine

/-! ## The active line -/

/-- Entry into FINISHING: the line becomes FINISHING and the settle begins (R123). -/
def BayUnit.finish (u : BayUnit) : BayUnit :=
  match u.ctx with
  | none => { u with state := .FINISHING }
  | some c =>
    { u.modLine c.comp (fun l => { l with state := .FINISHING }) with
      state := .FINISHING, ctx := some { c with settleMs := 0, settled := false, final := false } }

def enterFinishing (b : Bay) (reason : String) : State → State := changeBay b reason true .stateFirst BayUnit.finish

/-- A result from the sampler, taken into the line (R118); `temp` none is a fault. -/
def addResult (temp : Option Int) (w : Nat) (final : Bool) (l : LineRec) : LineRec :=
  let l1 := { l with pend := l.pend - w }
  match temp with
  | some t =>
    { l1 with sampleSum := l.sampleSum + t * w, weightSum := l.weightSum + w,
              taken := satAdd Config.maxSamples l.taken 1, finalTemp := if final then some t else l.finalTemp }
  | none => { l1 with faulted := satAdd Config.maxSamples l.faulted 1 }

/-- Reconciles a line of the bay with the document line as it stands (R154); without a document line nothing is read,
and the line stays as it is. -/
def reconcileLine (withFinal : Bool) (s : State) (b : Bay) (l : LineRec) : LineRec :=
  match lineRead s (s.bay b).doc b l.comp with
  | some d =>
    reconcile withFinal (s.entry b).factor (s.st.applied.product d.product) s.st.applied.tol d.qty l
  | none => l

/-- A result reaches the bay's active line; with the final mark it completes the final sample (R118, R123). -/
def takeResult (b : Bay) (temp : Option Int) (w : Nat) (final : Bool) (s : State) : State :=
  match (s.bay b).ctx with
  | none => s
  | some c =>
    if final then
      changeBay b "RECONCILED" true .stateFirst (fun u =>
        let v := u.modLine c.comp fun l => reconcileLine true s b (addResult temp w true l)
        { v.matchHolds with state := .ASSIGNED, ctx := none }.adjust) s
    else s.modBay b fun u => u.modLine c.comp (addResult temp w false)

/-! ## Amendments (R135) -/

/-- What CP tells the bay of a taken amendment or withdrawal (R106). -/
inductive AmendNote where
  | quantity (c : Nat)
  | product (c : Nat)
  | removed (c : Nat)
  | restored (c pos : Nat)
deriving DecidableEq, Repr

/-- The bay acts on the notice; CP's document already stands as amended (R135). -/
def noteAmendment (b : Bay) (n : AmendNote) (s : State) : State :=
  match n with
  | .quantity c =>
    match (s.bay b).lineOf c, lineRead s (s.bay b).doc b c with
    | some l, some d =>
      if l.state.isQuantity then
        changeBay b "HOLD" true .stateLast
          (fun u => (u.modLine c (reReconcile s.st.applied.tol d.qty)).matchHolds.adjust) s
      else s
    | _, _ => s
  | .product _ => s
  | .removed c =>
    changeBay b "HOLD" true .stateLast (fun u => { u with lines := u.lines.filter fun l => l.comp != c }) s
  | .restored c pos =>
    changeBay b "HOLD" true .stateLast (fun u => { u with lines := u.lines.insertIdx pos (openLine c) }) s

/-! ## Records of a bay -/

/-- One item of a CANCEL record, for a loaded line (R132). -/
def cancelItem (s : State) (b : Bay) (l : LineRec) : CancelItem :=
  let d := (lineRead s (s.bay b).doc b l.comp).getD default
  ⟨l.comp, d.product, d.qty, l.pulses, l.vo, l.state, l.marks, l.figs⟩

/-- The CANCEL record of a bay with a document and a driver and a loaded line (R132). -/
def cancelRecord (s : State) (b : Bay) (reason : CancelReason) : Option LogRec :=
  let u := s.bay b
  match u.doc, u.driver with
  | some d, some v =>
    if u.anyLoaded then
      some (s.makeRec (.CANCEL ⟨b, d, v, reason, (u.lines.filter (·.loaded)).map (cancelItem s b)⟩))
    else none
  | _, _ => none

def dispatchItem (s : State) (b : Bay) (l : LineRec) : DispatchItem :=
  let d := (lineRead s (s.bay b).doc b l.comp).getD default
  ⟨l.comp, d.product, d.un, d.cls, d.pg, d.qty, l.vo, l.figs, l.marks, l.manual⟩

/-- The DISPATCH record with the verdict that allowed it (R130). -/
def dispatchRecord (s : State) (b : Bay) (x : Doc) (drv : Nat) (v : VerdictRec) : LogRec :=
  s.makeRec (.DISPATCH ⟨b, x.num, x.tanker, x.carrier, drv, v.verdict, v.least, v.test, x.count,
    (s.bay b).lines.map (dispatchItem s b)⟩)

def isDispatch (r : LogRec) : Bool :=
  match r.body with
  | .DISPATCH _ => true
  | _ => false

/-! ## The return to IDLE (R132) -/

/-- The bay asks CP and DT to unbind what it holds (R96, R58). -/
def unbindBay (b : Bay) (s : State) : State :=
  let u := s.bay b
  let s1 := match u.doc with
    | some d => cpUnbind d b s
    | none => s
  match u.driver with
  | some v => dtUnbind v b s1
  | none => s1

/-- A CANCEL record into the outbox, the unbinds, the new state and the notices (R132). -/
def vacateBay (b : Bay) (reason : String) (why : CancelReason) (st : BayState) (s : State) : State :=
  let recs := (cancelRecord s b why).toList
  changeBay b reason true .stateFirst (fun u => { u.empty st with outbox := u.outbox ++ recs }) (unbindBay b s)

/-- The same, and the post (R129, R132, R133). -/
def leaveBay (b : Bay) (reason : String) (why : CancelReason) (st : BayState) (s : State) : State :=
  postFrom (.B b) (vacateBay b reason why st s)

end Sys2Proof.Machine
end

