-- ==== Sys2Proof/Machine/Sampler.lean ====
section
/-! DEFINITION. Machine/Sampler.lean: the temperature sampler's own operations (07_temperature_sampler.md): posting,
choosing the next work, withdrawal, conversion and calibration. -/

namespace Sys2Proof.Machine

/-- The bays in turn, beginning after the last served (R141). -/
def turnFrom (last : Bay) : List Bay := allBays.map fun i => last + 1 + i

/-- The next bay to sample: the first in turn with a request (R141). -/
def nextBay (t : Ts) : Option Bay := (turnFrom t.lastServed).find? fun b => t.reqs[b].isSome

/-- A free converter chooses its next work (R141, R148). -/
def chooseWork (s : State) : State :=
  match s.ts.conv with
  | .FREE =>
    if s.ts.due then s.modTs fun t => { t with conv := .CAL }
    else if s.ts.fault then s
    else match nextBay s.ts with
      | some b => s.modTs fun t => { t with conv := .SAMPLE b false, lastServed := b }
      | none => s
  | _ => s

/-- A post enters the set, or adds to the bay's request there (R140). -/
def Ts.addReq (b : Bay) (w : Nat) (final : Bool) (t : Ts) : Ts :=
  { t with reqs := t.reqs.set b (match t.reqs[b] with
    | none => some ⟨w, final⟩
    | some r => some ⟨r.weight + w, r.final || final⟩) }

def Ts.dropReq (b : Bay) (t : Ts) : Ts := { t with reqs := t.reqs.set b none }

/-- A bay posts or adds weight; while FAULT it is answered with a fault at once (R140, R148). -/
def tsPost (b : Bay) (w : Nat) (final : Bool) (s : State) : State :=
  if s.ts.fault then takeResult b none w final s else chooseWork (s.modTs (Ts.addReq b w final))

/-- A withdrawal (R145). -/
def tsWithdraw (b : Bay) (s : State) : State :=
  s.modTs fun t =>
    if t.reqs[b].isSome then
      { t.dropReq b with conv := if t.conv = .SAMPLE b false then .SAMPLE b true else t.conv }
    else t

/-- The code of a sample, from its two conversions (R139). -/
def sampleCode (c1 c2 : Adc) : Nat := (c1.toNat + c2.toNat + 1) / 2

/-- Ti in tenths of a degree (R143). -/
def temperatureOf (clo chi code : Nat) : Int := roundHalfAway (((code : Int) - clo) * 500) (chi - clo)

/-- The temperature of a sample; none is a probe fault (R144). -/
def probeResult (clo chi code : Nat) : Option Int :=
  if code < 16 ∨ 4079 < code then none
  else
    let t := temperatureOf clo chi code
    if t < Config.minTemp ∨ Config.maxTemp < t then none else some t

/-- The two tests of a calibration (R146): SPAN and ZERO hold. -/
def spanOk (lo hi : Nat) : Bool := decide (lo + 1000 ≤ hi) && decide (hi ≤ lo + 4000)
def zeroOk (lo : Nat) : Bool := decide (200 ≤ lo) && decide (lo ≤ 1800)

def causeText (lo hi : Nat) : String :=
  commasOrNone ((if spanOk lo hi then [] else ["SPAN"]) ++ (if zeroOk lo then [] else ["ZERO"]))

def healthText (fault : Bool) : String := if fault then "FAULT" else "OK"

/-- The HEALTH notice (R147). -/
def healthFields (t : Ts) (lo hi : Nat) : List Fld :=
  [fld "HEALTH" (healthText t.fault), fld "LO" (dec lo), fld "HI" (dec hi), fld "CAUSE" (causeText lo hi),
   fld "CLO" (dec t.clo), fld "CHI" (dec t.chi)]

def tellHealth (lo hi : Nat) (s : State) : State := raise .TS .HEALTH (healthFields s.ts lo hi) s

/-- The bay's request is removed and answered with a fault (R148). -/
def faultReq (b : Bay) (s : State) : State :=
  match s.ts.reqs[b] with
  | some r => takeResult b none r.weight r.final (s.modTs (Ts.dropReq b))
  | none => s

/-- Every request is answered with a fault, in the order of the turn (R148). -/
def faultAll (s : State) : State := (turnFrom s.ts.lastServed).foldl (fun t b => faultReq b t) s

/-- The outcome of a calibration with codes L and H (R147). -/
def calOutcome (lo hi : Nat) (s : State) : State :=
  if spanOk lo hi && zeroOk lo then
    let t := s.modTs fun t => { t with clo := lo, chi := hi, fault := false }
    if s.ts.fault then setComponents (fun d => { d with sampler := false }) (tellHealth lo hi t) else t
  else if s.ts.fault then tellHealth lo hi s
  else
    setComponents (fun d => { d with sampler := true })
      (tellHealth lo hi (faultAll (s.modTs fun t => { t with fault := true })))

/-- The due flag is set and a free converter begins the calibration (R149). -/
def calDue (s : State) : State := chooseWork (s.modTs fun t => { t with due := true })

/-- The period in milliseconds (R149). -/
def State.periodMs (s : State) : Nat := s.st.applied.period * 60000

/-- The request leaves the set and its result is delivered (R142, steps 1 to 3). -/
def deliver (b : Bay) (code : Nat) (s : State) : State :=
  match s.ts.reqs[b] with
  | some r => takeResult b (probeResult s.ts.clo s.ts.chi code) r.weight r.final (s.modTs (Ts.dropReq b))
  | none => s

def freeConverter (s : State) : State := s.modTs fun t => { t with conv := .FREE }

/-- A bay sample completes (R142); a withdrawn request's result is discarded (R145). -/
def sampleDone (c1 c2 : Adc) (s : State) : State :=
  match s.ts.conv with
  | .SAMPLE b withdrawn =>
    chooseWork (freeConverter (if withdrawn then s else deliver b (sampleCode c1 c2) s))
  | _ => s

/-- A calibration completes (R146, R147, R149). -/
def calibrationDone (l1 l2 h1 h2 : Adc) (s : State) : State :=
  let lo := sampleCode l1 l2
  let hi := sampleCode h1 h2
  if s.ts.conv = .CAL then
    let time := if s.ck.isSet then some s.ck.count else none
    chooseWork (freeConverter (calOutcome lo hi (s.modTs fun t =>
      { t with due := false, sinceCal := some 0, lastCal := some ⟨time, lo, hi⟩ })))
  else s

end Sys2Proof.Machine
end

