-- ==== Sys2Proof/Machine/Bays.lean ====
section
/-! DEFINITION. Machine/Bays.lean: the requests and events of the loading bays (06_loading_bays.md). A request gives the
state it leaves and its answer. -/

namespace Sys2Proof.Machine

/-- The refusal of a request whose fields are not of its form (R6). -/
def syntaxRefusal (s : State) : State × Answer := (s, er .SYNTAX)

def compInRange (c : Nat) : Bool := decide (1 ≤ c) && decide (c ≤ 8)

/-- STATE, with the hold reasons of a HELD bay (R116, R130). -/
def stateRefusal (u : BayUnit) : Answer :=
  if u.state = .HELD then er .STATE [fld "HOLD" (commasOrNone (holdNames u.holds))] else er .STATE

def BayUnit.activeVo (u : BayUnit) : Nat := ((u.ctx.bind fun c => u.lineOf c.comp).map (·.vo)).getD 0
def BayUnit.activeComp (u : BayUnit) : Nat := (u.ctx.map (·.comp)).getD 0

/-! ## Readout (R136) -/

/-- PAUSE of Bn STATUS (R136); both reasons as a list, HALT first (log 48). -/
def pauseText (c : Ctx) : String :=
  commasOrNone ((if c.haltReason then ["HALT"] else []) ++ (if c.bondReason then ["BOND"] else []))

def bayStatusFields (s : State) (b : Bay) : List Fld :=
  let u := s.bay b
  [fld "STATE" (bayStateText u.state), fld "HOLD" (commasOrNone (holdNames u.holds))] ++ fldIf u.doc "DOC" id ++
    fldIf u.driver "DRV" drvText ++ verdictFields u ++
    (match u.ctx with
     | some c =>
       [fld "C" (dec c.comp), fld "PRESET" (dec c.preset), fld "VO" (dec u.activeVo)] ++
         (if u.state = .PAUSED then [fld "PAUSE" (pauseText c)] else [])
     | none => []) ++
    (if s.ts.reqs[b].isSome then
       [fld "PEND" (dec (((u.ctx.bind fun c => u.lineOf c.comp).map (·.pend)).getD 0))] else []) ++
    [fld "BOND" (if u.bond then "GOOD" else "LOST"), fld "HALT" (if u.halt then "ACTIVE" else "INACTIVE"),
     fld "RELEASE" (if u.release then "ON" else "OFF"), fld "STRAY" (dec u.stray)] ++ lineFields u ++
    [fld "OUTBOX" (dec u.outbox.length), fld "LOGFULL" (dec u.logfull)]

def bStatus (b : Bay) (f : NoFields) (s : State) : State × Answer :=
  match f with
  | none => syntaxRefusal s
  | some _ => (s, ok (bayStatusFields s b))

/-- A line is reconciled (R109, R158). -/
def LineState.reconciled : LineState → Bool
  | .OPEN | .LOADING | .FINISHING => false
  | _ => true

def lineStatusFields (l : LineRec) : List Fld :=
  [fld "C" (dec l.comp), fld "LINE" (lineStateText l.state), fld "P" (dec l.pulses), fld "VO" (dec l.vo),
   fld "VOL" (dec (litres l.vo)), fld "TAKEN" (dec l.taken), fld "FAULTED" (dec l.faulted),
   fld "WSUM" (dec l.weightSum), fld "SSUM" (decInt l.sampleSum), fld "PEND" (dec l.pend)] ++
  (match l.figs with
   | some f => [fld "TM" (decInt f.tm), fld "VCF" (dec f.vcf), fld "VS" (dec f.vs), fld "VSL" (dec (litres f.vs)),
                fld "DEV" (decInt f.dev)]
   | none => []) ++
  (if l.state.reconciled then [fld "MARKS" (marksText l.marks), fld "MANUAL" (yn l.manual)] else [])

def bStatusLine (b : Bay) (comp : Parsed Nat) (s : State) : State × Answer :=
  match comp with
  | none => syntaxRefusal s
  | some c =>
    if !compInRange c then (s, er .RANGE)
    else match (s.bay b).lineOf c with
      | none => (s, er .NOT_FOUND)
      | some l => (s, ok (lineStatusFields l))

/-! ## Assignment (R115) -/

def verdictReply (v : VerdictRec) : List Fld := [fld "VERDICT" (verdictText v.verdict), fld "LEAST" (leastText v.least v.test)]

/-- What the bay becomes when both binds are made (R115). -/
def BayUnit.assigned (x : Doc) (drv : Nat) (v : VerdictRec) (u : BayUnit) : BayUnit :=
  BayUnit.adjust
    { u with
      state := .ASSIGNED, holds := { Holds.none with hours := v.verdict == .LIMIT }, doc := some x.num,
      driver := some drv, plan := some x.plan, verdict := some v, lines := x.lines.map fun l => openLine l.comp,
      ctx := none, stray := 0 }

def bAssign (b : Bay) (a : Parsed AssignArgs) (s : State) : State × Answer :=
  match a with
  | none => syntaxRefusal s
  | some a =>
    if a.drv = 0 then (s, er .RANGE)
    else if (s.bay b).state ≠ .IDLE then (s, er .STATE)
    else if (s.bay b).outbox ≠ [] then (s, er .BUSY)
    else if !s.ck.isSet then (s, er .CLOCK_UNSET)
    else match cpBindRefusal s a.doc a.drv, s.docOf a.doc with
      | some c, _ => (s, er c [fld "DOC" a.doc])
      | none, none => (s, er .NOT_FOUND [fld "DOC" a.doc])
      | none, some x =>
        let s1 := cpBind a.doc b s
        match dtBindRefusal s1 a.drv with
        | some c => (cpUnbind a.doc b s1, er c [fld "DRV" (drvText a.drv)])
        | none =>
          let v := s1.driverVerdict a.drv x.plan
          let t := changeBay b "ASSIGN" true .stateFirst (BayUnit.assigned x a.drv v) (dtBind a.drv b x.plan s1)
          (t, ok (fld "STATE" (bayStateText (t.bay b).state) :: verdictReply v ++
            [fld "LINES" (commas (x.lines.map fun l => dec l.comp))]))

/-! ## Loading (R116, R119, R122) -/

/-- The line at START (R116). -/
def LineRec.started (l : LineRec) : LineRec :=
  { l with state := .LOADING, pulses := 0, vo := 0, sampleSum := 0, weightSum := 0, pend := 0, taken := 0, faulted := 0 }

/-- The preset used: at most the line's capacity (R6, R116). -/
def usedPreset (s : State) (b : Bay) (a : StartArgs) : Nat :=
  match lineRead s (s.bay b).doc b a.comp with
  | some d => min a.preset d.cap
  | none => a.preset

def bStart (b : Bay) (a : Parsed StartArgs) (s : State) : State × Answer :=
  match a with
  | none => syntaxRefusal s
  | some a =>
    let u := s.bay b
    if !compInRange a.comp || a.preset == 0 then (s, er .RANGE)
    else if u.state ≠ .ASSIGNED then (s, stateRefusal u)
    else match u.lineOf a.comp with
      | none => (s, er .NOT_FOUND)
      | some l =>
        if l.state ≠ .OPEN then (s, er .LINE_STATE)
        else if !u.bond then (s, er .NO_BOND)
        else if u.halt then (s, er .HALTED)
        else
          let q := usedPreset s b a
          (changeBay b "START" true .stateFirst (fun u =>
              { u.modLine a.comp LineRec.started with
                state := .LOADING, ctx := some ⟨a.comp, q, false, false, 0, 0, false, 0, false⟩ }) s,
           ok [fld "C" (dec a.comp), fld "PRESET" (dec q)])

def bStop (b : Bay) (f : NoFields) (s : State) : State × Answer :=
  match f with
  | none => syntaxRefusal s
  | some _ =>
    let u := s.bay b
    if u.state = .LOADING ∨ u.state = .PAUSED then
      (enterFinishing b "STOP" s, ok [fld "C" (dec u.activeComp), fld "VO" (dec u.activeVo)])
    else (s, er .STATE)

def bResume (b : Bay) (f : NoFields) (s : State) : State × Answer :=
  match f with
  | none => syntaxRefusal s
  | some _ =>
    let u := s.bay b
    if u.state ≠ .PAUSED then (s, er .STATE)
    else if u.halt then (s, er .HALTED)
    else if !u.bond then (s, er .NO_BOND)
    else
      (changeBay b "RESUME" false .stateFirst (fun u =>
          { u with state := .LOADING,
                   ctx := u.ctx.map fun c => { c with haltReason := false, bondReason := false, pauseMs := 0 } }) s,
       ok [fld "C" (dec u.activeComp), fld "VO" (dec u.activeVo)])

/-! ## Acknowledgements (R125, R128) -/

def bAckstray (b : Bay) (f : NoFields) (s : State) : State × Answer :=
  match f with
  | none => syntaxRefusal s
  | some _ =>
    let u := s.bay b
    if u.state = .CLOSED then (s, er .STATE)
    else if !s.supv then (s, er .KEY_REQUIRED)
    else
      (changeBay b "HOLD" false .stateLast
          (fun u => BayUnit.adjust { u with stray := 0, holds := { u.holds with stray := false } }) s,
       ok [fld "STRAY" (dec u.stray)])

def bAckrestart (b : Bay) (f : NoFields) (s : State) : State × Answer :=
  match f with
  | none => syntaxRefusal s
  | some _ =>
    if !(s.bay b).holds.restart then (s, er .STATE)
    else
      let t := changeBay b "HOLD" false .stateLast
        (fun u => BayUnit.adjust { u with holds := { u.holds with restart := false } }) s
      (t, ok [fld "HOLD" (commasOrNone (holdNames (t.bay b).holds))])

/-! ## Manual temperature (R126, R165) -/

/-- The line with a manual Tm (R165). -/
def manualLine (s : State) (d : DocLine) (t : Int) (l : LineRec) : LineRec :=
  { stages3to6 (s.st.applied.product d.product) s.st.applied.tol d.qty t l with manual := true }

def bTemp (b : Bay) (a : Parsed TempArgs) (s : State) : State × Answer :=
  match a with
  | none => syntaxRefusal s
  | some a =>
    let u := s.bay b
    if !compInRange a.comp || decide (a.temp < Config.minTemp) || decide (Config.maxTemp < a.temp) then (s, er .RANGE)
    else if u.state ≠ .ASSIGNED ∧ u.state ≠ .HELD then (s, er .STATE)
    else match u.lineOf a.comp with
      | none => (s, er .NOT_FOUND)
      | some l =>
        if !l.state.isTemperature then (s, er .LINE_STATE)
        else if !s.supv then (s, er .KEY_REQUIRED)
        else match lineRead s u.doc b a.comp with
          | none => (s, er .NOT_FOUND)
          | some d =>
            (changeBay b "HOLD" true .stateLast
                (fun u => (u.modLine a.comp (manualLine s d a.temp)).matchHolds.adjust) s,
             ok [fld "C" (dec a.comp), fld "LINE" (lineStateText (manualLine s d a.temp l).state)])

/-! ## Driver swap (R127) -/

/-- The bay takes the new driver and verdict; HOURS follows the verdict (R127). -/
def BayUnit.swapped (drv : Nat) (v : VerdictRec) (u : BayUnit) : BayUnit :=
  BayUnit.adjust { u with driver := some drv, verdict := some v, holds := { u.holds with hours := v.verdict == .LIMIT } }

def bDriver (b : Bay) (drv : Parsed Nat) (s : State) : State × Answer :=
  match drv with
  | none => syntaxRefusal s
  | some v =>
    let u := s.bay b
    if v = 0 then (s, er .RANGE)
    else if u.state ≠ .ASSIGNED ∧ u.state ≠ .HELD then (s, er .STATE)
    else match u.doc.bind s.docOf, u.driver, u.plan with
      | some x, some old, some p =>
        if !x.matchesDriver v then (s, er .DRIVER_MISMATCH)
        else match dtBindRefusal s v with
          | some c => (s, er c)
          | none =>
            let r := s.driverVerdict v p
            (tellHold b (changeBay b "HOLD" false .stateLast (BayUnit.swapped v r) (dtSwap old v b p s)),
             ok (fld "DRV" (drvText v) :: verdictReply r))
      | _, _, _ => (s, er .DRIVER_MISMATCH)

/-! ## Dispatch (R130, R131) -/

/-- The bay holds on HOURS after a LIMIT verdict (R130). -/
def BayUnit.limited (v : VerdictRec) (u : BayUnit) : BayUnit :=
  BayUnit.adjust { u with verdict := some v, holds := { u.holds with hours := true } }

def bDispatch (b : Bay) (f : NoFields) (s : State) : State × Answer :=
  match f with
  | none => syntaxRefusal s
  | some _ =>
    let u := s.bay b
    if u.state ≠ .ASSIGNED then (s, stateRefusal u)
    else match u.lines.find? fun l => l.state != .VERIFIED with
      | some l => (s, er .LINE_STATE [fld "C" (dec l.comp)])
      | none =>
        match u.doc.bind s.docOf, u.driver, u.plan with
        | some x, some drv, some p =>
          let s1 := dispatchCheck drv b p s
          match dispatchAnswer s drv b p with
          | .notBound => (s, er .STATE)
          | .limit v =>
            (changeBay b "HOLD" false .stateFirst (BayUnit.limited v) s1,
             er .HOURS_LIMIT [fld "LEAST" (leastText v.least v.test), fld "MARKS" (commasOrNone (v.marks.map testText))])
          | .listFull _ => (s1, er .LIST_FULL [fld "DRV" (drvText drv)])
          | .go v =>
            (postFrom (.B b) (changeBay b "DISPATCH" false .stateFirst (fun u =>
                { u with state := .DISPATCHING, verdict := some v,
                         outbox := u.outbox ++ [dispatchRecord s1 b x drv v] }) s1),
             ok (fld "STATE" "DISPATCHING" :: verdictReply v))
        | _, _, _ => (s, er .STATE)

/-- The record at the head of the bay's outbox leaves it, and the next is posted (R129). -/
def bayRecordLeaves (b : Bay) (s : State) : State :=
  postFrom (.B b) (s.modBay b fun u => { u with outbox := u.outbox.drop 1 })

/-- STATE with REASON LATE_DISPATCH and the record's document number (R131, log 18). -/
def tellLate (b : Bay) (doc : String) (s : State) : State :=
  let u := s.bay b
  raise (.B b) .STATE (stateFields { u with doc := some doc } "LATE_DISPATCH") s

/-- The log reports a bay's record written (R131). -/
def bayWritten (b : Bay) (r : LogRec) (s : State) : State :=
  match r.body with
  | .DISPATCH d =>
    let s1 := dtComplete d.drv b d.doc (cpRelease d.doc b s)
    bayRecordLeaves b
      (if (s.bay b).state = .DISPATCHING then
         changeBay b "DEPARTED" false .stateFirst (fun u => { u with state := .DISPATCHED }) s1
       else tellLate b d.doc s1)
  | _ => bayRecordLeaves b s

/-- The bay counts a refused record (R129, R131). -/
def BayUnit.countRefusal (u : BayUnit) : BayUnit := { u with logfull := satAdd Config.maxCount16 u.logfull 1 }

/-- The log refuses a bay's record with LOG_FULL (R129, R131). -/
def bayRefused (b : Bay) (r : LogRec) (s : State) : State :=
  let s1 := match r.body with
    | .DISPATCH d => dtAbandon d.drv b s
    | _ => s
  let s2 := s1.modBay b fun u =>
    { u.countRefusal with state := if isDispatch r ∧ u.state = .DISPATCHING then .ASSIGNED else u.state }
  bayRecordLeaves b (tellState b "LOG_FULL" s2)

/-! ## Cancel, clear and reset (R132 to R134) -/

def bCancel (b : Bay) (f : NoFields) (s : State) : State × Answer :=
  match f with
  | none => syntaxRefusal s
  | some _ =>
    let u := s.bay b
    if u.state ≠ .ASSIGNED ∧ u.state ≠ .HELD then (s, er .STATE)
    else if u.anyLoaded ∧ s.supv = false then (s, er .KEY_REQUIRED)
    else (leaveBay b "CANCEL" .OPERATOR .IDLE s, ok [fld "LOADED" (dec u.loadedCount)])

/-- A DISPATCHED bay goes to IDLE (R134). -/
def freeBay (b : Bay) (reason : String) : State → State :=
  changeBay b reason true .stateFirst (BayUnit.empty · .IDLE)

def bClear (b : Bay) (f : NoFields) (s : State) : State × Answer :=
  match f with
  | none => syntaxRefusal s
  | some _ =>
    if (s.bay b).state ≠ .DISPATCHED then (s, er .STATE) else (freeBay b "CLEAR" s, ok [])

def bReset (b : Bay) (f : NoFields) (s : State) : State × Answer :=
  match f with
  | none => syntaxRefusal s
  | some _ =>
    let u := s.bay b
    let loaded := ok [fld "LOADED" (dec u.loadedCount)]
    if u.state = .CLOSED then (s, er .STATE)
    else if u.anyLoaded ∧ s.supv = false then (s, er .KEY_REQUIRED)
    else match u.state with
      | .CLOSED => (s, er .STATE)
      | .IDLE => (s, ok [fld "LOADED" "0"])
      | .DISPATCHED => (freeBay b "RESET" s, ok [fld "LOADED" "0"])
      | .ASSIGNED | .HELD | .DISPATCHING => (leaveBay b "RESET" .RESET .IDLE s, loaded)
      | .LOADING | .PAUSED | .FINISHING => (leaveBay b "RESET" .RESET .IDLE (tsWithdraw b s), loaded)

/-! ## Events on the lines (R117 to R124) -/

/-- A pulse counted into no line (R124). -/
def strayPulse (b : Bay) (s : State) : State :=
  let u := s.bay b
  let n := satAdd Config.maxCount16 u.stray 1
  let s1 := s.modBay b fun u => { u with stray := n }
  if n = Config.strayLimit ∧ u.stray < Config.strayLimit then
    let hold := u.state = .ASSIGNED ∨ u.state = .HELD ∨ u.state = .FINISHING
    let t := changeBay b "HOLD" false .stateLast
      (fun u => if hold then BayUnit.adjust { u with holds := { u.holds with stray := true } } else u) s1
    raise (.B b) .STRAY (strayFields (t.bay b)) t
  else s1

/-- The pulse is counted into the active line, and Vo recomputed (R117). -/
def countPulse (factor : Nat) (l : LineRec) : LineRec :=
  let p := satAdd Config.maxPulses l.pulses 1
  { l with pulses := p, vo := observedVolume p factor }

/-- The crossing test (R118). -/
def crossingTest (b : Bay) (c : Ctx) (s : State) : State :=
  let w := 10 * (s.entry b).step
  if w * (c.crossings + 1) ≤ (s.bay b).activeVo then
    tsPost b w false (s.modBay b fun u =>
      { u.modLine c.comp (fun l => { l with pend := l.pend + w }) with
        ctx := some { c with crossings := c.crossings + 1 } })
  else s

/-- A pulse of the active line: count, crossing, preset (R117). -/
def linePulse (b : Bay) (c : Ctx) (s : State) : State :=
  let s1 := s.modBay b fun u => u.modLine c.comp (countPulse (s.entry b).factor)
  let s2 := crossingTest b c s1
  let st := (s.bay b).state
  if (st = .LOADING ∨ st = .PAUSED) ∧ 10 * c.preset ≤ (s1.bay b).activeVo then enterFinishing b "PRESET" s2 else s2

/-- A rising edge on PULSEn (R117, R124). -/
def pulse (b : Bay) (s : State) : State :=
  let u := s.bay b
  match u.state, u.ctx with
  | .CLOSED, _ => s
  | .LOADING, some c => linePulse b c s
  | .PAUSED, some c => linePulse b c s
  | .FINISHING, some c => if c.settled then strayPulse b s else linePulse b c s
  | _, _ => strayPulse b s

/-- A pause begins (R120). -/
def BayUnit.pauseFor (halt : Bool) (u : BayUnit) : BayUnit :=
  { u with state := .PAUSED,
           ctx := u.ctx.map fun c => { c with haltReason := halt, bondReason := !halt, pauseMs := 0 } }

/-- An edge on HALTn (R120). -/
def haltChange (b : Bay) (active : Bool) (s : State) : State :=
  let u := s.bay b
  if u.halt = active then s
  else match u.state with
    | .LOADING =>
      changeBay b "HALT" false .stateFirst
        (fun u => if active then { u.pauseFor true with halt := true } else { u with halt := false }) s
    | .PAUSED =>
      s.modBay b fun u => { u with halt := active, ctx := u.ctx.map fun c => { c with haltReason := active } }
    | _ => s.modBay b fun u => { u with halt := active }

/-- An edge on BONDn (R120, R134). -/
def bondChange (b : Bay) (good : Bool) (s : State) : State :=
  let u := s.bay b
  if u.bond = good then s
  else match u.state with
    | .LOADING =>
      changeBay b "BOND" false .stateFirst
        (fun u => if good then { u with bond := true } else { u.pauseFor false with bond := false }) s
    | .PAUSED =>
      s.modBay b fun u => { u with bond := good, ctx := u.ctx.map fun c => { c with bondReason := !good } }
    | .DISPATCHED =>
      let t := s.modBay b fun u => { u with bond := good }
      if good then t else freeBay b "UNBOND" t
    | _ => s.modBay b fun u => { u with bond := good }

/-- The pause limit is reached (R121). -/
def pauseEnds (b : Bay) (s : State) : State :=
  if (s.bay b).state = .PAUSED then enterFinishing b "PAUSE_LIMIT" s else s

/-- The settle ends: the final weight is posted with the final mark (R123). -/
def settleEnds (b : Bay) (s : State) : State :=
  match (s.bay b).state, (s.bay b).ctx with
  | .FINISHING, some c =>
    if c.settled then s
    else
      let w := (s.bay b).activeVo - 10 * (s.entry b).step * c.crossings
      tsPost b w true (s.modBay b fun u =>
        { u.modLine c.comp (fun l => { l with pend := l.pend + w }) with
          ctx := some { c with settled := true, final := true } })
  | _, _ => s

/-! ## Settings applied (R114, R200) -/

/-- A bay's state follows its enable at an apply (R114). -/
def bayApply (b : Bay) (s : State) : State :=
  let en := (s.entry b).enabled
  match (s.bay b).state with
  | .IDLE => if en then s else changeBay b "APPLY" false .stateFirst (fun u => { u with state := .CLOSED }) s
  | .CLOSED =>
    if en then changeBay b "APPLY" false .stateFirst (fun u => { u with state := .IDLE, stray := 0 }) s else s
  | _ => s

end Sys2Proof.Machine
end

