-- ==== Sys2Proof/Machine/Papers.lean ====
section
/-! DEFINITION. Machine/Papers.lean: the requests of the consignment papers (05_consignment_papers.md). A request gives
the state it leaves and its answer. -/

namespace Sys2Proof.Machine

/-- The items i to i+n-1 of a list, numbered from 1. -/
def page {α : Type} (i n : Nat) (l : List α) : List α := (l.drop (i - 1)).take n

/-- MORE=j when item j = i+n exists, END otherwise (R55, R93, R198). -/
def moreField {α : Type} (i n : Nat) (l : List α) : Fld := if i + n ≤ l.length then fld "MORE" (dec (i + n)) else bare "END"

def freeDocs (s : State) : Fld := fld "FREE" (dec (Config.maxDocs - s.cp.docs.length))

/-- The staging is discarded by any other verb (R90). -/
def interrupted (s : State) : State := discardStaging "INTERRUPTED" s

/-! ## Status and upload (R85 to R87, R90, R94) -/

def docCount (s : State) (p : DocState → Bool) : String := dec (s.cp.docs.filter fun x => p x.state).length

def cpStatus (f : NoFields) (s : State) : State × Answer :=
  match f with
  | none => syntaxRefusal s
  | some _ =>
    (s, ok ((match s.cp.staging with
      | some g => [fld "STAGING" g.num, fld "GOT" (dec g.lines.length), fld "OF" (dec g.expected)]
      | none => [fld "STAGING" "NONE"]) ++
      [fld "DOCS" (dec s.cp.docs.length), fld "DRAFT" (docCount s (· == .DRAFT)),
       fld "BOUND" (docCount s fun d => d != .DRAFT && d != .RELEASED), fld "RELEASED" (docCount s (· == .RELEASED)),
       freeDocs s]))

def cpOpen (a : Parsed OpenArgs) (s : State) : State × Answer :=
  match a with
  | none => syntaxRefusal s
  | some a =>
    if !compInRange a.lines || a.driver == some 0 then (s, er .RANGE)
    else
      ((discardStaging "REOPENED" s).modCp fun c =>
          { c with staging := some ⟨a.doc, a.lines, a.tanker, a.carrier, a.driver, a.plan, []⟩ },
       ok [fld "DOC" a.doc, fld "LINES" (dec a.lines)])

def volumeInRange (q : Nat) : Bool := decide (1 ≤ q) && decide (q ≤ Config.maxVolume)
def unInRange (u : Nat) : Bool := decide (1 ≤ u) && decide (u ≤ Config.maxUn)

/-- The line of an LINE request when every value is in range (R86, test 2). -/
def lineInRange (a : LineArgs) : Option DocLine :=
  match a.cls, a.pg with
  | some k, some g =>
    if compInRange a.comp && unInRange a.un && volumeInRange a.qty && volumeInRange a.cap then
      some ⟨a.comp, a.product, a.un, k, g, a.qty, a.cap⟩
    else none
  | _, _ => none

def cpLine (a : Parsed LineArgs) (s : State) : State × Answer :=
  match a with
  | none => syntaxRefusal s
  | some a =>
    match lineInRange a with
    | none => (s, er .RANGE)
    | some l =>
      match s.cp.staging with
      | none => (s, er .SEQUENCE)
      | some g =>
        if g.expected ≤ g.lines.length then (discardStaging "SEQUENCE" s, er .SEQUENCE)
        else
          (s.modCp fun c => { c with staging := some { g with lines := g.lines ++ [l] } },
           ok [fld "LINE" (dec (g.lines.length + 1)), fld "OF" (dec g.expected)])

/-- The document made from a staging (R87). -/
def Staging.document (g : Staging) : Doc :=
  ⟨g.num, .DRAFT, g.tanker, g.carrier, g.driver, g.plan, g.lines, 0, []⟩

def cpConfirm (f : NoFields) (s : State) : State × Answer :=
  match f with
  | none => syntaxRefusal s
  | some _ =>
    match s.cp.staging with
    | none => (s, er .SEQUENCE)
    | some g =>
      if g.lines.length < g.expected then (discardStaging "SEQUENCE" s, er .SEQUENCE)
      else
        let t := s.modCp fun c => { c with staging := none }
        match validation s g with
        | some (code, fs) => (t, er code fs)
        | none =>
          let u := t.modCp fun c => { c with docs := c.docs ++ [g.document] }
          (u, ok [fld "DOC" g.num, fld "STATE" "DRAFT", freeDocs u])

def cpAbort (f : NoFields) (s : State) : State × Answer :=
  match f with
  | none => syntaxRefusal s
  | some _ =>
    (discardStaging "ABORTED" s, ok [fld "DISCARDED" ((s.cp.staging.map (·.num)).getD "NONE")])

/-! ## Documents in the table (R91 to R93) -/

def cpVoid (doc : Parsed String) (s0 : State) : State × Answer :=
  let s := interrupted s0
  match doc with
  | none => syntaxRefusal s
  | some d =>
    match s.docOf d with
    | none => (s, er .NOT_FOUND)
    | some x =>
      if x.state ≠ .DRAFT then (s, er .STATE)
      else
        let t := dropDoc d s
        (t, ok [fld "DOC" d, freeDocs t])

def docBay : DocState → Option Bay
  | .BOUND b => some b
  | _ => none

def headerFields (x : Doc) : List Fld :=
  [fld "DOC" x.num, fld "STATE" (docStateText x.state)] ++ fldIf (docBay x.state) "BAY" bayText ++
    [fld "TANKER" x.tanker] ++ fldIf x.carrier "CARRIER" id ++ fldIf x.driver "DRV" drvText ++
    [fld "PLAN" (planText x.plan), fld "C" (commas (x.lines.map fun l => dec l.comp)), fld "AMEND" (dec x.count)] ++
    fldIf (docBay x.state) "DEPTH" fun _ => dec x.stack.length

def cpShow (doc : Parsed String) (s0 : State) : State × Answer :=
  let s := interrupted s0
  match doc with
  | none => syntaxRefusal s
  | some d =>
    match s.docOf d with
    | none => (s, er .NOT_FOUND [bare "DOC"])
    | some x => (s, ok (headerFields x))

def docLineFields (l : DocLine) (pos : Nat) : List Fld :=
  [fld "C" (dec l.comp), fld "POS" (dec pos), fld "PROD" l.product, fld "UN" (unText l.un), fld "CLASS" (classText l.cls),
   fld "PG" (packText l.pg), fld "QTY" (dec l.qty), fld "CAP" (dec l.cap)]

def cpShowLine (a : Parsed ShowLineArgs) (s0 : State) : State × Answer :=
  let s := interrupted s0
  match a with
  | none => syntaxRefusal s
  | some a =>
    if !compInRange a.line then (s, er .RANGE)
    else match s.docOf a.doc with
      | none => (s, er .NOT_FOUND [bare "DOC"])
      | some x =>
        match x.lineOf a.line with
        | none => (s, er .NOT_FOUND [bare "LINE"])
        | some l => (s, ok (docLineFields l (x.lines.findIdx (fun m => m.comp == a.line) + 1)))

/-- An item of CP LIST (R93). -/
def docItem (x : Doc) : String :=
  x.num ++ "/" ++ match x.state with
    | .DRAFT => "D"
    | .BOUND b => "B" ++ bayText b
    | .RELEASED => "R"

def cpList (start : Parsed Nat) (s0 : State) : State × Answer :=
  let s := interrupted s0
  match start with
  | none => syntaxRefusal s
  | some i =>
    if i < 1 ∨ Config.maxDocs < i then (s, er .RANGE)
    else
      (s, ok [fld "COUNT" (dec s.cp.docs.length), fld "FROM" (dec i), fld "E" (commas ((page i 6 s.cp.docs).map docItem)),
              moreField i 6 s.cp.docs])

/-! ## Amendments (R101 to R106) -/

/-- What an amendment acts on. -/
structure AmendTarget where
  doc : Doc
  bay : Bay
  line : DocLine
deriving DecidableEq, Repr

/-- A refusal: code and fields. -/
abbrev Refused := ReplyCode × List Fld

/-- The line states that permit each kind (R101). -/
def quantityPermitted (st : LineState) : Bool := st == .OPEN || st.isQuantity
def openOnly (st : LineState) : Bool := st == .OPEN

/-- The bay's line record for c permits the kind. -/
def linePermits (s : State) (b : Bay) (c : Nat) (permits : LineState → Bool) : Bool :=
  ((s.bay b).lineOf c).any fun l => permits l.state

/-- Tests 3 to 6 of R101, and their like of R105: the document, its bay and the compartment. -/
def boundDoc (s : State) (d : String) (notFound : List Fld) : Except Refused (Doc × Bay) :=
  match s.docOf d with
  | none => .error (.NOT_FOUND, notFound)
  | some x =>
    match docBay x.state with
    | none => .error (.STATE, [])
    | some b => if (s.bay b).state = .DISPATCHING then .error (.BUSY, []) else .ok (x, b)

/-- Tests 3 to 9 of R101. -/
def amendTarget (s : State) (d : String) (c : Nat) (permits : LineState → Bool) (remove : Bool) :
    Except Refused AmendTarget :=
  match boundDoc s d [bare "DOC"] with
  | .error e => .error e
  | .ok (x, b) =>
    match x.lineOf c with
    | none => .error (.NOT_FOUND, [bare "C"])
    | some l =>
      if !linePermits s b c permits then .error (.LINE_STATE, [])
      else if remove && decide (x.lines.length = 1) then .error (.LAST_LINE, [])
      else if Config.maxStack ≤ x.stack.length then .error (.STACK_FULL, [])
      else .ok ⟨x, b, l⟩

/-- The lines with the line of a compartment replaced. -/
def replaceLine (l : DocLine) (ls : List DocLine) : List DocLine := ls.map fun m => if m.comp == l.comp then l else m

/-- The document after a taken amendment (R101). -/
def Doc.amended (k : AmendKind) (old : DocLine) (lines : List DocLine) (x : Doc) : Doc :=
  { x with lines := lines, count := satAdd Config.maxCount16 x.count 1, stack := x.stack ++ [⟨k, old⟩] }

/-- The state of the bay's line record for c, as a reply gives it. -/
def lineText (s : State) (b : Bay) (c : Nat) : String :=
  (((s.bay b).lineOf c).map fun l => lineStateText l.state).getD "REMOVED"

def amendReply (d : String) (c : Nat) (k : AmendKind) (line : String) (t : State) : Answer :=
  let x := t.docOf d
  ok [fld "DOC" d, fld "C" (dec c), fld "KIND" (amendText k), fld "DEPTH" (dec ((x.map (·.stack.length)).getD 0)),
      fld "COUNT" (dec ((x.map (·.count)).getD 0)), fld "LINE" line]

/-- A taken amendment: the document changes, the bay is told, the reply follows (R101, R106). -/
def takeAmendment (d : String) (g : AmendTarget) (k : AmendKind) (lines : List DocLine) (n : AmendNote) (s : State) :
    State × Answer :=
  let t := noteAmendment g.bay n (modDoc d (Doc.amended k g.line lines) s)
  let line := match k with
    | .REMOVE _ => "REMOVED"
    | _ => lineText t g.bay g.line.comp
  (t, amendReply d g.line.comp k line t)

def cpAmendQty (a : Parsed AmendQtyArgs) (s0 : State) : State × Answer :=
  let s := interrupted s0
  match a with
  | none => syntaxRefusal s
  | some a =>
    if !compInRange a.comp || !volumeInRange a.qty then (s, er .RANGE)
    else match amendTarget s a.doc a.comp quantityPermitted false with
      | .error e => (s, er e.1 e.2)
      | .ok g =>
        if g.line.cap < a.qty then (s, er .RANGE)
        else takeAmendment a.doc g .QTY (replaceLine { g.line with qty := a.qty } g.doc.lines) (.quantity a.comp) s

/-- The line with the product replaced (R103). -/
def withProduct (p : Product) (l : DocLine) : DocLine :=
  { l with product := p.code, un := p.un, cls := p.cls, pg := p.pg }

def cpAmendProd (a : Parsed AmendProdArgs) (s0 : State) : State × Answer :=
  let s := interrupted s0
  match a with
  | none => syntaxRefusal s
  | some a =>
    if !compInRange a.comp then (s, er .RANGE)
    else match amendTarget s a.doc a.comp openOnly false with
      | .error e => (s, er e.1 e.2)
      | .ok g =>
        match s.st.applied.products.find? fun p => p.code == a.product with
        | none => (s, er .NOT_FOUND [bare "PROD"])
        | some p =>
          let lines := replaceLine (withProduct p g.line) g.doc.lines
          match firstFailingPair s.st.applied lines with
          | some pr => (s, er .SEGREGATION [pairField pr])
          | none => takeAmendment a.doc g .PROD lines (.product a.comp) s

def cpAmendRemove (a : Parsed AmendRemoveArgs) (s0 : State) : State × Answer :=
  let s := interrupted s0
  match a with
  | none => syntaxRefusal s
  | some a =>
    if !compInRange a.comp then (s, er .RANGE)
    else match amendTarget s a.doc a.comp openOnly true with
      | .error e => (s, er e.1 e.2)
      | .ok g =>
        let pos := g.doc.lines.findIdx fun m => m.comp == a.comp
        takeAmendment a.doc g (.REMOVE pos) (g.doc.lines.filter fun m => m.comp != a.comp) (.removed a.comp) s

/-- The lines as a withdrawal would restore them (R105). -/
def restoredLines (e : StackEntry) (ls : List DocLine) : List DocLine :=
  match e.kind with
  | .REMOVE pos => ls.insertIdx pos e.line
  | _ => replaceLine e.line ls

/-- Test 6 of R105. -/
def withdrawPermitted (s : State) (b : Bay) (e : StackEntry) : Bool :=
  match e.kind with
  | .QTY => linePermits s b e.line.comp quantityPermitted
  | .PROD => linePermits s b e.line.comp openOnly
  | .REMOVE _ => true

/-- Test 7 of R105; a failing pair is named by its two compartments (R89). -/
def withdrawInvalid (s : State) (e : StackEntry) (lines : List DocLine) : Option Refused :=
  let c := s.st.applied
  if !c.hasProduct e.line.product then some (.NOT_FOUND, [])
  else if !lineMatchesProduct (c.product e.line.product) e.line then some (.PRODUCT_MISMATCH, [])
  else (firstFailingPair c lines).map fun p => (.SEGREGATION, [pairField p])

/-- What the bay is told of a withdrawal (R106). -/
def withdrawNote (e : StackEntry) : AmendNote :=
  match e.kind with
  | .QTY => .quantity e.line.comp
  | .PROD => .product e.line.comp
  | .REMOVE pos => .restored e.line.comp pos

def cpWithdraw (doc : Parsed String) (s0 : State) : State × Answer :=
  let s := interrupted s0
  match doc with
  | none => syntaxRefusal s
  | some d =>
    match boundDoc s d [] with
    | .error e => (s, er e.1 e.2)
    | .ok (x, b) =>
      match x.stack.getLast? with
      | none => (s, er .STACK_EMPTY)
      | some e =>
        if !withdrawPermitted s b e then (s, er .LINE_STATE)
        else
          let lines := restoredLines e x.lines
          match withdrawInvalid s e lines with
          | some r => (s, er r.1 r.2)
          | none =>
            let t := noteAmendment b (withdrawNote e)
              (modDoc d (fun x => { x with lines := lines, count := x.count - 1, stack := x.stack.dropLast }) s)
            (t, amendReply d e.line.comp e.kind (lineText t b e.line.comp) t)

end Sys2Proof.Machine
end

