-- ==== Sys2Proof/Machine/Duty.lean ====
section
/-! DEFINITION. Machine/Duty.lean: the requests of the duty table (03_duty_table.md, 04_hours_allowance.md), and what
DT does when the log reports a TRIP_CLOSE record (R50). -/

namespace Sys2Proof.Machine

/-- 00000000 is no driver number (R44). -/
def driverZero (n : Nat) : Bool := n == 0
def drvFld (n : Nat) : Fld := fld "DRV" (drvText n)
def freeDrivers (s : State) : Fld := fld "FREE" (dec (Config.maxDrivers - s.dt.drivers.length))
/-- ENTRIES and PRUNED of a reply (R46): the list before pruning and after. -/
def prunedFields (before after : List Entry) : List Fld :=
  [fld "ENTRIES" (dec after.length), fld "PRUNED" (dec (before.length - after.length))]

/-! ## Status, enrolment and presence (R44 to R47, R56) -/

def driverCount (s : State) (p : DriverStatus → Bool) : String := dec (s.dt.drivers.filter fun x => p x.status).length

def dtStatus (f : NoFields) (s : State) : State × Answer :=
  match f with
  | none => syntaxRefusal s
  | some _ =>
    (s, ok [fld "DRIVERS" (dec s.dt.drivers.length), fld "ABSENT" (driverCount s (· == .ABSENT)),
      fld "ONSITE" (driverCount s (· == .ON_SITE)),
      fld "ATBAY" (driverCount s fun d => d != .ABSENT && d != .ON_SITE && d != .ON_TRIP),
      fld "ONTRIP" (driverCount s (· == .ON_TRIP)), fld "OUTBOX" (dec s.dt.outbox.length),
      fld "TRIPS" (dec s.dt.trips), fld "LOGFULL" (dec s.dt.logfull)])

def dtEnrol (drv : Parsed Nat) (s : State) : State × Answer :=
  match drv with
  | none => syntaxRefusal s
  | some n =>
    if driverZero n then (s, er .RANGE)
    else if (s.driverOf n).isSome then (s, er .EXISTS)
    else if Config.maxDrivers ≤ s.dt.drivers.length then (s, er .TABLE_FULL)
    else
      let t := s.modDt fun d => { d with drivers := insertDriver ⟨n, .ABSENT, [], none, none, false⟩ d.drivers }
      (t, ok [drvFld n, freeDrivers t])

def dtRemove (drv : Parsed Nat) (s : State) : State × Answer :=
  match drv with
  | none => syntaxRefusal s
  | some n =>
    if driverZero n then (s, er .RANGE)
    else match s.driverOf n with
      | none => (s, er .NOT_FOUND)
      | some x =>
        if x.status ≠ .ABSENT then (s, er .STATE)
        else
          let t := s.modDt fun d => { d with drivers := d.drivers.filter fun y => y.num != n }
          (t, ok [drvFld n, freeDrivers t])

/-- The capacity test of R43 on a list already pruned. -/
def listFull (l : List Entry) : Bool := decide (Config.maxEntries < l.length)

def dtArrive (drv : Parsed Nat) (s : State) : State × Answer :=
  match drv with
  | none => syntaxRefusal s
  | some n =>
    if driverZero n then (s, er .RANGE)
    else if !s.ck.isSet then (s, er .CLOCK_UNSET)
    else match s.driverOf n with
      | none => (s, er .NOT_FOUND)
      | some x =>
        match x.status with
        | .ON_TRIP => (s, er .TRIP_OPEN)
        | .ON_SITE | .AT_BAY _ => (s, er .STATE)
        | .ABSENT =>
          let opened := openEntry s.nowMin .WORK x.list
          let l := s.pruned opened
          if listFull l then (s, er .LIST_FULL)
          else
            (modDriver n (fun x => { x with status := .ON_SITE, list := l }) s,
             ok ([drvFld n, fld "STATUS" "ON_SITE", fld "START" (minuteText s.nowMin)] ++ prunedFields opened l))

def dtDepart (drv : Parsed Nat) (s : State) : State × Answer :=
  match drv with
  | none => syntaxRefusal s
  | some n =>
    if driverZero n then (s, er .RANGE)
    else match s.driverOf n with
      | none => (s, er .NOT_FOUND)
      | some x =>
        match x.status with
        | .ON_TRIP => (s, er .TRIP_OPEN)
        | .ABSENT | .AT_BAY _ => (s, er .STATE)
        | .ON_SITE =>
          let closed := closeOpen s.nowMin x.list
          let l := s.pruned closed
          (modDriver n (fun x => { x with status := .ABSENT, list := l }) s,
           ok ([drvFld n, fld "STATUS" "ABSENT", fld "END" (minuteText s.nowMin)] ++ prunedFields closed l))

/-! ## Import (R48, R49) -/

/-- The interval of an IMPORT, when every value is in range (R48, test 2). -/
def importEntry (a : ImportArgs) : Option Entry :=
  match a.kind with
  | none => none
  | some k =>
    if driverZero a.drv || !dateValid a.start || !dateValid a.stop || !inSetSpan a.start || !inSetSpan a.stop ||
        decide (dateMinutes a.stop ≤ dateMinutes a.start) then none
    else some ⟨(dateMinutes a.start).toNat, some (dateMinutes a.stop).toNat, k, .IMPORT⟩

def dtImport (a : Parsed ImportArgs) (s : State) : State × Answer :=
  match a with
  | none => syntaxRefusal s
  | some a =>
    match importEntry a with
    | none => (s, er .RANGE)
    | some e =>
      if !s.ck.isSet then (s, er .CLOCK_UNSET)
      else match s.driverOf a.drv with
        | none => (s, er .NOT_FOUND)
        | some x =>
          if s.nowMin < e.till s.nowMin then (s, er .FUTURE_TIME)
          else if x.pend then (s, er .BUSY)
          else if x.list.any (overlaps s.nowMin e) then (s, er .OVERLAP)
          else
            let inserted := insertEntry e x.list
            let l := s.pruned inserted
            if listFull l then (s, er .LIST_FULL)
            else
              (modDriver a.drv (fun x => { x with list := l }) s,
               ok (drvFld a.drv :: prunedFields inserted l ++ [fld "KEPT" (yesNo (l.contains e))]))

/-! ## Trip closure (R52 to R54) -/

/-- The segments of a CLOSETRIP, when every kind and minute count is in range (R52, test 2). -/
def tripItems (segs : List SegArg) : Option (List TripItem) :=
  segs.mapM fun g => g.kind.bind fun k => if 1 ≤ g.minutes ∧ g.minutes ≤ 1440 then some ⟨k, g.minutes⟩ else none

/-- The start of the open entry. -/
def departureOf (l : List Entry) : Option Nat := (l.find? fun e => e.stop.isNone).map (·.start)

def dtClosetrip (a : Parsed ClosetripArgs) (s : State) : State × Answer :=
  match a with
  | none => syntaxRefusal s
  | some a =>
    match tripItems a.segs with
    | none => (s, er .RANGE)
    | some items =>
      if driverZero a.drv || !dateValid a.stop then (s, er .RANGE)
      else if !s.ck.isSet then (s, er .CLOCK_UNSET)
      else match s.driverOf a.drv with
        | none => (s, er .NOT_FOUND)
        | some x =>
          if x.status ≠ .ON_TRIP then (s, er .STATE)
          else if (s.nowMin : Int) < dateMinutes a.stop then (s, er .FUTURE_TIME)
          else match departureOf x.list with
            | none => (s, er .STATE)
            | some dep =>
              if dateMinutes a.stop < (dep : Int) then (s, er .BEFORE_DEPARTURE)
              else if Config.maxDtOutbox ≤ s.dt.outbox.length then (s, er .BUSY)
              else
                let stop := (dateMinutes a.stop).toNat
                let closed := closeTrip stop items x.list
                let l := s.pruned closed
                if listFull l then (s, er .LIST_FULL)
                else
                  let doc := x.trip.getD ""
                  let r := s.makeRec (.TRIP_CLOSE ⟨a.drv, doc, dep, stop, items⟩)
                  let s1 := modDriver a.drv (fun x => { x with list := l, status := .ABSENT, trip := none }) s
                  let s2 := cpRemove doc (postFrom .DT (s1.modDt fun d => { d with outbox := d.outbox ++ [r] }))
                  let s3 := s2.modDt fun d =>
                    { d with trips := satAdd Config.maxCount16 d.trips 1, lastTrip := some ⟨a.drv, doc, dep, stop⟩ }
                  (raise .DT .TRIP (tripFields s3.dt) s3,
                   ok ([drvFld a.drv, fld "DOC" doc, fld "LAID" (dec (layTrip stop dep items).length)] ++
                     prunedFields closed l))

/-! ## Readout (R55, R77, R78) -/

def statusBay : DriverStatus → Option Bay
  | .AT_BAY b => some b
  | _ => none

def sourceLetter : EntrySource → String
  | .TERMINAL => "T" | .IMPORT => "I" | .TRIP => "P"
def kindLetter : DutyKind → String
  | .DRIVE => "D" | .WORK => "W" | .REST => "R"

/-- An item of DT LIST (R55). -/
def entryItem (e : Entry) : String :=
  joinWith "/" [twelve e.start, e.stop.elim "OPEN" (fun t => dec (t - e.start)), kindLetter e.kind, sourceLetter e.source]

def dtList (a : Parsed DtListArgs) (s : State) : State × Answer :=
  match a with
  | none => syntaxRefusal s
  | some a =>
    if driverZero a.drv || decide (a.start < 1) || decide (Config.maxEntries < a.start) then (s, er .RANGE)
    else match s.driverOf a.drv with
      | none => (s, er .NOT_FOUND)
      | some x =>
        (s, ok ([drvFld a.drv, fld "STATUS" (statusText x.status)] ++ fldIf (statusBay x.status) "BAY" bayText ++
          fldIf x.trip "TRIP" id ++ (if x.pend then [fld "PEND" "YES"] else []) ++
          fldIf x.last "VERDICT" (fun v => commas [verdictText v.verdict, decInt v.least, testText v.test, twelve v.now]) ++
          [fld "COUNT" (dec x.list.length), fld "FROM" (dec a.start),
           fld "E" (commas ((page a.start 6 x.list).map entryItem)), moreField a.start 6 x.list]))

def State.figures (s : State) (l : List Entry) : HoursFigures := hoursFigures s.st.applied.hours s.weekMin s.nowMin l

/-- The fields common to both forms of QUERY (R78). -/
def queryFields (s : State) (x : Driver) (f : HoursFigures) : List Fld :=
  [drvFld x.num, fld "STATUS" (statusText x.status), fld "NOW" (twelve s.nowMin),
   fld "ALLOW" (commas [dec f.aDay, dec f.aWeek, dec f.aSpan, dec f.aCont])]

def dtQuery (drv : Parsed Nat) (s : State) : State × Answer :=
  match drv with
  | none => syntaxRefusal s
  | some n =>
    if driverZero n then (s, er .RANGE)
    else if !s.ck.isSet then (s, er .CLOCK_UNSET)
    else match s.driverOf n with
      | none => (s, er .NOT_FOUND)
      | some x =>
        let f := s.figures x.list
        (s, ok (queryFields s x f ++
          [fld "DSTART" (twelve f.dayStart), fld "CSTART" (twelve f.contStart), fld "WSTART" (twelve s.weekMin),
           fld "DRIVE" (commas [dec f.dayDrive, dec f.weekDrive, dec f.contDrive]), fld "SPAN" (dec f.span)]))

def dtQueryPlan (a : Parsed QueryPlanArgs) (s : State) : State × Answer :=
  match a with
  | none => syntaxRefusal s
  | some a =>
    if driverZero a.drv || !planInRange a.plan then (s, er .RANGE)
    else if !s.ck.isSet then (s, er .CLOCK_UNSET)
    else match s.driverOf a.drv with
      | none => (s, er .NOT_FOUND)
      | some x =>
        let f := s.figures x.list
        let v := s.verdict x.list a.plan
        (s, ok (queryFields s x f ++
          [fld "C" (dec v.capacity),
           fld "SLACK" (commas [decInt v.slackDay, decInt v.slackWeek, decInt v.slackSpan, decInt v.slackCont]),
           fld "VERDICT" (verdictText v.verdict), fld "LEAST" (leastText v.least v.test),
           fld "MARKS" (commasOrNone (v.marks.map testText))]))

/-! ## The log's reports (R50, R51) -/

/-- The record at the head of DT's outbox leaves it, and the next is posted. -/
def dtRecordLeaves (s : State) : State := postFrom .DT (s.modDt fun d => { d with outbox := d.outbox.drop 1 })

def dtRefused (s : State) : State :=
  let t := s.modDt fun d => { d with logfull := satAdd Config.maxCount16 d.logfull 1 }
  dtRecordLeaves (raise .DT .TRIP (tripFields t.dt) t)

end Sys2Proof.Machine
end

