-- ==== Sys2Proof/Machine/Clock.lean ====
section
/-! DEFINITION. Machine/Clock.lean: the requests and events of the clock (02_clock_calendar_and_terminal_day.md), and
what CK does at a warm start from power loss. -/

namespace Sys2Proof.Machine

/-! ## Daylight saving (R25 to R27) -/

/-- The DST-in-force state for the present count (R26). -/
def Ck.inForce (c : Ck) : Bool := inForceAt c.fwd c.rev c.count
def Ck.nextText (c : Ck) : String := timeOrNone (nextInstant c.fwd c.rev c.count)

/-- The DST notice: the state changed at `at_`, from `old` to the present state (R207, log 16). -/
def dstFields (c : Ck) (old : Bool) (at_ : Nat) : List Fld :=
  [fld "IN_FORCE" (yesNo c.dst), fld "AT" (timeText at_), fld "BEFORE" (timeText (at_ + dstOffset old)),
   fld "AFTER" (timeText (at_ + dstOffset c.dst)), fld "NEXT" c.nextText]

/-- CK recomputes the state; `tell` says from the old and the new state whether the notice is raised. A change made here
is no forward instant: where it comes between a tick that reaches one and its DST_INSTANT, the hour that the instant skips
is not tested (R30, log 28). -/
def recomputeDst (tell : Bool → Bool → Bool) (s : State) : State :=
  let t := s.modCk fun c => { c with dst := c.inForce }
  raiseIf (tell s.ck.dst t.ck.dst) .CK .DST (dstFields t.ck s.ck.dst t.ck.count) t

/-! ## Day close (R28 to R30) -/

def fieldMatches (m : Option Nat) (n : Nat) : Bool := m.all (· == n)

/-- A local minute, counted from 2000-01-01 00:00 local, matches (R28). -/
def Ck.minuteMatches (c : Ck) (m : Nat) : Bool :=
  fieldMatches c.matchMin (m % 60) && fieldMatches c.matchHour (m / 60 % 24) && fieldMatches c.matchWday (weekday (m / 1440))

/-- The date is later than the last fired date, or none has fired (R29). -/
def Ck.mayFire (c : Ck) (date : Nat) : Bool := c.lastFired.all fun d => decide (d < date)

/-- A record into CK's outbox, posted when CK has no append pending (R23). -/
def ckRecord (r : LogRec) (s : State) : State := postFrom .CK (s.modCk fun c => { c with outbox := c.outbox ++ [r] })

/-- The match fires for a local date (R29). -/
def fireDay (date : Nat) (s : State) : State :=
  ckRecord (s.makeRec (.DAY_CLOSE DayCounts.zero)) (s.modCk fun c => { c with lastFired := some date })

/-- A local minute is tested for its date (R29). -/
def testMinute (m : Nat) (s : State) : State :=
  if s.ck.minuteMatches m && s.ck.mayFire (m / 1440) then fireDay (m / 1440) s else s

/-- The present local minute. -/
def State.localMin (s : State) : Nat := s.ck.localAt s.ck.count / 60

/-- The hours and minutes a match allows in a date. -/
def matchTimes (c : Ck) : List Nat :=
  let hours := c.matchHour.elim (List.range 24) fun h => [h]
  let mins := c.matchMin.elim (List.range 60) fun m => [m]
  hours.flatMap fun h => mins.map fun m => 60 * h + m

/-- The skipped hour that begins at the forward instant `f` holds a matching minute (R30); its date is that of f. -/
def skippedMatches (c : Ck) (f : Nat) : Bool :=
  (List.range 60).any fun i => c.minuteMatches (f / 60 + i)

/-- The first standard minutes that a loss of the supply left untested: of the minutes reached, and of the forward
instants. -/
structure Untested where
  minute : Nat
  skip : Nat
deriving DecidableEq, Repr

/-- What a loss at the second `loss` left untested: the minutes after its own, and its own when the loss came before its
test; the forward instants after its minute, and the one whose DST_INSTANT it came before (R30, log 28). -/
def Ck.untested (c : Ck) (loss : Nat) : Untested :=
  ⟨if c.minuteDue then loss / 60 else loss / 60 + 1,
   if c.dstAtLoss == inForceAt c.fwd c.rev loss then loss / 60 + 1 else reachedInstant c.fwd c.rev loss / 60⟩

/-- The local minute m passed untested before the standard minute `now`, or was skipped by a forward instant up to it
(R30). -/
def minutePassed (c : Ck) (u : Untested) (now m : Nat) : Bool :=
  let standard := !inForceAt c.fwd c.rev (60 * m)
  let saving := decide (60 ≤ m) && inForceAt c.fwd c.rev (60 * (m - 60))
  let within (k : Nat) : Bool := decide (u.minute ≤ k) && decide (k < now)
  (standard && within m) || (saving && within (m - 60)) ||
    (!standard && !saving && c.fwd.any fun f =>
      let i := forwardInstant f (yearOf (60 * m)) / 60
      decide (u.skip ≤ i) && decide (i ≤ now))

/-- The latest date whose matching minute passed while the supply was off, not fired yet (R30, log 22). -/
def lateDate (c : Ck) (u : Untested) (now : Nat) : Option Nat :=
  let today := c.localAt (60 * now) / daySeconds
  ((List.range 9).map fun i => today - i).find? fun d =>
    c.mayFire d && (matchTimes c).any fun t =>
      fieldMatches c.matchWday (weekday d) && minutePassed c u now (1440 * d + t)

/-! ## Events (R18, R27, R29, R32) -/

/-- The count advances by one and stops at its maximum; a new minute falls due for its test (R18, R29, log 28). -/
def tick (s : State) : State :=
  s.modCk fun c =>
    let n := min Config.maxCount (c.count + 1)
    { c with count := n, minuteDue := c.minuteDue || (c.isSet && s.supply && n != c.count && n % 60 == 0) }

/-- A new local minute is tested (R29), by the match as it stands at this row (R28, log 28). -/
def minuteReached (s : State) : State :=
  if s.supply && s.ck.isSet && s.ck.minuteDue && s.ck.dst == s.ck.inForce then
    testMinute s.localMin (s.modCk fun c => { c with minuteDue := false })
  else s

/-- A DST instant has been reached (R27, R30). -/
def dstReached (s : State) : State :=
  if s.ck.isSet && s.ck.dst != s.ck.inForce then
    let at_ := reachedInstant s.ck.fwd s.ck.rev s.ck.count
    let t := s.modCk fun c => { c with dst := c.inForce }
    if s.supply then
      let u := raise .CK .DST (dstFields t.ck s.ck.dst at_) t
      if t.ck.dst && skippedMatches t.ck at_ && t.ck.mayFire (at_ / daySeconds) then fireDay (at_ / daySeconds) u else u
    else t
  else s

/-- The supply is lost (R32): the stamps, and every output goes inactive (log 5). -/
def supplyLost (s : State) : State :=
  let now := if s.ck.isSet then some s.ck.count else none
  let t := s.modCk fun c =>
    { c with latestLoss := now, firstLoss := c.firstLoss.or now, dstAtLoss := c.dst }
  { (forBays (fun b u => u.modBay b fun x => { x with release := false }) t).modDv
      (fun d => { d with attnPulse := false }) with supply := false }

/-! ## Setting the time (R21 to R24) -/

def stampStd (r : LogRec) : List Nat := (r.stamp.map (·.std)).toList

/-- The times of the history point (R22); a record being written counts as one in the store (log 19). -/
def historyTimes (s : State) : List Nat :=
  (s.dt.drivers.flatMap fun x => x.list.flatMap fun e => (60 * e.start) :: (e.stop.map (60 * ·)).toList) ++
  (s.dl.segs.toList.flatMap fun g =>
    if g.state = .ACTIVE ∨ g.state = .CLOSED then g.records.flatMap fun r => stampStd r.record else []) ++
  (s.dl.writing.toList.flatMap fun w => stampStd w.record) ++
  (s.dl.queue.flatMap fun a => stampStd a.record) ++
  (allBays.flatMap fun b => (s.bay b).outbox.flatMap stampStd) ++
  (s.dt.outbox.flatMap stampStd) ++ (s.ck.outbox.flatMap stampStd) ++ (s.st.outbox.toList.flatMap stampStd)

/-- The history point, if any (R22). -/
def historyPoint (s : State) : Option Nat := (historyTimes s).max?

/-- The time of a CK SET in seconds, when it is in range (R21). -/
def setTime (a : CkSetArgs) : Option Nat :=
  if dateValid a.date && inSetSpan a.date && decide (a.second ≤ 59) then
    some ((dateMinutes a.date).toNat * 60 + a.second)
  else none

def ckSet (a : Parsed CkSetArgs) (s : State) : State × Answer :=
  match a with
  | none => syntaxRefusal s
  | some a =>
    match setTime a with
    | none => (s, er .RANGE)
    | some t =>
      if s.anyBayBusy || s.dl.scan || decide (2 ≤ s.ck.outbox.length) then (s, er .BUSY)
      else if (historyPoint s).any fun h => decide (t < h) then (s, er .TIME_BEFORE_HISTORY)
      else
        let old := if s.ck.isSet then some s.ck.count else none
        let s1 := recomputeDst (fun o n => o != n || !s.ck.isSet)
          (s.modCk fun c => { c with count := t, isSet := true, minuteDue := false })
        (ckRecord (s1.makeRec (.CLOCK_SET old t)) s1, ok [fld "OLD" (timeOrNone old), fld "NEW" (timeText t)])

/-! ## DST rules (R25) -/

def selInRange : DateSel → Bool
  | .DATE d => decide (1 ≤ d) && decide (d ≤ 31)
  | .WEEKDAY w d => ((decide (1 ≤ w) && decide (w ≤ 5)) || w == 7) && decide (d ≤ 6)

/-- The two months are at least two apart, counted round the year (R25). -/
def monthsApart (a b : Nat) : Bool :=
  let d := max a b - min a b
  decide (2 ≤ d) && decide (d ≤ 10)

/-- The rule written, when every value is in range (R25, tests 2 and 3). -/
def ruleInRange (c : Ck) (a : RuleArgs) : Option (RuleName × DstRule) :=
  match a.rule, a.sel with
  | some n, some sel =>
    let other := match n with
      | .FWD => c.rev
      | .REV => c.fwd
    if decide (1 ≤ a.month) && decide (a.month ≤ 12) && selInRange sel && decide (a.hour ≤ 23) &&
        !(n == .REV && a.month == 1 && a.hour == 0) && other.all (fun o => monthsApart a.month o.month) then
      some (n, ⟨a.month, sel, a.hour⟩)
    else none
  | _, _ => none

def ruleName : RuleName → String
  | .FWD => "FWD" | .REV => "REV"

def ruleEcho (n : RuleName) (r : DstRule) : List Fld :=
  [fld "RULE" (ruleName n), fld "MONTH" (dec r.month)] ++
    (match r.sel with
     | .DATE d => [fld "SEL" "DATE", fld "DAY" (dec d)]
     | .WEEKDAY w d => [fld "SEL" "WEEKDAY", fld "WEEK" (dec w), fld "WDAY" (dec d)]) ++ [fld "HOUR" (dec r.hour)]

/-- A rule as CK RULES gives it (R25). -/
def ruleText (r : Option DstRule) : String :=
  match r with
  | none => "NONE"
  | some r => commas ([dec r.month] ++ (match r.sel with
      | .DATE d => ["DATE", dec d]
      | .WEEKDAY w d => ["WEEKDAY", dec w, dec d]) ++ [dec r.hour])

/-- The rules change and the state is recomputed, by the count as it stands while the clock is unset (log 37); the notice
needs the clock set (R25). -/
def writeRules (f : Ck → Ck) (s : State) : State := recomputeDst (fun o n => o != n && s.ck.isSet) (s.modCk f)

def ckDstrule (a : Parsed RuleArgs) (s : State) : State × Answer :=
  match a with
  | none => syntaxRefusal s
  | some a =>
    match ruleInRange s.ck a with
    | none => (s, er .RANGE)
    | some (n, r) =>
      if s.anyBayBusy then (s, er .BUSY)
      else
        (writeRules (fun c => match n with
            | .FWD => { c with fwd := some r }
            | .REV => { c with rev := some r }) s,
         ok (ruleEcho n r))

def ckDstruleOff (f : NoFields) (s : State) : State × Answer :=
  match f with
  | none => syntaxRefusal s
  | some _ =>
    if s.anyBayBusy then (s, er .BUSY)
    else (writeRules (fun c => { c with fwd := none, rev := none }) s, ok [bare "OFF"])

def ckRules (f : NoFields) (s : State) : State × Answer :=
  match f with
  | none => syntaxRefusal s
  | some _ => (s, ok [fld "FWD" (ruleText s.ck.fwd), fld "REV" (ruleText s.ck.rev)])

/-! ## Day-close match, stamps and readout (R28, R34, R35) -/

def numberOrOff (n : Option Nat) : String := n.elim "OFF" dec

def ckDayclose (a : Parsed DaycloseArgs) (s : State) : State × Answer :=
  match a with
  | none => syntaxRefusal s
  | some a =>
    match a.minute, a.hour, a.wday with
    | some mi, some ho, some wd =>
      if mi.all (fun m => decide (m ≤ 59)) && ho.all (fun h => decide (h ≤ 23)) && wd.all (fun d => decide (d ≤ 6)) then
        (s.modCk fun c => { c with matchMin := mi, matchHour := ho, matchWday := wd },
         ok [fld "MIN" (numberOrOff mi), fld "HOUR" (numberOrOff ho), fld "WDAY" (numberOrOff wd)])
      else (s, er .RANGE)
    | _, _, _ => (s, er .RANGE)

def ckClearstamp (f : NoFields) (s : State) : State × Answer :=
  match f with
  | none => syntaxRefusal s
  | some _ => (s.modCk fun c => { c with firstLoss := none }, ok [])

def ckStatus (f : NoFields) (s : State) : State × Answer :=
  match f with
  | none => syntaxRefusal s
  | some _ =>
    let c := s.ck
    let enabled := c.fwd.isSome && c.rev.isSome
    (s, ok ([fld "SET" (yesNo c.isSet)] ++
      (if c.isSet then [fld "STD" (timeText c.count), fld "LOCAL" (timeText (c.localAt c.count))] else []) ++
      [fld "DST" (if !enabled then "DISABLED" else if c.dst then "ON" else "OFF"), fld "NEXTDST" c.nextText] ++
      (if c.isSet then [fld "WEEK" (minuteText s.weekMin)] else []) ++
      [fld "MATCH" (commas [numberOrOff c.matchMin, numberOrOff c.matchHour, numberOrOff c.matchWday]),
       fld "LASTDC" (c.lastFired.elim "NONE" dateText), fld "FIRSTLOSS" (timeOrNone c.firstLoss),
       fld "RESTORE" (timeOrNone c.lastRestore), fld "OUTBOX" (dec c.outbox.length)]))

/-! ## A warm start from power loss (R33) -/

def powerFields (c : Ck) (restore : Option Nat) : List Fld :=
  [fld "LOSS" (timeOrNone c.latestLoss), fld "RESTORE" (timeOrNone restore), fld "FIRSTLOSS" (timeOrNone c.firstLoss),
   fld "LASTRESTORE" (timeOrNone c.lastRestore)]

/-- The POWER record goes into the outbox; the start posts it (R33, items 1 and 2). -/
def powerRecord (s : State) : State :=
  let restore := if s.ck.isSet then some s.ck.count else none
  let t := s.modCk fun c => { c with lastRestore := restore.or c.lastRestore, outbox := [] }
  t.modCk fun c => { c with outbox := [t.makeRec (.POWER c.latestLoss restore)] }

/-- A day close into the outbox without posting: the start posts it. -/
def fireQuiet (date : Nat) (s : State) : State :=
  s.modCk fun c => { c with lastFired := some date, outbox := c.outbox ++ [s.makeRec (.DAY_CLOSE DayCounts.zero)] }

/-- The late day close, then the minute at start (R30, R33 item 4); `old` is the clock as the interruption left it. The
present minute is tested also where the interruption began inside it, after its test or after a SET into it (log 44). -/
def lateClose (old : Ck) (s : State) : State :=
  if s.ck.isSet then
    let t := match (s.ck.latestLoss.bind fun l => lateDate s.ck (old.untested l) s.nowMin) with
      | some d => fireQuiet d s
      | none => s
    let m := t.localMin
    if t.ck.minuteMatches m && t.ck.mayFire (m / 1440) then fireQuiet (m / 1440) t else t
  else s

/-- What CK does at a warm start from power loss, in the order of R33 (log 39). -/
def clockRestore (s : State) : State :=
  let restore := if s.ck.isSet then some s.ck.count else none
  let s1 := powerRecord s
  let s2 := s1.modCk fun c => { c with dst := c.inForce, minuteDue := false }
  let s3 := raiseIf (s2.ck.dst != s.ck.dstAtLoss && s.ck.isSet) .CK .DST (dstFields s2.ck s.ck.dstAtLoss s2.ck.count) s2
  let s4 := lateClose s.ck s3
  raise .CK .POWER (powerFields s4.ck restore) s4

/-- The record at the head of CK's outbox leaves it, written or refused, and the next is posted (R23). -/
def ckRecordLeaves (s : State) : State := postFrom .CK (s.modCk fun c => { c with outbox := c.outbox.drop 1 })

end Sys2Proof.Machine
end

