-- ==== Sys2Proof/Machine/SettingsOps.lean ====
section
/-! DEFINITION. Machine/SettingsOps.lean: the requests of the settings unit and the completion of an apply
(10_settings_and_supervisor_key.md). -/

namespace Sys2Proof.Machine

/-! ## Changed sections (R193) -/

/-- The sections in which two copies differ, in the order of R193 (log 48). -/
def changedSections (a b : Settings) : List Section :=
  (if a.products != b.products then [.PRODUCT] else []) ++ (if a.matrix != b.matrix then [.SEGREGATION] else []) ++
    (if a.bays != b.bays then [.BAY] else []) ++ (if a.hours != b.hours then [.HOURS] else []) ++
    (if a.tol != b.tol then [.TOLERANCE] else []) ++ (if a.weekStart != b.weekStart then [.CALENDAR] else []) ++
    (if a.period != b.period then [.SAMPLER] else []) ++ (if a.attn != b.attn then [.LINK] else [])

def State.changed (s : State) : List Section := changedSections s.st.applied s.st.staging

/-- The sections of CHANGED, or NONE (R198, R200; in the APPLY reply and the APPLIED notice log 45). -/
def sectionsText (l : List Section) : String := commasOrNone (l.map sectionText)
def sectionWord (x : Section) : Fld := bare (sectionText x)

/-- A SET or DISCARD waits for no apply (R197). -/
def State.applying (s : State) : Bool := s.st.apply.isSome

def modStaging (f : Settings → Settings) (s : State) : State := s.modSt fun t => { t with staging := f t.staging }

/-! ## Readout (R198) -/

def stStatus (f : NoFields) (s : State) : State × Answer :=
  match f with
  | none => syntaxRefusal s
  | some _ =>
    (s, ok [fld "APPLY" (s.st.apply.elim "IDLE" fun w => "BUSY," ++ dec w), fld "CHANGED" (sectionsText s.changed),
      fld "DEFAULTS" (yesNo s.st.defaults), fld "PRODUCTS" (dec s.st.applied.products.length),
      fld "OUTBOX" (dec s.st.outbox.toList.length), fld "KEY" (if s.supv then "ON" else "OFF")])

def productFields (p : Product) : List Fld :=
  [fld "CODE" p.code, fld "UN" (unText p.un), fld "CLASS" (classText p.cls), fld "PG" (packText p.pg),
   fld "GROUP" (groupText p.group), fld "ACOLD" (dec p.aCold), fld "BCOLD" (dec p.bCold), fld "AHOT" (dec p.aHot),
   fld "BHOT" (dec p.bHot)]

def bayFields (n : Nat) (e : BayEntry) : List Fld :=
  [fld "N" (dec n), fld "ENABLE" (yesNo e.enabled), fld "F" (dec e.factor), fld "STEP" (dec e.step),
   fld "PAUSE" (dec e.pause)]

def hoursFields (h : HoursParams) : List Fld :=
  [fld "DDAY" (dec h.dDay), fld "DCONT" (dec h.dCont), fld "BMIN" (dec h.bMin), fld "RDAILY" (dec h.rDaily),
   fld "DWEEK" (dec h.dWeek), fld "SSPAN" (dec h.sSpan), fld "M" (dec h.margin)]

/-- The fields of a section that is read whole (R198). -/
def wholeFields (c : Settings) : Section → List Fld
  | .HOURS => hoursFields c.hours
  | .TOLERANCE => [fld "ABS" (dec c.tol.abs), fld "PERMILLE" (dec c.tol.permille)]
  | .CALENDAR => [fld "WEEKSTART" (dec c.weekStart)]
  | .SAMPLER => [fld "PERIOD" (dec c.period)]
  | .LINK => [fld "ATTN" (attnText c.attn)]
  | _ => []

/-- What SHOW answers of one copy (R198). -/
def showAnswer (c : Settings) (a : ShowArgs) : Answer :=
  let w := sectionWord a.sec
  match a.sel with
  | .whole => ok (w :: wholeFields c a.sec)
  | .code p =>
    match c.products.find? fun x => x.code == p with
    | some x => ok (w :: productFields x)
    | none => er .NOT_FOUND
  | .start i =>
    if i < 1 ∨ Config.maxProducts < i then er .RANGE
    else ok [w, fld "COUNT" (dec c.products.length), fld "FROM" (dec i),
             fld "E" (commas ((page i 8 c.products).map (·.code))), moreField i 8 c.products]
  | .row none => er .RANGE
  | .row (some x) => ok [w, fld "ROW" (groupText x), fld "E" (joinWith "" (c.matrix[x].toList.map entryLetter))]
  | .bay n =>
    if h : 1 ≤ n ∧ n ≤ 8 then ok (w :: bayFields n (c.bays[n - 1]'(by omega))) else er .RANGE

def stShow (a : Parsed ShowArgs) (s : State) : State × Answer :=
  match a with
  | none => syntaxRefusal s
  | some a => (s, showAnswer (if a.staged then s.st.staging else s.st.applied) a)

def stDiscard (f : NoFields) (s : State) : State × Answer :=
  match f with
  | none => syntaxRefusal s
  | some _ =>
    if s.applying then (s, er .BUSY)
    else (s.modSt fun t => { t with staging := t.applied }, ok [fld "CHANGED" "NONE"])

/-! ## Editing the staging copy (R197) -/

/-- The product of a SET, when every value is in range (R194). -/
def productInRange (a : ProductArgs) : Option Product :=
  match a.cls, a.pg, a.group with
  | some k, some g, some x =>
    if unInRange a.un && decide (a.aCold ≤ 30000) && decide (a.aHot ≤ 30000) && decide (a.bCold ≤ 255) &&
        decide (a.bHot ≤ 255) then
      some ⟨a.code, a.un, k, g, x, a.aCold, a.bCold, a.aHot, a.bHot⟩
    else none
  | _, _, _ => none

/-- The table with the product added at the tail, or replaced in its place (R197). -/
def putProduct (p : Product) (c : Settings) : Settings :=
  { c with products := if c.hasProduct p.code then c.products.map fun x => if x.code == p.code then p else x
                       else c.products ++ [p] }

def stSetProduct (a : Parsed ProductArgs) (s : State) : State × Answer :=
  match a with
  | none => syntaxRefusal s
  | some a =>
    match productInRange a with
    | none => (s, er .RANGE)
    | some p =>
      if s.applying then (s, er .BUSY)
      else if !s.st.staging.hasProduct p.code && decide (Config.maxProducts ≤ s.st.staging.products.length) then
        (s, er .TABLE_FULL)
      else (modStaging (putProduct p) s, ok (sectionWord .PRODUCT :: productFields p))

/-- A taken DELETE writes no value: its reply names what it removed (R197, log 18). -/
def stSetProductDelete (code : Parsed String) (s : State) : State × Answer :=
  match code with
  | none => syntaxRefusal s
  | some p =>
    if s.applying then (s, er .BUSY)
    else if !s.st.staging.hasProduct p then (s, er .NOT_FOUND)
    else
      (modStaging (fun c => { c with products := c.products.filter fun x => x.code != p }) s,
       ok [sectionWord .PRODUCT, fld "CODE" p, bare "DELETE"])

/-- Both entries of a pair are written (R195). -/
def putPair (x y : Group) (e : SegEntry) (c : Settings) : Settings :=
  let m := c.matrix.set x (c.matrix[x].set y e)
  { c with matrix := m.set y (m[y].set x e) }

def stSetSegregation (a : Parsed PairArgs) (s : State) : State × Answer :=
  match a with
  | none => syntaxRefusal s
  | some a =>
    match a.x, a.y, a.entry with
    | some x, some y, some e =>
      if s.applying then (s, er .BUSY)
      else
        (modStaging (putPair x y e) s,
         ok [sectionWord .SEGREGATION, fld "PAIR" (groupText x ++ "," ++ groupText y), fld "ENTRY" (entryText e)])
    | _, _, _ => (s, er .RANGE)

def within (lo hi : Nat) (o : Option Nat) : Bool := o.all fun n => decide (lo ≤ n) && decide (n ≤ hi)

/-- The clamps of R6. -/
def clampStep (n : Nat) : Nat := clamp 200 5000 n
def clampPause (n : Nat) : Nat := clamp 1 60 n
def clampMargin (n : Nat) : Nat := clamp 0 120 n

/-- The entry with the fields given (R197). -/
def putBay (a : BayArgs) (e : BayEntry) : BayEntry :=
  { enabled := (a.enable.join).getD e.enabled, factor := a.factor.getD e.factor,
    step := (a.step.map clampStep).getD e.step, pause := (a.pause.map clampPause).getD e.pause }

def stSetBay (a : Parsed BayArgs) (s : State) : State × Answer :=
  match a with
  | none => syntaxRefusal s
  | some a =>
    if h : 1 ≤ a.n ∧ a.n ≤ 8 then
      if a.enable == some none || !within 5000 20000 a.factor then (s, er .RANGE)
      else if s.applying then (s, er .BUSY)
      else
        let i : Bay := ⟨a.n - 1, by omega⟩
        (modStaging (fun c => { c with bays := c.bays.set i (putBay a c.bays[i]) }) s,
         ok ([sectionWord .BAY, fld "N" (dec a.n)] ++ fldIf a.enable.join "ENABLE" yesNo ++ fldIf a.factor "F" dec ++
           fldIf a.step "STEP" (fun n => dec (clampStep n)) ++ fldIf a.pause "PAUSE" fun n => dec (clampPause n)))
    else (s, er .RANGE)

def hoursInRange (a : HoursArgs) : Bool :=
  within 240 720 a.dDay && within 120 360 a.dCont && within 15 90 a.bMin && within 480 720 a.rDaily &&
    within 1800 4200 a.dWeek && within 600 960 a.sSpan

def putHours (a : HoursArgs) (h : HoursParams) : HoursParams :=
  { dDay := a.dDay.getD h.dDay, dCont := a.dCont.getD h.dCont, bMin := a.bMin.getD h.bMin,
    rDaily := a.rDaily.getD h.rDaily, dWeek := a.dWeek.getD h.dWeek, sSpan := a.sSpan.getD h.sSpan,
    margin := (a.margin.map clampMargin).getD h.margin }

def stSetHours (a : Parsed HoursArgs) (s : State) : State × Answer :=
  match a with
  | none => syntaxRefusal s
  | some a =>
    if !hoursInRange a then (s, er .RANGE)
    else if s.applying then (s, er .BUSY)
    else
      (modStaging (fun c => { c with hours := putHours a c.hours }) s,
       ok (sectionWord .HOURS :: fldIf a.dDay "DDAY" dec ++ fldIf a.dCont "DCONT" dec ++ fldIf a.bMin "BMIN" dec ++
         fldIf a.rDaily "RDAILY" dec ++ fldIf a.dWeek "DWEEK" dec ++ fldIf a.sSpan "SSPAN" dec ++
         fldIf a.margin "M" fun n => dec (clampMargin n)))

def stSetTolerance (a : Parsed ToleranceArgs) (s : State) : State × Answer :=
  match a with
  | none => syntaxRefusal s
  | some a =>
    if !within 1 100 a.abs || !within 0 20 a.permille then (s, er .RANGE)
    else if s.applying then (s, er .BUSY)
    else
      (modStaging (fun c => { c with tol := ⟨a.abs.getD c.tol.abs, a.permille.getD c.tol.permille⟩ }) s,
       ok (sectionWord .TOLERANCE :: fldIf a.abs "ABS" dec ++ fldIf a.permille "PERMILLE" dec))

def stSetCalendar (wday : Parsed Nat) (s : State) : State × Answer :=
  match wday with
  | none => syntaxRefusal s
  | some d =>
    if 6 < d then (s, er .RANGE)
    else if s.applying then (s, er .BUSY)
    else (modStaging (fun c => { c with weekStart := d }) s, ok [sectionWord .CALENDAR, fld "WEEKSTART" (dec d)])

def stSetSampler (period : Parsed Nat) (s : State) : State × Answer :=
  match period with
  | none => syntaxRefusal s
  | some m =>
    if m ≠ 1 ∧ m ≠ 10 then (s, er .RANGE)
    else if s.applying then (s, er .BUSY)
    else (modStaging (fun c => { c with period := m }) s, ok [sectionWord .SAMPLER, fld "PERIOD" (dec m)])

def stSetLink (attn : Parsed (Option AttnMode)) (s : State) : State × Answer :=
  match attn with
  | none => syntaxRefusal s
  | some none => (s, er .RANGE)
  | some (some m) =>
    if s.applying then (s, er .BUSY)
    else (modStaging (fun c => { c with attn := m }) s, ok [sectionWord .LINK, fld "ATTN" (attnText m)])

/-! ## The apply (R199 to R201) -/

/-- Test 4 of R199: the first tested bay in a state other than IDLE or CLOSED. -/
def activeBay (s : State) : Option Bay :=
  let a := s.st.applied
  let g := s.st.staging
  let calendar := a.weekStart != g.weekStart || a.hours.rDaily != g.hours.rDaily
  allBays.find? fun b =>
    (a.bays[b] != g.bays[b] || (calendar && (s.bay b).state == .DISPATCHING)) && (s.bay b).busy

/-- The apply changes the product's identity (R194). -/
def identityChanged (g : Settings) (p : Product) : Bool :=
  match g.products.find? fun x => x.code == p.code with
  | none => true
  | some x => x.un != p.un || x.cls != p.cls || x.pg != p.pg || x.group != p.group

/-- The apply changes the product's coefficients (R194). -/
def coefficientsChanged (g : Settings) (p : Product) : Bool :=
  match g.products.find? fun x => x.code == p.code with
  | none => false
  | some x => x.aCold != p.aCold || x.bCold != p.bCold || x.aHot != p.aHot || x.bHot != p.bHot

/-- Some bay has a line of the product in LOADING or FINISHING (R199). -/
def onMeter (s : State) (code : String) : Bool :=
  allBays.any fun b => (s.bay b).lines.any fun l =>
    (l.state == .LOADING || l.state == .FINISHING) &&
      (lineRead s (s.bay b).doc b l.comp).any fun d => d.product == code

/-- Some document has a line of the product (R199). -/
def onDocument (s : State) (code : String) : Bool := s.cp.docs.any fun x => x.lines.any fun l => l.product == code

/-- Test 5 of R199: the first product in use that the apply would change. -/
def productInUse (s : State) : Option Product :=
  let g := s.st.staging
  s.st.applied.products.find? fun p =>
    ((identityChanged g p || coefficientsChanged g p) && onMeter s p.code) || (identityChanged g p && onDocument s p.code)

/-- Tests 4 and 5 of R199, with the code and its field. -/
def applyRefusal (s : State) : Option Refused :=
  match activeBay s with
  | some b => some (.BAY_ACTIVE, [fld "BAY" (bayText b)])
  | none => (productInUse s).map fun p => (.PRODUCT_IN_USE, [fld "PROD" p.code])

def stApply (f : NoFields) (s : State) : State × Answer :=
  match f with
  | none => syntaxRefusal s
  | some _ =>
    if s.applying || s.st.outbox.isSome then (s, er .BUSY)
    else if !s.supv then (s, er .KEY_REQUIRED)
    else match applyRefusal s with
      | some e => (s, er e.1 e.2)
      | none =>
        (s.modSt fun t => { t with apply := some Config.applyWork },
         ok [fld "CHANGED" (sectionsText s.changed), fld "WORK" (dec Config.applyWork)])

def appliedFields (changed : List Section) (record : String) : List Fld :=
  [fld "RESULT" "APPLIED", fld "CHANGED" (sectionsText changed), fld "RECORD" record]

/-- The staging copy becomes the applied copy, in the store too (R200, steps 1 and 2). -/
def St.commit (t : St) : St :=
  { t with store := t.staging, storeGood := true, applied := t.staging, apply := none, defaults := false }

/-- A shorter period may already have run out (R149). -/
def periodCheck (s : State) : State :=
  if s.ts.sinceCal.any fun n => decide (s.periodMs ≤ n) then calDue s else s

/-- The commit of an apply (R200), with what it does to ATTN (R11) and to the calibration period (R149). -/
def commitApply (s : State) : State :=
  let changed := s.changed
  let s1 := s.modSt St.commit
  let s2 := if s1.st.applied.attn != s.st.applied.attn then s1.modDv fun d => { d with attnPulse := false } else s1
  let s3 := forBays bayApply (setComponents (fun d => { d with settings := false }) s2)
  let r := s3.makeRec (.SETTINGS changed)
  let s4 := postFrom .ST (s3.modSt fun t => { t with outbox := some r })
  let s5 := raise .ST .APPLIED (appliedFields changed "PENDING") s4
  if s1.st.applied.period != s.st.applied.period then periodCheck s5 else s5

/-- The apply's work has run (R200). A refused one tells the sections that stay changed (R207, log 43). -/
def applyDone (s : State) : State :=
  if s.applying then
    match applyRefusal s with
    | some e =>
      raise .ST .APPLIED
        ([fld "RESULT" "REFUSED", fld "CHANGED" (sectionsText s.changed), fld "CODE" (codeText e.1)] ++ e.2)
        (s.modSt fun t => { t with apply := none })
    | none => commitApply s
  else s

/-- The sections a SETTINGS record lists. -/
def sectionsOf (r : LogRec) : List Section :=
  match r.body with
  | .SETTINGS l => l
  | _ => []

/-- The log reports the SETTINGS record written or refused (R201). -/
def stOutcome (r : LogRec) (seq : Option Nat) (s : State) : State :=
  raise .ST .APPLIED
    (appliedFields (sectionsOf r) (if seq.isSome then "WRITTEN" else "LOG_FULL") ++ fldIf seq "SEQ" dec)
    (s.modSt fun t => { t with outbox := none })

end Sys2Proof.Machine
end

