-- ==== Sys2Proof/Machine/LogOps.lean ====
section
/-! DEFINITION. Machine/LogOps.lean: the dispatch log (09_dispatch_log.md): serving and writing appends, the start-up
scan, readout, export and reclaim. -/

namespace Sys2Proof.Machine

/-! ## The store (R169, R170) -/

def allSegs : List SegNo := List.finRange 32

def Segment.recordSlots (g : Segment) : Nat := (g.records.map fun r => r.record.slots).sum
/-- Used slots, the record being written included (R169). -/
def Dl.used (d : Dl) (i : SegNo) : Nat :=
  d.segs[i].recordSlots + (d.writing.toList.map fun w => if w.seg = i then w.record.slots else 0).sum
def Dl.free (d : Dl) (i : SegNo) : Nat := Config.segSlots - d.used i
def Dl.active (d : Dl) : Option SegNo := allSegs.find? fun i => d.segs[i].state == .ACTIVE
def Segment.first (g : Segment) : Option Nat := g.records.head?.map (·.seq)
def Segment.last (g : Segment) : Option Nat := g.records.getLast?.map (·.seq)

def modSeg (i : SegNo) (f : Segment → Segment) (d : Dl) : Dl := { d with segs := d.segs.set i (f d.segs[i]) }
def closeSeg (why : CloseReason) (g : Segment) : Segment := { g with state := .CLOSED, reason := some why, exported := false }

/-- The records READ and OPEN can reach (R180). -/
def Dl.readable (d : Dl) : List (SegNo × StoredRec) :=
  allSegs.flatMap fun i =>
    let g := d.segs[i]
    if g.state = .ACTIVE ∨ g.state = .CLOSED then g.records.map fun r => (i, r) else []

/-! ## Notices (R178, R179, R186) -/

def activeText (d : Dl) : String := d.active.elim "NONE" fun i => segText i ++ "," ++ dec (d.free i)
def spaceFields (d : Dl) : List Fld :=
  [fld "ERASED" (dec d.erased), fld "DAMAGED" (dec d.damaged), fld "ACTIVE" (activeText d), fld "REFUSED" (dec d.refused)]
def tellSpace (s : State) : State := raise .DL .SPACE (spaceFields s.dl) s
def tellSpaceIfPending (s : State) : State := raiseIfPending .DL .SPACE (spaceFields s.dl) s
def tellReclaim (result : String) (i : SegNo) (s : State) : State :=
  raise .DL .RECLAIM [fld "RESULT" result, fld "SEG" (segText i), fld "ERASED" (dec s.dl.erased),
    fld "DAMAGED" (dec s.dl.damaged)] s
def dayFields (n : DayCounts) : List Fld :=
  [fld "DISPATCH" (dec n.dispatch), fld "CANCEL" (dec n.cancel), fld "TRIPS" (dec n.trip)]
/-- The LOG component follows the DAMAGED segments (R13). -/
def reportLog (s : State) : State := setComponents (fun d => { d with log := decide (0 < s.dl.damaged) }) s

/-! ## Appending (R173 to R178) -/

/-- A DAY_CLOSE record takes the counts as they stand when its write begins (R178). -/
def fillCounts (n : DayCounts) (r : LogRec) : LogRec :=
  match r.body with
  | .DAY_CLOSE _ => { r with body := .DAY_CLOSE n }
  | _ => r

/-- The write of the head append begins in a segment: it takes the next sequence number (R177, step 1). -/
def beginWrite (a : Append) (i : SegNo) (opened : Bool) (s : State) : State :=
  s.modDl fun d =>
    { d with queue := d.queue.drop 1, nextSeq := d.nextSeq + 1,
             writing := some ⟨a.source, fillCounts d.day a.record, d.nextSeq, i, opened⟩ }

/-- The first ERASED segment counting from the one after the last opened (R175). -/
def nextErased (d : Dl) : Option SegNo :=
  (allSegs.map fun i => d.lastOpened + 1 + i).find? fun i => d.segs[i].state == .ERASED

/-- The ACTIVE segment closes with reason FILLED and an ERASED one becomes ACTIVE (R175, step 2). SPACE is raised then,
before the write begins, so that it gives the new segment all its slots free (R179, log 41). -/
def openSegment (i : SegNo) (s : State) : State :=
  let opened := if s.ck.isSet then some s.ck.count else none
  let t := s.modDl fun d =>
    let d1 := match d.active with
      | some j => modSeg j (closeSeg .FILLED) d
      | none => d
    { modSeg i (fun _ => { Segment.erased with state := .ACTIVE, opened := opened }) d1 with lastOpened := i }
  raiseIf (decide (t.dl.erased ≤ 2) || t.dv.pending .DL .SPACE) .DL .SPACE (spaceFields t.dl) t

/-- Where the record of k slots goes (R175): the ACTIVE segment, a new segment, or nowhere. -/
inductive Place where
  | fits (i : SegNo)
  | opens (i : SegNo)
  | full
deriving DecidableEq, Repr

def placeFor (d : Dl) (k : Nat) : Place :=
  if Config.maxSeq < d.nextSeq then .full
  else
    match d.active.filter fun i => decide (k ≤ d.free i) with
    | some i => .fits i
    | none =>
      match nextErased d with
      | some i => .opens i
      | none => .full

/-- The source is told that its record was refused (R176). -/
def reportRefused (src : LogSource) (r : LogRec) (s : State) : State :=
  match src with
  | .B b => bayRefused b r s
  | .DT => dtRefused s
  | .CK => ckRecordLeaves s
  | .ST => stOutcome r none s
  | .DV => s

/-- The append is refused with LOG_FULL (R176). -/
def refuseAppend (a : Append) (s : State) : State :=
  let s1 := reportRefused a.source a.record (s.modDl fun d => { d with queue := d.queue.drop 1 })
  let s2 := tellSpace (s1.modDl fun d => { d with refused := satAdd Config.maxCount16 d.refused 1 })
  match a.record.body with
  | .DAY_CLOSE _ => raise .DL .DAY (fld "RESULT" "LOG_FULL" :: dayFields s2.dl.day) s2
  | _ => s2

/-- DL serves the head append, with no scan and no write in progress (R174, R175). -/
def serveAppend (s : State) : State :=
  if s.dl.scan || s.dl.writing.isSome then s
  else match s.dl.queue with
    | [] => s
    | a :: _ =>
      match placeFor s.dl a.record.slots with
      | .fits i => beginWrite a i false s
      | .opens i => beginWrite a i true (openSegment i s)
      | .full => refuseAppend a s

/-- The day count of a written record rises (R178). -/
def countRecord (b : Body) (n : DayCounts) : DayCounts :=
  match b with
  | .DISPATCH _ => { n with dispatch := satAdd Config.maxCount16 n.dispatch 1 }
  | .CANCEL _ => { n with cancel := satAdd Config.maxCount16 n.cancel 1 }
  | .TRIP_CLOSE _ => { n with trip := satAdd Config.maxCount16 n.trip 1 }
  | _ => n

/-- The source is told that its record is written (R177). -/
def reportWritten (src : LogSource) (r : LogRec) (seq : Nat) (s : State) : State :=
  match src with
  | .B b => bayWritten b r s
  | .DT => dtRecordLeaves s
  | .CK => ckRecordLeaves s
  | .ST => stOutcome r (some seq) s
  | .DV => s

/-- A written DAY_CLOSE: counts 0, the segment closes, the DAY notice (R178). -/
def dayClosed (w : Writing) (n : DayCounts) (s : State) : State :=
  let t := s.modDl fun d => { modSeg w.seg (closeSeg .DAY) d with day := DayCounts.zero }
  let g := t.dl.segs[w.seg]
  raise .DL .DAY ([fld "RESULT" "WRITTEN", fld "SEQ" (dec w.seq), fld "SEG" (segText w.seg)] ++ fldIf g.first "FIRST" dec ++
    fldIf g.last "LAST" dec ++ dayFields n) t

/-- The complete record in its segment (R177, step 3). -/
def placeRecord (w : Writing) (check : Option Word16) (d : Dl) : Dl :=
  { modSeg w.seg (fun g => { g with records := g.records ++ [⟨w.seq, w.record, check⟩] }) d with writing := none }

/-- A record write completes (R177). -/
def writeDone (s : State) : State :=
  match s.dl.writing with
  | none => s
  | some w =>
    let s1 := s.modDl fun d =>
      let e := placeRecord w (some (recordCheck w.seq w.record)) d
      { e with day := countRecord w.record.body e.day }
    let s2 := reportWritten w.source w.record w.seq s1
    match w.record.body with
    | .DAY_CLOSE n => dayClosed w n s2
    | _ => s2

/-! ## The start-up scan (R187 to R189) -/

def isDayClose (r : LogRec) : Bool :=
  match r.body with
  | .DAY_CLOSE _ => true
  | _ => false

/-- The ACTIVE segment ends with a complete DAY_CLOSE record (R188). -/
def Segment.endsDay (g : Segment) : Bool := g.records.getLast?.any fun r => isDayClose r.record && r.complete

/-- What the scan makes of a segment (R188). -/
def scanSegment (g : Segment) : Segment :=
  match g.state with
  | .RECLAIMING => ⟨.DAMAGED, none, [], none, false⟩
  | .ACTIVE => if g.endsDay then closeSeg .DAY g else g
  | _ => g

/-- The day counts found from the store (R189). -/
def storeCounts (d : Dl) : DayCounts :=
  let recs := (d.readable.map (·.2)).filter (·.complete)
  let last := ((recs.filter fun r => isDayClose r.record).map (·.seq)).max?
  let since := recs.filter fun r => last.all fun n => decide (n < r.seq)
  since.foldl (fun n r => countRecord r.record.body n) DayCounts.zero

/-- The last opened segment as the scan finds it (R189). -/
def scanLastOpened (d : Dl) : SegNo :=
  match d.active with
  | some i => i
  | none =>
    let firsts := allSegs.filterMap fun i => if d.segs[i].state = .CLOSED then d.segs[i].first.map fun f => (f, i) else none
    match (firsts.map (·.1)).max? with
    | none => 31
    | some m => ((firsts.find? fun p => p.1 == m).map (·.2)).getD 31

/-- The state the scan sets from its findings (R189). -/
def scanned (d : Dl) : Dl :=
  let closed := d.segs.toList.any fun g => g.state == .ACTIVE && g.endsDay
  let e := { d with segs := d.segs.map scanSegment }
  { e with nextSeq := (d.highMark :: e.readable.map fun p => p.2.seq).foldl max 0 + 1, lastOpened := scanLastOpened e,
           day := if d.countsFromStore || closed then storeCounts e else d.day, refused := 0, cursor := none,
           reclaim := none, countsFromStore := false }

/-- The scan ends (R189). -/
def scanDone (s : State) : State :=
  if s.dl.scan then
    let cut := allSegs.find? fun i => s.dl.segs[i].state == .RECLAIMING
    let s1 := reportLog (s.modDl fun d => { scanned d with scan := false })
    let s2 := match cut with
      | some i => tellReclaim "INTERRUPTED" i s1
      | none => s1
    if s2.dl.erased ≤ 2 then tellSpace s2 else s2
  else s

/-! ## Readout (R180 to R182) -/

def segOf (n : Nat) : Option SegNo := if h : 1 ≤ n ∧ n ≤ 32 then some ⟨n - 1, by omega⟩ else none

def segMarks (g : Segment) : List Fld := fldIf g.first "FIRST" dec ++ fldIf g.last "LAST" dec
def addAccess (s : State) : State := s.modDl fun d => { d with accesses := d.accesses + 1 }
def setCursor (seq pos : Nat) (s : State) : State := s.modDl fun d => { d with cursor := some ⟨seq, pos⟩ }

def dlOpenSeg (seg : Parsed Nat) (s : State) : State × Answer :=
  match seg with
  | none => syntaxRefusal s
  | some n =>
    match segOf n with
    | none => (s, er .RANGE)
    | some i =>
      if s.dl.scan then (s, er .BUSY)
      else
        let g := s.dl.segs[i]
        if g.state ≠ .ACTIVE ∧ g.state ≠ .CLOSED then (s, er .STATE)
        else match g.first with
          | none => (s, er .NOT_FOUND)
          | some f => (addAccess (setCursor f 0 s), ok (fld "SEG" (segText i) :: segMarks g))

def dlOpenSeq (seq : Parsed Nat) (s : State) : State × Answer :=
  match seq with
  | none => syntaxRefusal s
  | some n =>
    if n < 1 ∨ Config.maxSeq < n then (s, er .RANGE)
    else if s.dl.scan then (s, er .BUSY)
    else match s.dl.readable.find? fun p => p.2.seq == n with
      | none => (s, er .NOT_FOUND)
      | some (i, r) =>
        (addAccess (setCursor n 0 s),
         ok ([fld "SEQ" (dec n), fld "SEG" (segText i)] ++ if r.complete then [] else [bare "TORN"]))

/-- The fields of a complete record from a position, without GAP and MORE (R181, R208). -/
def recordFields (i : SegNo) (r : StoredRec) (pos : Nat) : List Fld :=
  let b := r.record.body
  let items := ((bodyItems b).drop pos).take 4
  let list := if items = [] then [] else [fld "I" (commas items)]
  let head := [fld "SEQ" (dec r.seq), fld "KIND" (bodyKind b), fld "SEG" (segText i)]
  if pos = 0 then
    head ++ stampFields r.record.stamp ++ bodyFields b ++
      [fld "N" (dec (bodyCount b)), fld "RC" (hex4 (recordCheck r.seq r.record))] ++ list
  else head ++ list

/-- READ returns a record from a position and moves the cursor on (R181, R182). -/
def readRecord (i : SegNo) (r : StoredRec) (pos : Nat) (gap : List Fld) (s : State) : State × Answer :=
  if r.complete then
    if pos + 4 < bodyCount r.record.body then
      (addAccess (setCursor r.seq (pos + 4) s), ok (recordFields i r pos ++ gap ++ [bare "MORE"]))
    else (addAccess (setCursor (r.seq + 1) 0 s), ok (recordFields i r pos ++ gap))
  else
    (addAccess (setCursor (r.seq + 1) 0 s), ok ([bare "TORN", fld "SEQ" (dec r.seq), fld "SEG" (segText i)] ++ gap))

/-- The readable record of the lowest number above n (R182). -/
def nextReadable (d : Dl) (n : Nat) : Option (SegNo × StoredRec) :=
  let above := d.readable.filter fun p => decide (n < p.2.seq)
  (above.map fun p => p.2.seq).min?.bind fun m => above.find? fun p => p.2.seq == m

def dlRead (f : NoFields) (s : State) : State × Answer :=
  match f with
  | none => syntaxRefusal s
  | some _ =>
    if s.dl.scan then (s, er .BUSY)
    else match s.dl.cursor with
      | none => (s, er .STATE)
      | some c =>
        match s.dl.readable.find? fun p => p.2.seq == c.seq with
        | some (i, r) => readRecord i r c.pos [] s
        | none =>
          match nextReadable s.dl c.seq with
          | some (i, r) => readRecord i r 0 [fld "GAP" (dec (r.seq - c.seq))] s
          | none => (addAccess s, ok [bare "END", fld "SEQ" (dec c.seq)])

/-! ## Export and reclaim (R183 to R186) -/

def dlExported (seg : Parsed Nat) (s : State) : State × Answer :=
  match seg with
  | none => syntaxRefusal s
  | some n =>
    match segOf n with
    | none => (s, er .RANGE)
    | some i =>
      if s.dl.scan then (s, er .BUSY)
      else
        let g := s.dl.segs[i]
        if g.state ≠ .CLOSED then (s, er .STATE)
        else (s.modDl (modSeg i fun g => { g with exported := true }), ok (fld "SEG" (segText i) :: segMarks g))

/-- The first test of R184 that fails, from test 3 on. -/
def reclaimRefusal (s : State) (i : SegNo) : Option ReplyCode :=
  let g := s.dl.segs[i]
  if !s.supv then some .KEY_REQUIRED
  else if g.state ≠ .CLOSED ∧ g.state ≠ .DAMAGED then some .STATE
  else if g.state = .CLOSED ∧ g.exported = false then some .NOT_EXPORTED
  else if s.dl.segs.toList.any fun x => x.state == .RECLAIMING then some .BUSY
  else none

/-- The last number that a record surely has: a record being written may still be cut off before its first slot, and has
then taken none (R173, log 42). -/
def Dl.lastTaken (d : Dl) : Nat := d.nextSeq - 1 - d.writing.toList.length

/-- A taken RECLAIM (R184). -/
def beginReclaim (i : SegNo) (s : State) : State :=
  tellSpaceIfPending (reportLog (s.modDl fun d =>
    { modSeg i (fun g => { g with state := .RECLAIMING }) d with
      highMark := max d.highMark d.lastTaken, reclaim := some ⟨i, Config.eraseWork⟩ }))

def dlReclaim (seg : Parsed Nat) (s : State) : State × Answer :=
  match seg with
  | none => syntaxRefusal s
  | some n =>
    match segOf n with
    | none => (s, er .RANGE)
    | some i =>
      if s.dl.scan then (s, er .BUSY)
      else match reclaimRefusal s i with
        | some c => (s, er c)
        | none => (beginReclaim i s, ok [fld "SEG" (segText i), fld "WORK" (dec Config.eraseWork)])

/-- The store is free of accesses, so an erase works (R185). -/
def Dl.storeFree (d : Dl) : Bool := d.writing.isNone && d.accesses == 0

/-- A reclaim's work reaches 0 (R186). -/
def reclaimDone (s : State) : State :=
  match s.dl.reclaim with
  | none => s
  | some r =>
    if s.dl.storeFree then
      tellSpaceIfPending (tellReclaim "ERASED" r.seg
        (s.modDl fun d => { modSeg r.seg (fun _ => Segment.erased) d with reclaim := none }))
    else s

/-! ## Status (R190, R191) -/

def segLetter (g : Segment) : String :=
  match g.state with
  | .ERASED => "E" | .ACTIVE => "A" | .RECLAIMING => "R" | .DAMAGED => "D"
  | .CLOSED => if g.exported then "X" else "C"

def logStatusFields (scan : Bool) (d : Dl) : List Fld :=
  [fld "SCAN" (yesNo scan), fld "MAP" (joinWith "" (d.segs.toList.map segLetter)), fld "ERASED" (dec d.erased),
   fld "CLOSED" (dec (d.count fun g => g.state == .CLOSED)),
   fld "EXPORTED" (dec (d.count fun g => g.state == .CLOSED && g.exported)), fld "DAMAGED" (dec d.damaged),
   fld "ACTIVE" (activeText d), fld "NEXTSEQ" (dec d.nextSeq), fld "QUEUE" (dec d.queue.length),
   fld "WRITING" (d.writing.elim "NONE" fun w => sourceText w.source),
   fld "RECLAIM" (d.reclaim.elim "NONE" fun r => segText r.seg ++ "," ++ dec r.work),
   fld "CURSOR" (d.cursor.elim "NONE" fun c => dec c.seq ++ "," ++ dec c.pos), fld "REFUSED" (dec d.refused),
   fld "DAY" (commas [dec d.day.dispatch, dec d.day.cancel, dec d.day.trip])]

/-- While the scan runs the fields are those it will leave (R190, log 20). -/
def dlStatus (f : NoFields) (s : State) : State × Answer :=
  match f with
  | none => syntaxRefusal s
  | some _ => (s, ok (logStatusFields s.dl.scan (if s.dl.scan then scanned s.dl else s.dl)))

def segStatusFields (d : Dl) (i : SegNo) : List Fld :=
  let g := d.segs[i]
  [fld "SEG" (segText i), fld "STATE" (segStateText g.state)] ++
    (if g.state = .DAMAGED ∨ g.state = .RECLAIMING then [] else [fld "USED" (dec (d.used i))]) ++
    fldIf g.opened "OPENED" timeText ++ segMarks g ++
    (if g.state = .CLOSED then fldIf g.reason "REASON" closeText ++ [fld "EXPORTED" (yesNo g.exported)] else []) ++
    fldIf (g.records.find? fun r => !r.complete) "TORN" fun r => dec r.seq

def dlStatusSeg (seg : Parsed Nat) (s : State) : State × Answer :=
  match seg with
  | none => syntaxRefusal s
  | some n =>
    match segOf n with
    | none => (s, er .RANGE)
    | some i => if s.dl.scan then (s, er .BUSY) else (s, ok (segStatusFields s.dl i))

end Sys2Proof.Machine
end

