-- ==== Sys2Proof/Machine/Operands.lean ====
section
/-! DEFINITION. Machine/Operands.lean: how a received line is tested (R2) and read as a command: tokens, value forms
(R205), routing (R5) and the fields of every verb (R6). -/

namespace Sys2Proof.Machine

/-! ## Characters and value forms (R205) -/

def isDigit (c : Char) : Bool := decide (48 ≤ c.toNat) && decide (c.toNat ≤ 57)
def isCapital (c : Char) : Bool := decide (65 ≤ c.toNat) && decide (c.toNat ≤ 90)
def isCodeChar (c : Char) : Bool := isDigit c || isCapital c
/-- 0 to 9 and the capitals A to F (R2). -/
def isHex (c : Char) : Bool := isDigit c || (decide (65 ≤ c.toNat) && decide (c.toNat ≤ 70))
def hexVal (c : Char) : Nat := if isDigit c then c.toNat - 48 else c.toNat - 55

/-- The text between separators; two separators together give an empty text. -/
def splitAtChar (sep : Char) : List Char → List (List Char)
  | [] => [[]]
  | c :: cs =>
    if c = sep then [] :: splitAtChar sep cs
    else match splitAtChar sep cs with
      | [] => [[c]]
      | t :: ts => (c :: t) :: ts

def digitsVal (cs : List Char) : Nat := cs.foldl (fun n c => 10 * n + (c.toNat - 48)) 0

/-- Exactly n digits. -/
def fixedDigits (n : Nat) (cs : List Char) : Option Nat :=
  if cs.length = n && cs.all isDigit then some (digitsVal cs) else none

/-- 1 to 10 digits, value 0 to 4,294,967,295; a larger value is not of the form (log 13). -/
def decimal (cs : List Char) : Option Nat :=
  if 1 ≤ cs.length && cs.length ≤ 10 && cs.all isDigit && digitsVal cs ≤ Config.maxDecimal then some (digitsVal cs)
  else none

/-- An optional minus sign, then a decimal. -/
def signedDecimal (cs : List Char) : Option Int :=
  match cs with
  | '-' :: ds => (decimal ds).map fun n => -(n : Int)
  | _ => (decimal cs).map fun n => (n : Int)

/-- A code of lo to hi capitals and digits. -/
def codeForm (lo hi : Nat) (cs : List Char) : Option String :=
  if lo ≤ cs.length && cs.length ≤ hi && cs.all isCodeChar then some (String.ofList cs) else none

/-- The enumeration, class and packing-group form: capitals, digits and full stops. -/
def wordForm (cs : List Char) : Option String :=
  if cs ≠ [] && cs.all (fun c => isCodeChar c || c == '.') then some (String.ofList cs) else none

/-- One capital letter; a letter outside A to H gives `some none` (R197, RANGE). -/
def groupForm (cs : List Char) : Option (Option Group) :=
  match cs with
  | [c] => if isCapital c then some (if h : c.toNat - 65 < 8 then some ⟨c.toNat - 65, h⟩ else none) else none
  | _ => none

/-- `YYYY-MM-DD`. -/
def dateForm (cs : List Char) : Option (Nat × Nat × Nat) :=
  match splitAtChar '-' cs with
  | [y, m, d] => do pure (← fixedDigits 4 y, ← fixedDigits 2 m, ← fixedDigits 2 d)
  | _ => none

/-- `hh:mm` or `hh:mm:ss`. -/
def clockForm (cs : List Char) : Option (Nat × Nat × Option Nat) :=
  match splitAtChar ':' cs with
  | [h, m] => do pure (← fixedDigits 2 h, ← fixedDigits 2 m, none)
  | [h, m, s] => do pure (← fixedDigits 2 h, ← fixedDigits 2 m, some (← fixedDigits 2 s))
  | _ => none

/-- A date and a time of day joined by one space. -/
def timeForm (cs : List Char) : Option (DateHm × Option Nat) :=
  match splitAtChar ' ' cs with
  | [d, t] => do
    let (y, m, day) ← dateForm d
    let (h, mi, s) ← clockForm t
    pure (⟨y, m, day, h, mi⟩, s)
  | _ => none

/-- A duty time: seconds given are refused with SYNTAX (R205). -/
def dutyTimeForm (cs : List Char) : Option DateHm := do
  let (t, s) ← timeForm cs
  if s.isNone then pure t else none

/-- Three decimals joined by commas (R77, R85). -/
def planForm (cs : List Char) : Option Plan :=
  match splitAtChar ',' cs with
  | [a, b, c] => do pure ⟨← decimal a, ← decimal b, ← decimal c⟩
  | _ => none

/-- The words of the enumerations; a word not listed gives `some none` (RANGE). -/
def wordOf {α : Type} (table : List (String × α)) (cs : List Char) : Option (Option α) :=
  (wordForm cs).map fun w => (table.find? fun e => e.1 == w).map (·.2)

def dutyKindForm : List Char → Option (Option DutyKind) :=
  wordOf [("DRIVE", .DRIVE), ("WORK", .WORK), ("REST", .REST)]
def noticeModeForm : List Char → Option (Option NoticeMode) := wordOf [("PUSH", .PUSH), ("POLL", .POLL)]
def attnForm : List Char → Option (Option AttnMode) := wordOf [("LEVEL", .LEVEL), ("PULSE", .PULSE)]
def yesNoForm : List Char → Option (Option Bool) := wordOf [("YES", true), ("NO", false)]
def entryForm : List Char → Option (Option SegEntry) := wordOf [("ALLOW", .ALLOW), ("APART", .APART), ("NEVER", .NEVER)]
def ruleForm : List Char → Option (Option RuleName) := wordOf [("FWD", .FWD), ("REV", .REV)]
def classForm : List Char → Option (Option HazClass) :=
  wordOf [("2.1", .c21), ("2.2", .c22), ("3", .c3), ("5.1", .c51), ("6.1", .c61), ("8", .c8), ("9", .c9)]
def packForm : List Char → Option (Option PackGroup) := wordOf [("I", .I), ("II", .II), ("III", .III), ("NONE", .NONE)]
def sectionForm (w : String) : Option Section :=
  (([("PRODUCT", .PRODUCT), ("SEGREGATION", .SEGREGATION), ("BAY", .BAY), ("HOURS", .HOURS), ("TOLERANCE", .TOLERANCE),
    ("CALENDAR", .CALENDAR), ("SAMPLER", .SAMPLER), ("LINK", .LINK)] : List (String × Section)).find?
      fun e => e.1 == w).map (·.2)

/-- One kind:min item of CLOSETRIP (R52). -/
def segItemForm (cs : List Char) : Option SegArg :=
  match splitAtChar ':' cs with
  | [k, m] => do pure ⟨← dutyKindForm k, ← decimal m⟩
  | _ => none

/-- 1 to 8 items (R52). -/
def segListForm (cs : List Char) : Option (List SegArg) :=
  let items := splitAtChar ',' cs
  if items.length ≤ 8 then items.mapM segItemForm else none

/-- A decimal, or the word OFF (`some (some none)`, R28); another word gives `some none` (RANGE). -/
def decimalOrOff (cs : List Char) : Option (Option (Option Nat)) :=
  match decimal cs with
  | some n => some (some (some n))
  | none => wordOf [("OFF", none)] cs

/-! ## Items of a request (R205) -/

/-- A field with its value, or a bare word (`value` none). -/
structure Item where
  name : String
  value : Option (List Char)
deriving DecidableEq, Repr

/-- Cuts a token at its first equals sign. -/
def itemOf (tok : List Char) : Item :=
  let name := tok.takeWhile (· ≠ '=')
  match tok.drop name.length with
  | [] => ⟨String.ofList name, none⟩
  | _ :: v => ⟨String.ofList name, some v⟩

/-- The items of the tokens after the verb; a time of day after a date value is joined to it (R205). -/
def itemsOf : List (List Char) → List Item
  | [] => []
  | [t] => [itemOf t]
  | t :: c :: rest =>
    let i := itemOf t
    match i.value with
    | some v =>
      if (dateForm v).isSome && (clockForm c).isSome then ⟨i.name, some (v ++ ' ' :: c)⟩ :: itemsOf rest
      else i :: itemsOf (c :: rest)
    | none => i :: itemsOf (c :: rest)

abbrev Items := List Item

/-- The value of a field. -/
def Items.get (its : Items) (name : String) : Option (List Char) :=
  (its.find? fun i => i.name == name && i.value.isSome).bind (·.value)

def Items.word (its : Items) (name : String) : Bool := its.any fun i => i.name == name && i.value.isNone

/-- The bare words of a request. -/
def Items.words (its : Items) : List String := (its.filter fun i => i.value.isNone).map (·.name)

/-- No name twice, and every field and keyword one the verb takes (R6). -/
def Items.only (its : Items) (fields words : List String) : Bool :=
  decide (its.map (·.name)).Nodup &&
    its.all fun i => if i.value.isSome then fields.contains i.name else words.contains i.name

/-- A required field of a form. -/
def Items.req {α : Type} (its : Items) (name : String) (form : List Char → Option α) : Option α :=
  (its.get name).bind form

/-- An optional field: absent, or of its form. -/
def Items.opt {α : Type} (its : Items) (name : String) (form : List Char → Option α) : Option (Option α) :=
  match its.get name with
  | none => some none
  | some v => (form v).map some

/-- Reads fields when the names are those the verb takes. -/
def Items.read {α : Type} (its : Items) (fields words : List String) (p : Option α) : Parsed α :=
  if its.only fields words then p else none

def noFields (its : Items) : NoFields := if its = [] then some () else none
def oneField {α : Type} (its : Items) (name : String) (form : List Char → Option α) : Parsed α :=
  its.read [name] [] (its.req name form)

def docForm : List Char → Option String := codeForm 1 12
def productForm : List Char → Option String := codeForm 3 3
def driverForm : List Char → Option Nat := fixedDigits 8

/-! ## The verbs, unit by unit -/

/-- The command of a verb, from the head and the items; none where the unit does not have the verb. -/
abbrev Verbs := String → Option (Hdr → Items → Instr)

def dvVerbs : Verbs
  | "STATUS" => some fun h i => .dvStatus h (noFields i)
  | "CLEAR" => some fun h i => .dvClear h (noFields i)
  | "MODE" => some fun h i => .dvMode h (oneField i "NOTICE" noticeModeForm)
  | "NEXT" => some fun h i => .dvNext h (noFields i)
  | "RESET" => some fun h i => .dvReset h (noFields i)
  | _ => none

/-- R21. -/
def ckSetForm (i : Items) : Parsed CkSetArgs :=
  oneField i "T" fun v => (timeForm v).map fun t => ⟨t.1, t.2.getD 0⟩

/-- R25: the selector's own fields are required, the other selector's are refused. -/
def ruleArgsForm (i : Items) : Parsed RuleArgs :=
  i.read ["RULE", "MONTH", "SEL", "DAY", "WEEK", "WDAY", "HOUR"] [] do
    let rule ← i.req "RULE" ruleForm
    let month ← i.req "MONTH" decimal
    let sel ← i.req "SEL" wordForm
    let day ← i.opt "DAY" decimal
    let week ← i.opt "WEEK" decimal
    let wday ← i.opt "WDAY" decimal
    let hour ← i.req "HOUR" decimal
    if sel == "DATE" then
      match day, week, wday with
      | some d, none, none => pure ⟨rule, month, some (.DATE d), hour⟩
      | _, _, _ => none
    else if sel == "WEEKDAY" then
      match day, week, wday with
      | none, some w, some d => pure ⟨rule, month, some (.WEEKDAY w d), hour⟩
      | _, _, _ => none
    else pure ⟨rule, month, none, hour⟩

def daycloseForm (i : Items) : Parsed DaycloseArgs :=
  i.read ["MIN", "HOUR", "WDAY"] [] do
    pure ⟨← i.req "MIN" decimalOrOff, ← i.req "HOUR" decimalOrOff, ← i.req "WDAY" decimalOrOff⟩

def ckVerbs : Verbs
  | "STATUS" => some fun h i => .ckStatus h (noFields i)
  | "SET" => some fun h i => .ckSet h (ckSetForm i)
  | "DSTRULE" => some fun h i =>
    if i = [⟨"OFF", none⟩] then .ckDstruleOff h (some ()) else .ckDstrule h (ruleArgsForm i)
  | "RULES" => some fun h i => .ckRules h (noFields i)
  | "DAYCLOSE" => some fun h i => .ckDayclose h (daycloseForm i)
  | "CLEARSTAMP" => some fun h i => .ckClearstamp h (noFields i)
  | _ => none

def importForm (i : Items) : Parsed ImportArgs :=
  i.read ["DRV", "KIND", "FROM", "TO"] [] do
    pure ⟨← i.req "DRV" driverForm, ← i.req "KIND" dutyKindForm, ← i.req "FROM" dutyTimeForm,
      ← i.req "TO" dutyTimeForm⟩

def closetripForm (i : Items) : Parsed ClosetripArgs :=
  i.read ["DRV", "END", "SEG"] [] do
    pure ⟨← i.req "DRV" driverForm, ← i.req "END" dutyTimeForm, ← i.req "SEG" segListForm⟩

def queryPlanForm (i : Items) : Parsed QueryPlanArgs :=
  i.read ["DRV", "PLAN"] [] do pure ⟨← i.req "DRV" driverForm, ← i.req "PLAN" planForm⟩

def dtListForm (i : Items) : Parsed DtListArgs :=
  i.read ["DRV", "FROM"] [] do pure ⟨← i.req "DRV" driverForm, ← i.req "FROM" decimal⟩

def dtVerbs : Verbs
  | "STATUS" => some fun h i => .dtStatus h (noFields i)
  | "ENROL" => some fun h i => .dtEnrol h (oneField i "DRV" driverForm)
  | "REMOVE" => some fun h i => .dtRemove h (oneField i "DRV" driverForm)
  | "IMPORT" => some fun h i => .dtImport h (importForm i)
  | "ARRIVE" => some fun h i => .dtArrive h (oneField i "DRV" driverForm)
  | "DEPART" => some fun h i => .dtDepart h (oneField i "DRV" driverForm)
  | "CLOSETRIP" => some fun h i => .dtClosetrip h (closetripForm i)
  | "QUERY" => some fun h i =>
    if (i.get "PLAN").isSome then .dtQueryPlan h (queryPlanForm i) else .dtQuery h (oneField i "DRV" driverForm)
  | "LIST" => some fun h i => .dtList h (dtListForm i)
  | _ => none

def openForm (i : Items) : Parsed OpenArgs :=
  i.read ["DOC", "LINES", "TANKER", "PLAN", "CARRIER", "DRV"] [] do
    pure ⟨← i.req "DOC" docForm, ← i.req "LINES" decimal, ← i.req "TANKER" (codeForm 1 10), ← i.req "PLAN" planForm,
      ← i.opt "CARRIER" (codeForm 1 6), ← i.opt "DRV" driverForm⟩

def lineForm (i : Items) : Parsed LineArgs :=
  i.read ["C", "PROD", "UN", "CLASS", "PG", "QTY", "CAP"] [] do
    pure ⟨← i.req "C" decimal, ← i.req "PROD" productForm, ← i.req "UN" (fixedDigits 4), ← i.req "CLASS" classForm,
      ← i.req "PG" packForm, ← i.req "QTY" decimal, ← i.req "CAP" decimal⟩

def showLineForm (i : Items) : Parsed ShowLineArgs :=
  i.read ["DOC", "LINE"] [] do pure ⟨← i.req "DOC" docForm, ← i.req "LINE" decimal⟩

def amendQtyForm (i : Items) : Parsed AmendQtyArgs :=
  i.read ["DOC", "C", "QTY"] [] do pure ⟨← i.req "DOC" docForm, ← i.req "C" decimal, ← i.req "QTY" decimal⟩

def amendProdForm (i : Items) : Parsed AmendProdArgs :=
  i.read ["DOC", "C", "PROD"] [] do pure ⟨← i.req "DOC" docForm, ← i.req "C" decimal, ← i.req "PROD" productForm⟩

def amendRemoveForm (i : Items) : Parsed AmendRemoveArgs :=
  i.read ["DOC", "C"] ["REMOVE"] do
    if i.word "REMOVE" then pure ⟨← i.req "DOC" docForm, ← i.req "C" decimal⟩ else none

def cpVerbs : Verbs
  | "STATUS" => some fun h i => .cpStatus h (noFields i)
  | "OPEN" => some fun h i => .cpOpen h (openForm i)
  | "LINE" => some fun h i => .cpLine h (lineForm i)
  | "CONFIRM" => some fun h i => .cpConfirm h (noFields i)
  | "ABORT" => some fun h i => .cpAbort h (noFields i)
  | "VOID" => some fun h i => .cpVoid h (oneField i "DOC" docForm)
  | "SHOW" => some fun h i =>
    if (i.get "LINE").isSome then .cpShowLine h (showLineForm i) else .cpShow h (oneField i "DOC" docForm)
  | "LIST" => some fun h i => .cpList h (oneField i "FROM" decimal)
  | "AMEND" => some fun h i =>
    if i.word "REMOVE" then .cpAmendRemove h (amendRemoveForm i)
    else if (i.get "PROD").isSome then .cpAmendProd h (amendProdForm i) else .cpAmendQty h (amendQtyForm i)
  | "WITHDRAW" => some fun h i => .cpWithdraw h (oneField i "DOC" docForm)
  | _ => none

def assignForm (i : Items) : Parsed AssignArgs :=
  i.read ["DOC", "DRV"] [] do pure ⟨← i.req "DOC" docForm, ← i.req "DRV" driverForm⟩

def startForm (i : Items) : Parsed StartArgs :=
  i.read ["C", "PRESET"] [] do pure ⟨← i.req "C" decimal, ← i.req "PRESET" decimal⟩

def tempForm (i : Items) : Parsed TempArgs :=
  i.read ["C", "T"] [] do pure ⟨← i.req "C" decimal, ← i.req "T" signedDecimal⟩

def bayVerbs (b : Bay) : Verbs
  | "STATUS" => some fun h i => if i = [] then .bStatus h b (some ()) else .bStatusLine h b (oneField i "C" decimal)
  | "ASSIGN" => some fun h i => .bAssign h b (assignForm i)
  | "START" => some fun h i => .bStart h b (startForm i)
  | "STOP" => some fun h i => .bStop h b (noFields i)
  | "RESUME" => some fun h i => .bResume h b (noFields i)
  | "ACKSTRAY" => some fun h i => .bAckstray h b (noFields i)
  | "TEMP" => some fun h i => .bTemp h b (tempForm i)
  | "DRIVER" => some fun h i => .bDriver h b (oneField i "DRV" driverForm)
  | "ACKRESTART" => some fun h i => .bAckrestart h b (noFields i)
  | "DISPATCH" => some fun h i => .bDispatch h b (noFields i)
  | "CANCEL" => some fun h i => .bCancel h b (noFields i)
  | "CLEAR" => some fun h i => .bClear h b (noFields i)
  | "RESET" => some fun h i => .bReset h b (noFields i)
  | _ => none

def tsVerbs : Verbs
  | "STATUS" => some fun h i => .tsStatus h (noFields i)
  | "CALIBRATE" => some fun h i => .tsCalibrate h (noFields i)
  | _ => none

def dlVerbs : Verbs
  | "STATUS" => some fun h i => if i = [] then .dlStatus h (some ()) else .dlStatusSeg h (oneField i "SEG" decimal)
  | "OPEN" => some fun h i =>
    if (i.get "SEQ").isSome then .dlOpenSeq h (oneField i "SEQ" decimal) else .dlOpenSeg h (oneField i "SEG" decimal)
  | "READ" => some fun h i => .dlRead h (noFields i)
  | "EXPORTED" => some fun h i => .dlExported h (oneField i "SEG" decimal)
  | "RECLAIM" => some fun h i => .dlReclaim h (oneField i "SEG" decimal)
  | _ => none

def productArgsForm (i : Items) : Parsed ProductArgs :=
  i.read ["CODE", "UN", "CLASS", "PG", "GROUP", "ACOLD", "BCOLD", "AHOT", "BHOT"] ["PRODUCT"] do
    pure ⟨← i.req "CODE" productForm, ← i.req "UN" (fixedDigits 4), ← i.req "CLASS" classForm, ← i.req "PG" packForm,
      ← i.req "GROUP" groupForm, ← i.req "ACOLD" decimal, ← i.req "BCOLD" decimal, ← i.req "AHOT" decimal,
      ← i.req "BHOT" decimal⟩

def pairForm (cs : List Char) : Option (Option Group × Option Group) :=
  match splitAtChar ',' cs with
  | [x, y] => do pure (← groupForm x, ← groupForm y)
  | _ => none

def pairArgsForm (i : Items) : Parsed PairArgs :=
  i.read ["PAIR", "ENTRY"] ["SEGREGATION"] do
    let (x, y) ← i.req "PAIR" pairForm
    pure ⟨x, y, ← i.req "ENTRY" entryForm⟩

/-- A form that takes one or more of its optional fields (R197). -/
def someGiven {α : Type} (given : List Bool) (a : α) : Option α := if given.any id then some a else none

def bayArgsForm (i : Items) : Parsed BayArgs :=
  i.read ["N", "ENABLE", "F", "STEP", "PAUSE"] ["BAY"] do
    let n ← i.req "N" decimal
    let en ← i.opt "ENABLE" yesNoForm
    let f ← i.opt "F" decimal
    let st ← i.opt "STEP" decimal
    let pa ← i.opt "PAUSE" decimal
    someGiven [en.isSome, f.isSome, st.isSome, pa.isSome] ⟨n, en, f, st, pa⟩

def hoursArgsForm (i : Items) : Parsed HoursArgs :=
  i.read ["DDAY", "DCONT", "BMIN", "RDAILY", "DWEEK", "SSPAN", "M"] ["HOURS"] do
    let a ← i.opt "DDAY" decimal
    let b ← i.opt "DCONT" decimal
    let c ← i.opt "BMIN" decimal
    let d ← i.opt "RDAILY" decimal
    let e ← i.opt "DWEEK" decimal
    let f ← i.opt "SSPAN" decimal
    let m ← i.opt "M" decimal
    someGiven [a.isSome, b.isSome, c.isSome, d.isSome, e.isSome, f.isSome, m.isSome] ⟨a, b, c, d, e, f, m⟩

def toleranceArgsForm (i : Items) : Parsed ToleranceArgs :=
  i.read ["ABS", "PERMILLE"] ["TOLERANCE"] do
    let a ← i.opt "ABS" decimal
    let p ← i.opt "PERMILLE" decimal
    someGiven [a.isSome, p.isSome] ⟨a, p⟩

/-- `ST SET`, by its section keyword (R197); a request that names no section is refused like a malformed PRODUCT. -/
def stSetCmd (h : Hdr) (i : Items) : Instr :=
  match i.words with
  | ["SEGREGATION"] => .stSetSegregation h (pairArgsForm i)
  | ["BAY"] => .stSetBay h (bayArgsForm i)
  | ["HOURS"] => .stSetHours h (hoursArgsForm i)
  | ["TOLERANCE"] => .stSetTolerance h (toleranceArgsForm i)
  | ["CALENDAR"] => .stSetCalendar h (i.read ["WEEKSTART"] ["CALENDAR"] (i.req "WEEKSTART" decimal))
  | ["SAMPLER"] => .stSetSampler h (i.read ["PERIOD"] ["SAMPLER"] (i.req "PERIOD" decimal))
  | ["LINK"] => .stSetLink h (i.read ["ATTN"] ["LINK"] (i.req "ATTN" attnForm))
  | ["PRODUCT"] => .stSetProduct h (productArgsForm i)
  | ["PRODUCT", "DELETE"] => .stSetProductDelete h (i.read ["CODE"] ["PRODUCT", "DELETE"] (i.req "CODE" productForm))
  | ["DELETE", "PRODUCT"] => .stSetProductDelete h (i.read ["CODE"] ["PRODUCT", "DELETE"] (i.req "CODE" productForm))
  | _ => .stSetProduct h none

/-- What `ST SHOW` of a section reads (R198). -/
def showSelForm (sec : Section) (i : Items) : Option ShowSel :=
  match sec with
  | .PRODUCT =>
    match i.get "CODE", i.get "FROM" with
    | some c, none => (productForm c).map .code
    | none, some f => (decimal f).map .start
    | _, _ => none
  | .SEGREGATION => (i.req "ROW" groupForm).map .row
  | .BAY => (i.req "N" decimal).map .bay
  | _ => some .whole

def showFields : Section → List String
  | .PRODUCT => ["CODE", "FROM"]
  | .SEGREGATION => ["ROW"]
  | .BAY => ["N"]
  | _ => []

def showArgsForm (i : Items) : Parsed ShowArgs := do
  let w ← i.words.find? (· ≠ "STAGED")
  let sec ← sectionForm w
  i.read (showFields sec) [w, "STAGED"] do
    pure ⟨sec, i.word "STAGED", ← showSelForm sec i⟩

def stVerbs : Verbs
  | "STATUS" => some fun h i => .stStatus h (noFields i)
  | "SET" => some stSetCmd
  | "SHOW" => some fun h i => .stShow h (showArgsForm i)
  | "DISCARD" => some fun h i => .stDiscard h (noFields i)
  | "APPLY" => some fun h i => .stApply h (noFields i)
  | _ => none

def unitVerbs : UnitName → Verbs
  | .DV => dvVerbs | .CK => ckVerbs | .DT => dtVerbs | .CP => cpVerbs | .B b => bayVerbs b
  | .TS => tsVerbs | .DL => dlVerbs | .ST => stVerbs

/-! ## Routing (R5) -/

def unitOf : List Char → Option UnitName
  | ['D', 'V'] => some .DV | ['C', 'K'] => some .CK | ['D', 'T'] => some .DT | ['C', 'P'] => some .CP
  | ['T', 'S'] => some .TS | ['D', 'L'] => some .DL | ['S', 'T'] => some .ST
  | ['B', c] => if h : 49 ≤ c.toNat ∧ c.toNat ≤ 56 then some (.B ⟨c.toNat - 49, by omega⟩) else none
  | _ => none

/-- 1 to 12 capitals (R5, test 3). -/
def verbForm (cs : List Char) : Bool := decide (1 ≤ cs.length) && decide (cs.length ≤ 12) && cs.all isCapital

/-- The command that a line's covered characters, without the last space, spell (R5, R205). The level of SUPV is put
in when the request is taken. -/
def commandOf (supv : Bool) (cs : List Char) : Instr :=
  match splitAtChar ' ' cs with
  | [t1, t2] :: unit :: rest =>
    let h : Hdr := ⟨BitVec.ofNat 8 (16 * hexVal t1 + hexVal t2), supv⟩
    if h.tag = 0xFF#8 then .unknownRequest h (.tagReserved (String.ofList unit))
    else match unitOf unit with
      | none => .unknownRequest h (.unknownUnit (String.ofList unit))
      | some u =>
        match rest with
        | [] => .unknownRequest h (.badVerb u)
        | verb :: fields =>
          if verbForm verb then
            match unitVerbs u (String.ofList verb) with
            | some cmd => cmd h (itemsOf fields)
            | none => .unknownRequest h (.unknownVerb u)
          else .unknownRequest h (.badVerb u)
  | _ => .unknownRequest ⟨0, supv⟩ (.unknownUnit "")

/-! ## The line tests (R2) -/

def rxChar (c : RxChar) : Char := Char.ofNat c.code.toNat

/-- A LF received without a framing error ends the line (R1). -/
def rxIsLf (c : RxChar) : Bool := c.code == 0x0A#8 && !c.framing

/-- The line of CR LF alone (R1); `cs` are the characters before the LF. -/
def isEmptyLine (cs : List RxChar) : Bool := cs == [⟨0x0D#8, false⟩]

/-- Test 2 of R2 on the characters before the LF: the covered characters, with their last space, when it passes. -/
def passCheck (cs : List RxChar) : Option (List Char) :=
  if cs.any (·.framing) then none
  else match (cs.map rxChar).reverse with
    | '\r' :: d2 :: d1 :: '*' :: ' ' :: front =>
      let covered := (' ' :: front).reverse
      if isHex d1 && isHex d2 && crc8 covered == BitVec.ofNat 8 (16 * hexVal d1 + hexVal d2) then some covered
      else none
    | _ => none

/-- Test 3 of R2 on the covered characters. -/
def passAddr : List Char → Bool
  | a :: b :: c :: d :: e :: f :: _ =>
    isHex a && isHex b && c == ' ' && isCodeChar d && isCodeChar e && f == ' '
  | _ => false

end Sys2Proof.Machine
end

