-- ==== Sys2Proof/Machine/Link.lean ====
section
/-! DEFINITION. Machine/Link.lean: the device unit's requests, the requests of TS, what each request row does when it is
taken (one table for all requests), and how lines are received, accepted, taken and answered
(01_the_message_link.md). -/

namespace Sys2Proof.Machine

/-! ## The device unit (R9, R10, R12, R14, R15) -/

def rejectionFields (d : Dv) : List Fld :=
  [fld "FULL" (dec d.full), fld "LONG" (dec d.long), fld "CHECK" (dec d.check), fld "ADDR" (dec d.addr)]

def dvStatus (f : NoFields) (s : State) : State × Answer :=
  match f with
  | none => syntaxRefusal s
  | some _ =>
    let d := s.dv
    (s, ok ([fld "NOTICE" (modeText d.mode), fld "QUEUE" (dec d.notices.length), fld "MARKS" d.markText,
      fld "FAULT" (commas [setClear d.faultSet, setClear (d.marks != []), setClear d.sampler, setClear d.log,
        setClear d.settings]), fld "START" (startText d.startKind)] ++ rejectionFields d))

def dvClear (f : NoFields) (s : State) : State × Answer :=
  match f with
  | none => syntaxRefusal s
  | some _ => (setComponents (fun d => { d with marks := [] }) s, ok [])

def dvMode (a : Parsed (Option NoticeMode)) (s : State) : State × Answer :=
  match a with
  | none => syntaxRefusal s
  | some none => (s, er .RANGE)
  | some (some m) => (s.modDv fun d => { d with mode := m }, ok [fld "NOTICE" (modeText m)])

def dvNext (f : NoFields) (s : State) : State × Answer :=
  match f with
  | none => syntaxRefusal s
  | some _ =>
    match s.dv.notices with
    | [] => (s, ok [bare "EMPTY"])
    | n :: ns =>
      (s.modDv fun d => { d with notices := ns }, ok (bare (unitText n.unit) :: bare (kindText n.kind) :: n.fields))

def dvReset (f : NoFields) (s : State) : State × Answer :=
  match f with
  | none => syntaxRefusal s
  | some _ => (s.modDv fun d => { d with resetWait := true }, ok [])

/-- A request that the routing tests refuse; UNKNOWN_VERB sets the unit's mark (R5, R12). -/
def refuseRouting (u : BadRequest) (s : State) : State × Answer :=
  match u with
  | .tagReserved _ => (s, er .TAG_RESERVED)
  | .unknownUnit _ => (s, er .UNKNOWN_UNIT)
  | .badVerb _ => (s, er .SYNTAX)
  | .unknownVerb u => (setComponents (fun d => { d with marks := setMark u d.marks }) s, er .UNKNOWN_VERB)

def badToken : BadRequest → String
  | .tagReserved t => t
  | .unknownUnit t => t
  | .badVerb u => unitText u
  | .unknownVerb u => unitText u

/-! ## The sampler's requests (R150, R151) -/

def convText : Conv → String
  | .FREE => "FREE"
  | .CAL => "CAL"
  | .SAMPLE b _ => unitText (.B b)

def pendText (t : Ts) : String :=
  commasOrNone (allBays.filterMap fun b => t.reqs[b].map fun r =>
    bayText b ++ ":" ++ dec r.weight ++ if r.final then "F" else "")

/-- Whole seconds until the next periodic calibration (R151, log 21). -/
def nextCal (s : State) : Nat := if s.ts.due then 0 else (s.periodMs - s.ts.sinceCal.getD 0) / 1000

def tsStatus (f : NoFields) (s : State) : State × Answer :=
  match f with
  | none => syntaxRefusal s
  | some _ =>
    let t := s.ts
    (s, ok ([fld "HEALTH" (healthText t.fault), fld "CLO" (dec t.clo), fld "CHI" (dec t.chi), fld "CONV" (convText t.conv),
      fld "PEND" (pendText t), fld "LAST" (bayText t.lastServed), fld "DUE" (yesNo t.due),
      fld "NEXTCAL" (dec (nextCal s))] ++
      match t.lastCal with
      | none => [fld "LASTCAL" "NONE"]
      | some c => [fld "LASTCAL" (c.time.elim "UNSET" timeText), fld "LO" (dec c.lo), fld "HI" (dec c.hi)]))

def tsCalibrate (f : NoFields) (s : State) : State × Answer :=
  match f with
  | none => syntaxRefusal s
  | some _ => if s.ts.conv = .CAL then (s, er .BUSY) else (calDue s, ok [bare "DUE"])

/-! ## What a request does when it is taken -/

/-- A request: its head, the unit token its reply carries, and what its unit does and answers (R3). -/
structure Request where
  hdr : Hdr
  token : String
  act : State → State × Answer

/-- The request of a row; none for the rows that are events. -/
def effect : Instr → Option Request
  | .unknownRequest h u => some ⟨h, badToken u, refuseRouting u⟩
  | .dvStatus h f => some ⟨h, "DV", dvStatus f⟩
  | .dvClear h f => some ⟨h, "DV", dvClear f⟩
  | .dvMode h a => some ⟨h, "DV", dvMode a⟩
  | .dvNext h f => some ⟨h, "DV", dvNext f⟩
  | .dvReset h f => some ⟨h, "DV", dvReset f⟩
  | .ckStatus h f => some ⟨h, "CK", ckStatus f⟩
  | .ckSet h a => some ⟨h, "CK", ckSet a⟩
  | .ckDstrule h a => some ⟨h, "CK", ckDstrule a⟩
  | .ckDstruleOff h f => some ⟨h, "CK", ckDstruleOff f⟩
  | .ckRules h f => some ⟨h, "CK", ckRules f⟩
  | .ckDayclose h a => some ⟨h, "CK", ckDayclose a⟩
  | .ckClearstamp h f => some ⟨h, "CK", ckClearstamp f⟩
  | .dtStatus h f => some ⟨h, "DT", dtStatus f⟩
  | .dtEnrol h a => some ⟨h, "DT", dtEnrol a⟩
  | .dtRemove h a => some ⟨h, "DT", dtRemove a⟩
  | .dtImport h a => some ⟨h, "DT", dtImport a⟩
  | .dtArrive h a => some ⟨h, "DT", dtArrive a⟩
  | .dtDepart h a => some ⟨h, "DT", dtDepart a⟩
  | .dtClosetrip h a => some ⟨h, "DT", dtClosetrip a⟩
  | .dtQuery h a => some ⟨h, "DT", dtQuery a⟩
  | .dtQueryPlan h a => some ⟨h, "DT", dtQueryPlan a⟩
  | .dtList h a => some ⟨h, "DT", dtList a⟩
  | .cpStatus h f => some ⟨h, "CP", cpStatus f⟩
  | .cpOpen h a => some ⟨h, "CP", cpOpen a⟩
  | .cpLine h a => some ⟨h, "CP", cpLine a⟩
  | .cpConfirm h f => some ⟨h, "CP", cpConfirm f⟩
  | .cpAbort h f => some ⟨h, "CP", cpAbort f⟩
  | .cpVoid h a => some ⟨h, "CP", cpVoid a⟩
  | .cpShow h a => some ⟨h, "CP", cpShow a⟩
  | .cpShowLine h a => some ⟨h, "CP", cpShowLine a⟩
  | .cpList h a => some ⟨h, "CP", cpList a⟩
  | .cpAmendQty h a => some ⟨h, "CP", cpAmendQty a⟩
  | .cpAmendProd h a => some ⟨h, "CP", cpAmendProd a⟩
  | .cpAmendRemove h a => some ⟨h, "CP", cpAmendRemove a⟩
  | .cpWithdraw h a => some ⟨h, "CP", cpWithdraw a⟩
  | .bStatus h b f => some ⟨h, unitText (.B b), bStatus b f⟩
  | .bStatusLine h b a => some ⟨h, unitText (.B b), bStatusLine b a⟩
  | .bAssign h b a => some ⟨h, unitText (.B b), bAssign b a⟩
  | .bStart h b a => some ⟨h, unitText (.B b), bStart b a⟩
  | .bStop h b f => some ⟨h, unitText (.B b), bStop b f⟩
  | .bResume h b f => some ⟨h, unitText (.B b), bResume b f⟩
  | .bAckstray h b f => some ⟨h, unitText (.B b), bAckstray b f⟩
  | .bTemp h b a => some ⟨h, unitText (.B b), bTemp b a⟩
  | .bDriver h b a => some ⟨h, unitText (.B b), bDriver b a⟩
  | .bAckrestart h b f => some ⟨h, unitText (.B b), bAckrestart b f⟩
  | .bDispatch h b f => some ⟨h, unitText (.B b), bDispatch b f⟩
  | .bCancel h b f => some ⟨h, unitText (.B b), bCancel b f⟩
  | .bClear h b f => some ⟨h, unitText (.B b), bClear b f⟩
  | .bReset h b f => some ⟨h, unitText (.B b), bReset b f⟩
  | .tsStatus h f => some ⟨h, "TS", tsStatus f⟩
  | .tsCalibrate h f => some ⟨h, "TS", tsCalibrate f⟩
  | .dlStatus h f => some ⟨h, "DL", dlStatus f⟩
  | .dlStatusSeg h a => some ⟨h, "DL", dlStatusSeg a⟩
  | .dlOpenSeg h a => some ⟨h, "DL", dlOpenSeg a⟩
  | .dlOpenSeq h a => some ⟨h, "DL", dlOpenSeq a⟩
  | .dlRead h f => some ⟨h, "DL", dlRead f⟩
  | .dlExported h a => some ⟨h, "DL", dlExported a⟩
  | .dlReclaim h a => some ⟨h, "DL", dlReclaim a⟩
  | .stStatus h f => some ⟨h, "ST", stStatus f⟩
  | .stShow h a => some ⟨h, "ST", stShow a⟩
  | .stDiscard h f => some ⟨h, "ST", stDiscard f⟩
  | .stSetProduct h a => some ⟨h, "ST", stSetProduct a⟩
  | .stSetProductDelete h a => some ⟨h, "ST", stSetProductDelete a⟩
  | .stSetSegregation h a => some ⟨h, "ST", stSetSegregation a⟩
  | .stSetBay h a => some ⟨h, "ST", stSetBay a⟩
  | .stSetHours h a => some ⟨h, "ST", stSetHours a⟩
  | .stSetTolerance h a => some ⟨h, "ST", stSetTolerance a⟩
  | .stSetCalendar h a => some ⟨h, "ST", stSetCalendar a⟩
  | .stSetSampler h a => some ⟨h, "ST", stSetSampler a⟩
  | .stSetLink h a => some ⟨h, "ST", stSetLink a⟩
  | .stApply h f => some ⟨h, "ST", stApply f⟩
  | _ => none

/-! ## Taking requests (R3, R4) -/

/-- DV takes a line when the reply queue has room and no DV RESET waits (R3). -/
def canTake (s : State) : Bool := decide (s.dv.replies.length < Config.replySize) && !s.dv.resetWait

/-- The unit's action and answer, or TAG_RESERVED (R4). -/
def Request.run (r : Request) (s : State) : State × Answer := if r.hdr.tag = 0xFF#8 then (s, er .TAG_RESERVED) else r.act s

def queueReply (r : Reply) (s : State) : State := s.modDv fun d => { d with replies := d.replies ++ [r] }

/-- A request is taken: the unit acts and answers, the reply joins the queue, and a free transmitter starts (R3, R7). -/
def takeRequest (c : Instr) (s : State) : State :=
  match effect c with
  | some r =>
    let p := r.run s
    pump (queueReply ⟨r.hdr.tag, r.token, p.2⟩ p.1)
  | none => s

/-- DV takes waiting lines while it can; `fuel` is the number of lines (R3). -/
def takeWaiting : Nat → State → State
  | 0, s => s
  | fuel + 1, s =>
    match s.dv.buffer with
    | [] => s
    | c :: cs => if canTake s then takeWaiting fuel (takeRequest c (s.modDv fun d => { d with buffer := cs })) else s

/-! ## Receiving lines (R1, R2) -/

/-- The causes of a rejection (R2). -/
inductive RejectCause where
  | FULL | LONG | CHECK | ADDR
deriving DecidableEq, Repr

def countRejection (c : RejectCause) (d : Dv) : Dv :=
  match c with
  | .FULL => { d with full := satAdd Config.maxCount16 d.full 1 }
  | .LONG => { d with long := satAdd Config.maxCount16 d.long 1 }
  | .CHECK => { d with check := satAdd Config.maxCount16 d.check 1 }
  | .ADDR => { d with addr := satAdd Config.maxCount16 d.addr 1 }

/-- A rejected line: its cause is counted and FRAME_REJECT raised (R2). -/
def rejectLine (c : RejectCause) (s : State) : State :=
  let t := s.modDv (countRejection c)
  raise .DV .FRAME_REJECT (rejectionFields t.dv) t

/-- A line that passed tests 1 to 3 meets test 4, joins the buffer, and is taken when DV can (R2, R3). -/
def acceptLine (c : Instr) (s : State) : State :=
  if Config.bufferSize ≤ s.dv.buffer.length then pump (rejectLine .FULL s)
  else takeWaiting (s.dv.buffer.length + 1) (s.modDv fun d => { d with buffer := d.buffer ++ [c] })

/-- A complete line, its characters before the LF (R1, R2). -/
def completeLine (overlong : Bool) (cs : List RxChar) (s : State) : State :=
  if overlong || decide (Config.maxLine ≤ cs.length) then pump (rejectLine .LONG s)
  else if isEmptyLine cs then s
  else match passCheck cs with
    | none => pump (rejectLine .CHECK s)
    | some covered =>
      if passAddr covered then acceptLine (commandOf s.supv covered.dropLast) s else pump (rejectLine .ADDR s)

/-- A character arrives (R1). -/
def receive (c : RxChar) (s : State) : State :=
  if rxIsLf c then
    completeLine s.dv.overlong s.dv.rx (s.modDv fun d => { d with rx := [], overlong := false })
  else if Config.maxLine ≤ s.dv.rx.length then s.modDv fun d => { d with overlong := true }
  else s.modDv fun d => { d with rx := d.rx ++ [c] }

/-- The line falls silent after a part of a line (R1). -/
def silence (s : State) : State :=
  let t := s.modDv fun d => { d with rx := [], overlong := false }
  if s.dv.overlong then pump (rejectLine .LONG t) else t

/-- The line on TXD has been sent in full (R7). -/
def lineSent (s : State) : State :=
  if s.dv.wire.isSome then
    let t := pump (s.modDv fun d => { d with wire := none })
    takeWaiting t.dv.buffer.length t
  else s

/-! ## Rows -/

/-- A request row: its line arrives complete, with the level of SUPV that stands then (log 1, log 2). -/
def request (c : Instr) (supv : Bool) (s : State) : Host.Outcome State Fault Refusal :=
  .next (if s.supply then acceptLine c { s with supv := supv } else s)

/-- An event row: without the main supply nothing happens (log 5). -/
def event (f : State → State) (s : State) : Host.Outcome State Fault Refusal := .next (if s.supply then pump (f s) else s)

end Sys2Proof.Machine
end

