-- ==== Sys2Proof/Machine/Starts.lean ====
section
/-! DEFINITION. Machine/Starts.lean: the four starts, block by block (R16, R17, R33, R36, R64, R107, R137, R138, R152,
R192, R202). -/

namespace Sys2Proof.Machine

/-! ## The link, the settings and the log -/

/-- R17. -/
def Dv.started (k : StartKind) : Dv :=
  { rx := [], overlong := false, buffer := [], replies := [], wire := none, notices := [], mode := .PUSH, marks := [],
    full := 0, long := 0, check := 0, addr := 0, sampler := false, log := false, settings := false, startKind := k,
    resetWait := false, attnPulse := false }

/-- The settings store after its test: the applied copy, and DEFAULTS when the check failed (R202). -/
def St.started (good : Bool) (t : St) : St :=
  let ok := t.storeGood && good
  let c := if ok then t.store else Settings.factory
  { t with storeGood := ok, applied := c, staging := c, apply := none, defaults := !ok }

/-- ST reports its component and raises APPLIED when the check failed (R202, R207, log 43). -/
def reportDefaults (s : State) : State :=
  if s.st.defaults then
    raise .ST .APPLIED [fld "RESULT" "DEFAULTS", fld "CHANGED" (sectionsText s.changed)]
      (setComponents (fun d => { d with settings := true }) s)
  else s

/-- The append being written is cut off (R177, R188). A completed record stands in the store, and nothing else of its
completion has happened (log 9). -/
def cutAppend (cut : CutPoint) (d : Dl) : Dl :=
  match d.writing with
  | none => d
  | some w =>
    match cut with
    | .beforeOpening => { if w.opened then modSeg w.seg (fun _ => Segment.erased) d else d with writing := none }
    | .beforeFirstSlot => { d with writing := none }
    | .torn => placeRecord w none d
    | .completed => placeRecord w (some (recordCheck w.seq w.record)) d

/-- A running scan is cut off; the segment states it had already written stand (R187). Where one of them closed a segment
behind a DAY_CLOSE record, the day counts are still to be found from the store (R189, log 9). -/
def cutScan (wrote : List SegNo) (d : Dl) : Dl :=
  if d.scan then
    { wrote.foldl (fun e i => modSeg i scanSegment e) d with
      countsFromStore := d.countsFromStore || wrote.any fun i => d.segs[i].state == .ACTIVE && d.segs[i].endsDay }
  else d

/-- R192: the queue is emptied, and the scan begins. -/
def Dl.started (cold : Bool) (e : StartEnv) (d : Dl) : Dl :=
  let c := cutScan e.wrote (cutAppend e.cut d)
  { c with queue := [], refused := 0, cursor := none, reclaim := none, scan := true, accesses := 0,
           countsFromStore := cold || c.countsFromStore }

/-- The part every start shares: link, settings, log, sampler and staging (R17, R202, R192, R152, R107). -/
def startCommon (k : StartKind) (e : StartEnv) (s : State) : State :=
  reportDefaults
    { s with supply := true, dv := Dv.started k, st := s.st.started e.settingsGood,
             dl := s.dl.started (k == .COLD) e, ts := Ts.reset, cp := { s.cp with staging := none } }

/-! ## Posts (R16, R23, R50, R129, R201) -/

/-- The order in which sources post when the world names none. -/
def allSources : List LogSource := [.DV, .CK, .DT, .ST] ++ allBays.map .B

/-- DV posts its RESTART record; every other source its oldest record (R16). -/
def postAtStart (k : StartKind) (src : LogSource) (s : State) : State :=
  match src with
  | .DV => if s.dl.hasAppend .DV then s else postRecord .DV (s.makeRec (.RESTART k)) s
  | _ => postFrom src s

/-- The posts of a start, in the world's order first (R16, log 9). -/
def startPosts (k : StartKind) (e : StartEnv) (s : State) : State :=
  (e.order ++ allSources).foldl (fun t src => postAtStart k src t) s

/-! ## A cold start (R36, R64, R107, R138) -/

/-- A bay after a cold start: IDLE or CLOSED by its entry (R138); the input levels stay. -/
def coldBay (en : Bool) (u : BayUnit) : BayUnit :=
  { BayUnit.reset with state := if en then .IDLE else .CLOSED, bond := u.bond, halt := u.halt }

def coldStart (e : StartEnv) (s : State) : State :=
  let s1 := startCommon .COLD e s
  let s2 := { s1 with ck := { Ck.reset with count := (Config.coldCount s.fresh).toNat }, fresh := s.fresh + 1, dt := Dt.reset,
                      cp := Cp.reset, st := { s1.st with outbox := none }, dl := { s1.dl with day := DayCounts.zero } }
  pump (startPosts .COLD e (forBays (fun b t => t.modBay b (coldBay (t.entry b).enabled)) s2))

/-! ## A warm start (R33, R64, R107, R137, R138) -/

/-- R64. -/
def Dt.warm (d : Dt) : Dt :=
  { d with drivers := d.drivers.map fun x => { x with pend := false }, trips := 0, logfull := 0, lastTrip := none }

/-- A DISPATCH record in the outbox is discarded, LOGFULL is 0 and RELEASE inactive (R137). -/
def BayUnit.warm (u : BayUnit) : BayUnit :=
  { u with outbox := u.outbox.filter fun r => !isDispatch r, logfull := 0, release := false }

/-- The active line is reconciled without a final sample and the context discarded (R137, R157). -/
def BayUnit.endWithout (s : State) (b : Bay) (u : BayUnit) : BayUnit :=
  match u.ctx with
  | none => u
  | some c => { (u.modLine c.comp fun l => reconcileLine false s b { l with pend := 0 }).matchHolds with ctx := none }

def BayUnit.keep (u : BayUnit) : BayUnit := { u with state := .HELD, holds := { u.holds with restart := true } }

/-- One bay at a warm start or device reset (R137). -/
def restartBay (b : Bay) (s0 : State) : State :=
  let s := s0.modBay b BayUnit.warm
  let u := s.bay b
  match u.state with
  | .CLOSED | .IDLE => s
  | .ASSIGNED | .HELD =>
    if u.anyLoaded then changeBay b "RESTART" false .stateFirst BayUnit.keep s
    else changeBay b "RESTART" true .stateFirst (BayUnit.empty · .IDLE) (unbindBay b s)
  | .LOADING | .PAUSED | .FINISHING =>
    changeBay b "RESTART" true .stateFirst (fun u => (u.endWithout s b).keep) s
  | .DISPATCHING => changeBay b "RESTART" false .stateFirst BayUnit.keep s
  | .DISPATCHED => changeBay b "RESTART" true .stateFirst (BayUnit.empty · .IDLE) s

/-- One bay when factory defaults were loaded: a kept bay gives up its bindings, and every bay is CLOSED (R138). -/
def closeBay (b : Bay) (s : State) : State :=
  match (s.bay b).state with
  | .CLOSED => s
  | .HELD => vacateBay b "RESTART" .RESET .CLOSED s
  | _ => changeBay b "RESTART" false .stateFirst (fun u => { u with state := .CLOSED }) s

def restartBays (s : State) : State :=
  let t := forBays restartBay s
  if t.st.defaults then forBays closeBay t else t

/-- A power-up means that the supply had been lost; when no loss was seen it is taken as lost and restored at once
(log 22). -/
def lossSeen (s : State) : State := if s.supply then supplyLost s else s

/-- A warm start or device reset; `fromLoss` says that the supply had been lost (R33). -/
def warmStart (k : StartKind) (fromLoss : Bool) (e : StartEnv) (s : State) : State :=
  let s1 := { startCommon k e s with dt := s.dt.warm }
  let s2 := if fromLoss then clockRestore s1 else s1.modCk fun c => { c with outbox := [] }
  pump (startPosts k e (restartBays s2))

/-- DV RESET's reply has been sent in full, and no line is on the wire (R15). -/
def resetReady (s : State) : Bool := s.dv.resetWait && s.dv.wire.isNone && s.dv.replies.isEmpty

end Sys2Proof.Machine
end

