-- ==== Sys2Proof/Machine/Rows.lean ====
section
/-! DEFINITION. Machine/Rows.lean: the meaning of every command, one definition for each row of
spec/opcode_table.json. A request row is served by `request`, which takes what the row does from the one table `effect`;
an event row acts while the main supply is present (log 3, log 5). -/

namespace Sys2Proof.Machine

/-- RX_CHARACTER (R1). A character arrives on RXD and DV adds it to the line being assembled; at LF the line is complete and is tested. -/
def execRxCharacter (c : RxChar) (supv : Bool) (s : State) : Host.Outcome State Fault Refusal :=
  event (fun t => receive c { t with supv := supv }) s

/-- LINE_SILENCE (R1). 500 ms pass with no character after part of a line, so the partial line is abandoned; an overlong line is rejected under LONG. -/
def execLineSilence (s : State) : Host.Outcome State Fault Refusal :=
  event silence s

/-- UNKNOWN_REQUEST (R5). A taken request with tag FF, an unknown unit, a malformed verb or an unknown verb is refused; UNKNOWN_VERB sets the unit's invalid-command mark. -/
def execUnknownRequest (h : Hdr) (u : BadRequest) (s : State) : Host.Outcome State Fault Refusal :=
  request (.unknownRequest h u) h.supv s

/-- TRANSMIT_LINE_END (R7). The line on TXD has been sent in full, and the transmitter chooses the next reply or, in PUSH mode, the next notice. -/
def execTransmitLineEnd (supv : Bool) (s : State) : Host.Outcome State Fault Refusal :=
  event (fun t => lineSent { t with supv := supv }) s

/-- ATTN_PULSE_END (R11). The 2 ms ATTN pulse of PULSE mode ends and ATTN goes inactive. -/
def execAttnPulseEnd (s : State) : Host.Outcome State Fault Refusal :=
  event (fun t => t.modDv fun d => { d with attnPulse := false }) s

/-- DV_STATUS (R14). Returns the notice mode, queue length, marks, fault summary, start kind and rejection counts. -/
def execDvStatus (h : Hdr) (f : NoFields) (s : State) : Host.Outcome State Fault Refusal :=
  request (.dvStatus h f) h.supv s

/-- DV_CLEAR (R12). Clears all invalid-command marks. -/
def execDvClear (h : Hdr) (f : NoFields) (s : State) : Host.Outcome State Fault Refusal :=
  request (.dvClear h f) h.supv s

/-- DV_MODE (R9). Sets the notice mode to PUSH or POLL. -/
def execDvMode (h : Hdr) (a : Parsed (Option NoticeMode)) (s : State) : Host.Outcome State Fault Refusal :=
  request (.dvMode h a) h.supv s

/-- DV_NEXT (R10). Removes the oldest notice from the queue and returns it, or returns EMPTY. -/
def execDvNext (h : Hdr) (f : NoFields) (s : State) : Host.Outcome State Fault Refusal :=
  request (.dvNext h f) h.supv s

/-- DV_RESET (R15). Queues the OK reply and stops taking lines, so that a device reset follows once the reply has been sent. -/
def execDvReset (h : Hdr) (f : NoFields) (s : State) : Host.Outcome State Fault Refusal :=
  request (.dvReset h f) h.supv s

/-- DEVICE_RESET (R15). Once the RESET reply has been sent in full, the part performs a device reset, handled as a warm start with no power interruption recorded. -/
def execDeviceReset (e : StartEnv) (s : State) : Host.Outcome State Fault Refusal :=
  event (fun t => if resetReady t then warmStart .DEVICE false e t else t) s

/-- COLD_START (R36). Power-up with the retained memory check failed: every block takes its cold-start state, the scan begins, and the RESTART record is posted. -/
def execColdStart (e : StartEnv) (s : State) : Host.Outcome State Fault Refusal :=
  .next (coldStart e s)

/-- WARM_START (R33). Power-up with the retained memory good: stamps, POWER record, DST and late day close, bays kept or released, scan, RESTART record. -/
def execWarmStart (e : StartEnv) (s : State) : Host.Outcome State Fault Refusal :=
  .next (warmStart .WARM true e (lossSeen s))

/-- RESET_LINE (R17). Assertion of the RESET input performs a warm start with no power interruption recorded. -/
def execResetLine (e : StartEnv) (s : State) : Host.Outcome State Fault Refusal :=
  event (warmStart .WARM false e) s

/-- MAIN_SUPPLY_LOSS (R32). Loss of the main supply: CK writes the latest-loss time and, if absent, the first-loss stamp. -/
def execMainSupplyLoss (s : State) : Host.Outcome State Fault Refusal :=
  .next (if s.supply then supplyLost s else s)

/-- CLOCK_TICK (R18). The standard-time second count advances by one, stopping at its maximum. -/
def execClockTick (s : State) : Host.Outcome State Fault Refusal :=
  .next (tick s)

/-- MINUTE_REACHED (R29). With the clock set and the supply present the count enters a new minute, and the day-close match is tested. -/
def execMinuteReached (s : State) : Host.Outcome State Fault Refusal :=
  event minuteReached s

/-- DST_INSTANT (R27). The count reaches a forward or reverse instant: the DST-in-force state changes, the DST notice is raised, and skipped minutes are tested for day close. -/
def execDstInstant (s : State) : Host.Outcome State Fault Refusal :=
  .next (if s.supply then pump (dstReached s) else dstReached s)

/-- CK_STATUS (R35). Returns the clock-set flag, times, DST state, week start, match, stamps and outbox count. -/
def execCkStatus (h : Hdr) (f : NoFields) (s : State) : Host.Outcome State Fault Refusal :=
  request (.ckStatus h f) h.supv s

/-- CK_SET (R21). Sets the standard time after the BUSY and history tests, recomputes DST and makes a CLOCK_SET record. -/
def execCkSet (h : Hdr) (a : Parsed CkSetArgs) (s : State) : Host.Outcome State Fault Refusal :=
  request (.ckSet h a) h.supv s

/-- CK_DSTRULE (R25). Writes the forward or reverse DST rule and recomputes the DST-in-force state. -/
def execCkDstrule (h : Hdr) (a : Parsed RuleArgs) (s : State) : Host.Outcome State Fault Refusal :=
  request (.ckDstrule h a) h.supv s

/-- CK_DSTRULE_OFF (R25). Removes both DST rules and disables DST. -/
def execCkDstruleOff (h : Hdr) (f : NoFields) (s : State) : Host.Outcome State Fault Refusal :=
  request (.ckDstruleOff h f) h.supv s

/-- CK_RULES (R25). Returns the two DST rules. -/
def execCkRules (h : Hdr) (f : NoFields) (s : State) : Host.Outcome State Fault Refusal :=
  request (.ckRules h f) h.supv s

/-- CK_DAYCLOSE (R28). Writes the three fields of the day-close match with their enables. -/
def execCkDayclose (h : Hdr) (a : Parsed DaycloseArgs) (s : State) : Host.Outcome State Fault Refusal :=
  request (.ckDayclose h a) h.supv s

/-- CK_CLEARSTAMP (R34). Makes the first-loss stamp absent. -/
def execCkClearstamp (h : Hdr) (f : NoFields) (s : State) : Host.Outcome State Fault Refusal :=
  request (.ckClearstamp h f) h.supv s

/-- DT_STATUS (R56). Returns the counts of driver records, outbox records, trips and refusals. -/
def execDtStatus (h : Hdr) (f : NoFields) (s : State) : Host.Outcome State Fault Refusal :=
  request (.dtStatus h f) h.supv s

/-- DT_ENROL (R44). Creates an ABSENT driver record with an empty duty list. -/
def execDtEnrol (h : Hdr) (drv : Parsed Nat) (s : State) : Host.Outcome State Fault Refusal :=
  request (.dtEnrol h drv) h.supv s

/-- DT_REMOVE (R45). Discards an ABSENT driver's record and duty list. -/
def execDtRemove (h : Hdr) (drv : Parsed Nat) (s : State) : Host.Outcome State Fault Refusal :=
  request (.dtRemove h drv) h.supv s

/-- DT_IMPORT (R48). Inserts a closed duty entry from card history after the overlap and capacity tests, then prunes the list. -/
def execDtImport (h : Hdr) (a : Parsed ImportArgs) (s : State) : Host.Outcome State Fault Refusal :=
  request (.dtImport h a) h.supv s

/-- DT_ARRIVE (R46). Makes the driver ON_SITE and opens a WORK entry at now. -/
def execDtArrive (h : Hdr) (drv : Parsed Nat) (s : State) : Host.Outcome State Fault Refusal :=
  request (.dtArrive h drv) h.supv s

/-- DT_DEPART (R47). Closes the open WORK entry at now and makes the driver ABSENT. -/
def execDtDepart (h : Hdr) (drv : Parsed Nat) (s : State) : Host.Outcome State Fault Refusal :=
  request (.dtDepart h drv) h.supv s

/-- DT_CLOSETRIP (R54). Replaces the open DRIVE entry with the reported trip segments, makes the driver ABSENT, logs TRIP_CLOSE and removes the trip document. -/
def execDtClosetrip (h : Hdr) (a : Parsed ClosetripArgs) (s : State) : Host.Outcome State Fault Refusal :=
  request (.dtClosetrip h a) h.supv s

/-- DT_QUERY (R77). Computes the duty figures and allowances of a driver at now without storing anything. -/
def execDtQuery (h : Hdr) (drv : Parsed Nat) (s : State) : Host.Outcome State Fault Refusal :=
  request (.dtQuery h drv) h.supv s

/-- DT_QUERY_PLAN (R78). Computes the allowances, slacks and verdict of a driver for a given plan without storing anything. -/
def execDtQueryPlan (h : Hdr) (a : Parsed QueryPlanArgs) (s : State) : Host.Outcome State Fault Refusal :=
  request (.dtQueryPlan h a) h.supv s

/-- DT_LIST (R55). Returns a driver's record and up to six entries of the stored duty list. -/
def execDtList (h : Hdr) (a : Parsed DtListArgs) (s : State) : Host.Outcome State Fault Refusal :=
  request (.dtList h a) h.supv s

/-- CP_STATUS (R94). Returns the staging progress and the document counts by state. -/
def execCpStatus (h : Hdr) (f : NoFields) (s : State) : Host.Outcome State Fault Refusal :=
  request (.cpStatus h f) h.supv s

/-- CP_OPEN (R85). Begins a staging with a new document header, discarding any staging in progress. -/
def execCpOpen (h : Hdr) (a : Parsed OpenArgs) (s : State) : Host.Outcome State Fault Refusal :=
  request (.cpOpen h a) h.supv s

/-- CP_LINE (R86). Adds one line to the staging. -/
def execCpLine (h : Hdr) (a : Parsed LineArgs) (s : State) : Host.Outcome State Fault Refusal :=
  request (.cpLine h a) h.supv s

/-- CP_CONFIRM (R87). Validates a complete staging and enters the document into the table as DRAFT. -/
def execCpConfirm (h : Hdr) (f : NoFields) (s : State) : Host.Outcome State Fault Refusal :=
  request (.cpConfirm h f) h.supv s

/-- CP_ABORT (R90). Unit reset of CP: discards any staging. -/
def execCpAbort (h : Hdr) (f : NoFields) (s : State) : Host.Outcome State Fault Refusal :=
  request (.cpAbort h f) h.supv s

/-- CP_VOID (R91). Removes a DRAFT document from the table. -/
def execCpVoid (h : Hdr) (doc : Parsed String) (s : State) : Host.Outcome State Fault Refusal :=
  request (.cpVoid h doc) h.supv s

/-- CP_SHOW (R92). Returns a document's header. -/
def execCpShow (h : Hdr) (doc : Parsed String) (s : State) : Host.Outcome State Fault Refusal :=
  request (.cpShow h doc) h.supv s

/-- CP_SHOW_LINE (R92). Returns one line of a document as it now stands. -/
def execCpShowLine (h : Hdr) (a : Parsed ShowLineArgs) (s : State) : Host.Outcome State Fault Refusal :=
  request (.cpShowLine h a) h.supv s

/-- CP_LIST (R93). Returns up to six documents of the table, each with its state. -/
def execCpList (h : Hdr) (start : Parsed Nat) (s : State) : Host.Outcome State Fault Refusal :=
  request (.cpList h start) h.supv s

/-- CP_AMEND_QTY (R102). Replaces the declared quantity of a bound document line, stacks the prior line, and notifies the bay. -/
def execCpAmendQty (h : Hdr) (a : Parsed AmendQtyArgs) (s : State) : Host.Outcome State Fault Refusal :=
  request (.cpAmendQty h a) h.supv s

/-- CP_AMEND_PROD (R103). Replaces the product of an OPEN line after the segregation test, stacks the prior line, and notifies the bay. -/
def execCpAmendProd (h : Hdr) (a : Parsed AmendProdArgs) (s : State) : Host.Outcome State Fault Refusal :=
  request (.cpAmendProd h a) h.supv s

/-- CP_AMEND_REMOVE (R104). Removes an OPEN line from a bound document, stacks it with its position, and notifies the bay. -/
def execCpAmendRemove (h : Hdr) (a : Parsed AmendRemoveArgs) (s : State) : Host.Outcome State Fault Refusal :=
  request (.cpAmendRemove h a) h.supv s

/-- CP_WITHDRAW (R105). Takes back the newest amendment on the stack after the line-state and re-validation tests. -/
def execCpWithdraw (h : Hdr) (doc : Parsed String) (s : State) : Host.Outcome State Fault Refusal :=
  request (.cpWithdraw h doc) h.supv s

/-- B_STATUS (R136). Returns the bay state, holds, bindings, context, input levels, stray count, line states and outbox. -/
def execBStatus (h : Hdr) (b : Bay) (f : NoFields) (s : State) : Host.Outcome State Fault Refusal :=
  request (.bStatus h b f) h.supv s

/-- B_STATUS_LINE (R136). Returns one line record with its counts, sums and reconciled figures. -/
def execBStatusLine (h : Hdr) (b : Bay) (comp : Parsed Nat) (s : State) : Host.Outcome State Fault Refusal :=
  request (.bStatusLine h b comp) h.supv s

/-- B_ASSIGN (R115). Binds a document at CP and a driver at DT, makes OPEN line records, and enters ASSIGNED or HELD(HOURS). -/
def execBAssign (h : Hdr) (b : Bay) (a : Parsed AssignArgs) (s : State) : Host.Outcome State Fault Refusal :=
  request (.bAssign h b a) h.supv s

/-- B_START (R116). Starts an OPEN compartment with a clamped preset, enters LOADING and drives RELEASE active. -/
def execBStart (h : Hdr) (b : Bay) (a : Parsed StartArgs) (s : State) : Host.Outcome State Fault Refusal :=
  request (.bStart h b a) h.supv s

/-- B_STOP (R119). Ends the compartment early, enters FINISHING and starts the settle. -/
def execBStop (h : Hdr) (b : Bay) (f : NoFields) (s : State) : Host.Outcome State Fault Refusal :=
  request (.bStop h b f) h.supv s

/-- B_RESUME (R122). Continues a PAUSED compartment in LOADING with RELEASE active. -/
def execBResume (h : Hdr) (b : Bay) (f : NoFields) (s : State) : Host.Outcome State Fault Refusal :=
  request (.bResume h b f) h.supv s

/-- B_ACKSTRAY (R125). Under the key, zeroes the stray count and removes the STRAY hold. -/
def execBAckstray (h : Hdr) (b : Bay) (f : NoFields) (s : State) : Host.Outcome State Fault Refusal :=
  request (.bAckstray h b f) h.supv s

/-- B_TEMP (R126). Under the key, gives a PROBE_FAULT or NO_TEMP line a manual Tm and reconciles it from stage 3. -/
def execBTemp (h : Hdr) (b : Bay) (a : Parsed TempArgs) (s : State) : Host.Outcome State Fault Refusal :=
  request (.bTemp h b a) h.supv s

/-- B_DRIVER (R127). Swaps the bound driver through CP's driver check and DT's swap, then sets or clears HOURS. -/
def execBDriver (h : Hdr) (b : Bay) (drv : Parsed Nat) (s : State) : Host.Outcome State Fault Refusal :=
  request (.bDriver h b drv) h.supv s

/-- B_ACKRESTART (R128). Removes the RESTART hold reason. -/
def execBAckrestart (h : Hdr) (b : Bay) (f : NoFields) (s : State) : Host.Outcome State Fault Refusal :=
  request (.bAckrestart h b f) h.supv s

/-- B_DISPATCH (R130). With every line VERIFIED and a passing dispatch check, makes the DISPATCH record and enters DISPATCHING. -/
def execBDispatch (h : Hdr) (b : Bay) (f : NoFields) (s : State) : Host.Outcome State Fault Refusal :=
  request (.bDispatch h b f) h.supv s

/-- B_CANCEL (R132). Abandons an assignment: logs loaded lines in a CANCEL record, unbinds document and driver, and enters IDLE. -/
def execBCancel (h : Hdr) (b : Bay) (f : NoFields) (s : State) : Host.Outcome State Fault Refusal :=
  request (.bCancel h b f) h.supv s

/-- B_CLEAR (R134). Frees a DISPATCHED bay to IDLE. -/
def execBClear (h : Hdr) (b : Bay) (f : NoFields) (s : State) : Host.Outcome State Fault Refusal :=
  request (.bClear h b f) h.supv s

/-- B_RESET (R133). Unit reset of a bay: ends any compartment without a final sample and returns to IDLE as CANCEL does. -/
def execBReset (h : Hdr) (b : Bay) (f : NoFields) (s : State) : Host.Outcome State Fault Refusal :=
  request (.bReset h b f) h.supv s

/-- PULSE_EDGE (R117). A rising edge on PULSEn is counted into the active line or as a stray pulse, and is tested for a crossing and for the preset. -/
def execPulseEdge (b : Bay) (s : State) : Host.Outcome State Fault Refusal :=
  event (pulse b) s

/-- HALT_EDGE (R120). An edge on HALTn pauses a LOADING compartment, or adds or removes the HALT pause reason. -/
def execHaltEdge (b : Bay) (active : Bool) (s : State) : Host.Outcome State Fault Refusal :=
  .next (if s.supply then pump (haltChange b active s) else s.modBay b fun u => { u with halt := active })

/-- BOND_EDGE (R120). An edge on BONDn pauses a LOADING compartment, changes the BOND pause reason, or takes a DISPATCHED bay to IDLE. -/
def execBondEdge (b : Bay) (good : Bool) (s : State) : Host.Outcome State Fault Refusal :=
  .next (if s.supply then pump (bondChange b good s) else s.modBay b fun u => { u with bond := good })

/-- PAUSE_LIMIT (R121). The pause timer reaches the bay's pause limit, and the compartment ends into FINISHING. -/
def execPauseLimit (b : Bay) (s : State) : Host.Outcome State Fault Refusal :=
  event (pauseEnds b) s

/-- SETTLE_END (R123). The 3 s settle ends, and the final weight is posted with the final mark. -/
def execSettleEnd (b : Bay) (s : State) : Host.Outcome State Fault Refusal :=
  event (settleEnds b) s

/-- TS_STATUS (R151). Returns the sampler health, calibration codes, converter use, pending set and calibration timing. -/
def execTsStatus (h : Hdr) (f : NoFields) (s : State) : Host.Outcome State Fault Refusal :=
  request (.tsStatus h f) h.supv s

/-- TS_CALIBRATE (R150). Sets the calibration due flag. -/
def execTsCalibrate (h : Hdr) (f : NoFields) (s : State) : Host.Outcome State Fault Refusal :=
  request (.tsCalibrate h f) h.supv s

/-- SAMPLE_COMPLETE (R142). A 50 ms bay sample completes: the request leaves the set, the result or fault is delivered to the bay, and TS chooses again. -/
def execSampleComplete (c1 c2 : Adc) (s : State) : Host.Outcome State Fault Refusal :=
  event (sampleDone c1 c2) s

/-- CALIBRATION_COMPLETE (R147). A 100 ms calibration completes: the codes are updated or health goes to FAULT, pending requests may be faulted, and the period restarts. -/
def execCalibrationComplete (l1 l2 h1 h2 : Adc) (s : State) : Host.Outcome State Fault Refusal :=
  event (calibrationDone l1 l2 h1 h2) s

/-- CALIBRATION_PERIOD (R149). The calibration period runs out since the latest calibration, and a calibration falls due. -/
def execCalibrationPeriod (s : State) : Host.Outcome State Fault Refusal :=
  event calDue s

/-- DL_STATUS (R190). Returns the segment map, counts, next sequence, queue, reclaim, cursor and day counts. -/
def execDlStatus (h : Hdr) (f : NoFields) (s : State) : Host.Outcome State Fault Refusal :=
  request (.dlStatus h f) h.supv s

/-- DL_STATUS_SEG (R191). Returns one segment's state and marks. -/
def execDlStatusSeg (h : Hdr) (seg : Parsed Nat) (s : State) : Host.Outcome State Fault Refusal :=
  request (.dlStatusSeg h seg) h.supv s

/-- DL_OPEN_SEG (R180). Sets the readout cursor to a segment's first sequence. -/
def execDlOpenSeg (h : Hdr) (seg : Parsed Nat) (s : State) : Host.Outcome State Fault Refusal :=
  request (.dlOpenSeg h seg) h.supv s

/-- DL_OPEN_SEQ (R180). Sets the readout cursor to a given sequence number. -/
def execDlOpenSeq (h : Hdr) (seq : Parsed Nat) (s : State) : Host.Outcome State Fault Refusal :=
  request (.dlOpenSeq h seq) h.supv s

/-- DL_READ (R181). Returns the record at the cursor, or TORN, GAP or END, and advances the cursor. -/
def execDlRead (h : Hdr) (f : NoFields) (s : State) : Host.Outcome State Fault Refusal :=
  request (.dlRead h f) h.supv s

/-- DL_EXPORTED (R183). Sets the exported mark of a CLOSED segment. -/
def execDlExported (h : Hdr) (seg : Parsed Nat) (s : State) : Host.Outcome State Fault Refusal :=
  request (.dlExported h seg) h.supv s

/-- DL_RECLAIM (R184). Under the key, raises the high mark and starts erasing an exported CLOSED or DAMAGED segment. -/
def execDlReclaim (h : Hdr) (seg : Parsed Nat) (s : State) : Host.Outcome State Fault Refusal :=
  request (.dlReclaim h seg) h.supv s

/-- APPEND_SERVE (R175). With the store free and no scan running, DL serves the head append: it finds room, opening and closing segments, or refuses the append with LOG_FULL. -/
def execAppendServe (s : State) : Host.Outcome State Fault Refusal :=
  event serveAppend s

/-- APPEND_WRITE_COMPLETE (R177). A 12 ms record write completes: marks and day counts are updated, the source is told, and a DAY_CLOSE record closes its segment. -/
def execAppendWriteComplete (s : State) : Host.Outcome State Fault Refusal :=
  event writeDone s

/-- STORE_ACCESS_END (R185). The 2 ms store occupation of a readout access ends, and the suspended erase resumes. -/
def execStoreAccessEnd (s : State) : Host.Outcome State Fault Refusal :=
  event (fun t => t.modDl fun d => { d with accesses := d.accesses - 1 }) s

/-- RECLAIM_COMPLETE (R186). A reclaim's erase work reaches 0: the segment becomes ERASED and the RECLAIM notice is raised. -/
def execReclaimComplete (s : State) : Host.Outcome State Fault Refusal :=
  event reclaimDone s

/-- SCAN_END (R189). The start-up scan ends: DL sets its next sequence, last opened segment, day counts and fault component, then serves the queue. -/
def execScanEnd (s : State) : Host.Outcome State Fault Refusal :=
  event scanDone s

/-- ST_STATUS (R198). Returns the apply state, changed sections, defaults flag, product count, outbox and key level. -/
def execStStatus (h : Hdr) (f : NoFields) (s : State) : Host.Outcome State Fault Refusal :=
  request (.stStatus h f) h.supv s

/-- ST_SHOW (R198). Returns a section of the applied or staging copy. -/
def execStShow (h : Hdr) (a : Parsed ShowArgs) (s : State) : Host.Outcome State Fault Refusal :=
  request (.stShow h a) h.supv s

/-- ST_DISCARD (R198). Makes the staging copy equal to the applied copy. -/
def execStDiscard (h : Hdr) (f : NoFields) (s : State) : Host.Outcome State Fault Refusal :=
  request (.stDiscard h f) h.supv s

/-- ST_SET_PRODUCT (R197). Adds or replaces a product in the staging product table. -/
def execStSetProduct (h : Hdr) (a : Parsed ProductArgs) (s : State) : Host.Outcome State Fault Refusal :=
  request (.stSetProduct h a) h.supv s

/-- ST_SET_PRODUCT_DELETE (R197). Removes a product from the staging product table. -/
def execStSetProductDelete (h : Hdr) (code : Parsed String) (s : State) : Host.Outcome State Fault Refusal :=
  request (.stSetProductDelete h code) h.supv s

/-- ST_SET_SEGREGATION (R195). Writes both symmetric entries of a pair in the staging segregation matrix. -/
def execStSetSegregation (h : Hdr) (a : Parsed PairArgs) (s : State) : Host.Outcome State Fault Refusal :=
  request (.stSetSegregation h a) h.supv s

/-- ST_SET_BAY (R196). Writes staged fields of one bay's entry, clamping the step and the pause limit. -/
def execStSetBay (h : Hdr) (a : Parsed BayArgs) (s : State) : Host.Outcome State Fault Refusal :=
  request (.stSetBay h a) h.supv s

/-- ST_SET_HOURS (R197). Writes staged hours parameters, clamping M. -/
def execStSetHours (h : Hdr) (a : Parsed HoursArgs) (s : State) : Host.Outcome State Fault Refusal :=
  request (.stSetHours h a) h.supv s

/-- ST_SET_TOLERANCE (R197). Writes the staged tolerances. -/
def execStSetTolerance (h : Hdr) (a : Parsed ToleranceArgs) (s : State) : Host.Outcome State Fault Refusal :=
  request (.stSetTolerance h a) h.supv s

/-- ST_SET_CALENDAR (R197). Writes the staged week-start weekday. -/
def execStSetCalendar (h : Hdr) (wday : Parsed Nat) (s : State) : Host.Outcome State Fault Refusal :=
  request (.stSetCalendar h wday) h.supv s

/-- ST_SET_SAMPLER (R197). Writes the staged calibration period. -/
def execStSetSampler (h : Hdr) (period : Parsed Nat) (s : State) : Host.Outcome State Fault Refusal :=
  request (.stSetSampler h period) h.supv s

/-- ST_SET_LINK (R197). Writes the staged ATTN mode. -/
def execStSetLink (h : Hdr) (attn : Parsed (Option AttnMode)) (s : State) : Host.Outcome State Fault Refusal :=
  request (.stSetLink h attn) h.supv s

/-- ST_APPLY (R199). Under the key, after the bay and product tests, begins a 200 ms apply of the staging copy. -/
def execStApply (h : Hdr) (f : NoFields) (s : State) : Host.Outcome State Fault Refusal :=
  request (.stApply h f) h.supv s

/-- APPLY_COMPLETE (R200). The apply's 200 ms have run: the tests are repeated and the apply either commits every section or is abandoned. -/
def execApplyComplete (s : State) : Host.Outcome State Fault Refusal :=
  event applyDone s

end Sys2Proof.Machine
end

