-- ==== Sys2Proof/Machine/Dispatch.lean ====
section
/-! DEFINITION. Machine/Dispatch.lean: the meaning of each command, one arm per constructor. -/

namespace Sys2Proof.Machine

def exec (i : Instr) (s : State) : Host.Outcome State Fault Refusal :=
  match i with
  | .rxCharacter c supv => Sys2Proof.Machine.execRxCharacter c supv s
  | .lineSilence => Sys2Proof.Machine.execLineSilence s
  | .unknownRequest h u => Sys2Proof.Machine.execUnknownRequest h u s
  | .transmitLineEnd supv => Sys2Proof.Machine.execTransmitLineEnd supv s
  | .attnPulseEnd => Sys2Proof.Machine.execAttnPulseEnd s
  | .dvStatus h f => Sys2Proof.Machine.execDvStatus h f s
  | .dvClear h f => Sys2Proof.Machine.execDvClear h f s
  | .dvMode h a => Sys2Proof.Machine.execDvMode h a s
  | .dvNext h f => Sys2Proof.Machine.execDvNext h f s
  | .dvReset h f => Sys2Proof.Machine.execDvReset h f s
  | .deviceReset e => Sys2Proof.Machine.execDeviceReset e s
  | .coldStart e => Sys2Proof.Machine.execColdStart e s
  | .warmStart e => Sys2Proof.Machine.execWarmStart e s
  | .resetLine e => Sys2Proof.Machine.execResetLine e s
  | .mainSupplyLoss => Sys2Proof.Machine.execMainSupplyLoss s
  | .clockTick => Sys2Proof.Machine.execClockTick s
  | .minuteReached => Sys2Proof.Machine.execMinuteReached s
  | .dstInstant => Sys2Proof.Machine.execDstInstant s
  | .ckStatus h f => Sys2Proof.Machine.execCkStatus h f s
  | .ckSet h a => Sys2Proof.Machine.execCkSet h a s
  | .ckDstrule h a => Sys2Proof.Machine.execCkDstrule h a s
  | .ckDstruleOff h f => Sys2Proof.Machine.execCkDstruleOff h f s
  | .ckRules h f => Sys2Proof.Machine.execCkRules h f s
  | .ckDayclose h a => Sys2Proof.Machine.execCkDayclose h a s
  | .ckClearstamp h f => Sys2Proof.Machine.execCkClearstamp h f s
  | .dtStatus h f => Sys2Proof.Machine.execDtStatus h f s
  | .dtEnrol h drv => Sys2Proof.Machine.execDtEnrol h drv s
  | .dtRemove h drv => Sys2Proof.Machine.execDtRemove h drv s
  | .dtImport h a => Sys2Proof.Machine.execDtImport h a s
  | .dtArrive h drv => Sys2Proof.Machine.execDtArrive h drv s
  | .dtDepart h drv => Sys2Proof.Machine.execDtDepart h drv s
  | .dtClosetrip h a => Sys2Proof.Machine.execDtClosetrip h a s
  | .dtQuery h drv => Sys2Proof.Machine.execDtQuery h drv s
  | .dtQueryPlan h a => Sys2Proof.Machine.execDtQueryPlan h a s
  | .dtList h a => Sys2Proof.Machine.execDtList h a s
  | .cpStatus h f => Sys2Proof.Machine.execCpStatus h f s
  | .cpOpen h a => Sys2Proof.Machine.execCpOpen h a s
  | .cpLine h a => Sys2Proof.Machine.execCpLine h a s
  | .cpConfirm h f => Sys2Proof.Machine.execCpConfirm h f s
  | .cpAbort h f => Sys2Proof.Machine.execCpAbort h f s
  | .cpVoid h doc => Sys2Proof.Machine.execCpVoid h doc s
  | .cpShow h doc => Sys2Proof.Machine.execCpShow h doc s
  | .cpShowLine h a => Sys2Proof.Machine.execCpShowLine h a s
  | .cpList h start => Sys2Proof.Machine.execCpList h start s
  | .cpAmendQty h a => Sys2Proof.Machine.execCpAmendQty h a s
  | .cpAmendProd h a => Sys2Proof.Machine.execCpAmendProd h a s
  | .cpAmendRemove h a => Sys2Proof.Machine.execCpAmendRemove h a s
  | .cpWithdraw h doc => Sys2Proof.Machine.execCpWithdraw h doc s
  | .bStatus h b f => Sys2Proof.Machine.execBStatus h b f s
  | .bStatusLine h b comp => Sys2Proof.Machine.execBStatusLine h b comp s
  | .bAssign h b a => Sys2Proof.Machine.execBAssign h b a s
  | .bStart h b a => Sys2Proof.Machine.execBStart h b a s
  | .bStop h b f => Sys2Proof.Machine.execBStop h b f s
  | .bResume h b f => Sys2Proof.Machine.execBResume h b f s
  | .bAckstray h b f => Sys2Proof.Machine.execBAckstray h b f s
  | .bTemp h b a => Sys2Proof.Machine.execBTemp h b a s
  | .bDriver h b drv => Sys2Proof.Machine.execBDriver h b drv s
  | .bAckrestart h b f => Sys2Proof.Machine.execBAckrestart h b f s
  | .bDispatch h b f => Sys2Proof.Machine.execBDispatch h b f s
  | .bCancel h b f => Sys2Proof.Machine.execBCancel h b f s
  | .bClear h b f => Sys2Proof.Machine.execBClear h b f s
  | .bReset h b f => Sys2Proof.Machine.execBReset h b f s
  | .pulseEdge b => Sys2Proof.Machine.execPulseEdge b s
  | .haltEdge b active => Sys2Proof.Machine.execHaltEdge b active s
  | .bondEdge b good => Sys2Proof.Machine.execBondEdge b good s
  | .pauseLimit b => Sys2Proof.Machine.execPauseLimit b s
  | .settleEnd b => Sys2Proof.Machine.execSettleEnd b s
  | .tsStatus h f => Sys2Proof.Machine.execTsStatus h f s
  | .tsCalibrate h f => Sys2Proof.Machine.execTsCalibrate h f s
  | .sampleComplete c1 c2 => Sys2Proof.Machine.execSampleComplete c1 c2 s
  | .calibrationComplete l1 l2 h1 h2 => Sys2Proof.Machine.execCalibrationComplete l1 l2 h1 h2 s
  | .calibrationPeriod => Sys2Proof.Machine.execCalibrationPeriod s
  | .dlStatus h f => Sys2Proof.Machine.execDlStatus h f s
  | .dlStatusSeg h seg => Sys2Proof.Machine.execDlStatusSeg h seg s
  | .dlOpenSeg h seg => Sys2Proof.Machine.execDlOpenSeg h seg s
  | .dlOpenSeq h seq => Sys2Proof.Machine.execDlOpenSeq h seq s
  | .dlRead h f => Sys2Proof.Machine.execDlRead h f s
  | .dlExported h seg => Sys2Proof.Machine.execDlExported h seg s
  | .dlReclaim h seg => Sys2Proof.Machine.execDlReclaim h seg s
  | .appendServe => Sys2Proof.Machine.execAppendServe s
  | .appendWriteComplete => Sys2Proof.Machine.execAppendWriteComplete s
  | .storeAccessEnd => Sys2Proof.Machine.execStoreAccessEnd s
  | .reclaimComplete => Sys2Proof.Machine.execReclaimComplete s
  | .scanEnd => Sys2Proof.Machine.execScanEnd s
  | .stStatus h f => Sys2Proof.Machine.execStStatus h f s
  | .stShow h a => Sys2Proof.Machine.execStShow h a s
  | .stDiscard h f => Sys2Proof.Machine.execStDiscard h f s
  | .stSetProduct h a => Sys2Proof.Machine.execStSetProduct h a s
  | .stSetProductDelete h code => Sys2Proof.Machine.execStSetProductDelete h code s
  | .stSetSegregation h a => Sys2Proof.Machine.execStSetSegregation h a s
  | .stSetBay h a => Sys2Proof.Machine.execStSetBay h a s
  | .stSetHours h a => Sys2Proof.Machine.execStSetHours h a s
  | .stSetTolerance h a => Sys2Proof.Machine.execStSetTolerance h a s
  | .stSetCalendar h wday => Sys2Proof.Machine.execStSetCalendar h wday s
  | .stSetSampler h period => Sys2Proof.Machine.execStSetSampler h period s
  | .stSetLink h attn => Sys2Proof.Machine.execStSetLink h attn s
  | .stApply h f => Sys2Proof.Machine.execStApply h f s
  | .applyComplete => Sys2Proof.Machine.execApplyComplete s

end Sys2Proof.Machine
end

