-- ==== Sys2Proof/Machine/Timers.lean ====
section
/-! DEFINITION. Machine/Timers.lean: the interval times that the part reports or compares, advanced by one millisecond.
They count and never act: the row that names an interval's end is a command of its own (log 3, log 4). -/

namespace Sys2Proof.Machine

/-- A bay's pause and settle times (R121, R123). -/
def BayUnit.elapse (limit : Nat) (u : BayUnit) : BayUnit :=
  match u.state with
  | .PAUSED => { u with ctx := u.ctx.map fun c => { c with pauseMs := min limit (c.pauseMs + 1) } }
  | .FINISHING =>
    { u with ctx := u.ctx.map fun c => if c.settled then c else { c with settleMs := min Config.settleTime (c.settleMs + 1) } }
  | _ => u

/-- The erase work falls while the store is free of accesses (R185). -/
def Dl.elapse (d : Dl) : Dl :=
  if d.storeFree then { d with reclaim := d.reclaim.map fun r => { r with work := r.work - 1 } } else d

/-- The time since the latest calibration, up to the longest period (R149). -/
def Ts.elapse (t : Ts) : Ts := { t with sinceCal := t.sinceCal.map fun n => min 600000 (n + 1) }

/-- One millisecond passes with no command (log 4); nothing is measured without the main supply (log 5). -/
def elapse (s : State) : State :=
  if s.supply then
    forBays (fun b t => t.modBay b (BayUnit.elapse ((t.entry b).pause * 60000)))
      { s with ts := s.ts.elapse, dl := s.dl.elapse, st := { s.st with apply := s.st.apply.map (· - 1) } }
  else s

end Sys2Proof.Machine
end

