-- ==== Sys2Proof/WellFormed.lean ====
section
/-! DEFINITION. WellFormed.lean: the checks a command passes when it comes from a line of the link: every operand is of
its field's form (R205) and the tag is not FF, except where the command says so (R4). -/

namespace Sys2Proof

open Sys2Proof.Machine (codeForm)

/-- R4: a request that is carried out never has the tag FF. -/
def Hdr.wf (h : Hdr) : Bool := h.tag != 0xFF#8

def decimalOk (n : Nat) : Bool := decide (n ≤ Config.maxDecimal)
def signedOk (t : Int) : Bool := decide (t.natAbs ≤ Config.maxDecimal)
def codeOk (lo hi : Nat) (s : String) : Bool := codeForm lo hi s.toList == some s
def driverOk (n : Nat) : Bool := decide (n < 100000000)
def unOk (n : Nat) : Bool := decide (n < 10000)

/-- A token holds no space (R205). -/
def tokenOk (s : String) : Bool := s.toList.all (· ≠ ' ')

def DateHm.wf (t : DateHm) : Bool :=
  decide (t.year ≤ 9999) && decide (t.month ≤ 99) && decide (t.day ≤ 99) && decide (t.hour ≤ 99) &&
    decide (t.minute ≤ 99)

def Plan.wf (p : Plan) : Bool := decimalOk p.drive && decimalOk p.total && decimalOk p.breaks

def BadRequest.wf (tag : Byte) : BadRequest → Bool
  | .tagReserved t => tag == 0xFF#8 && tokenOk t
  | .unknownUnit t => tag != 0xFF#8 && tokenOk t && (Machine.unitOf t.toList).isNone
  | .badVerb _ => tag != 0xFF#8
  | .unknownVerb _ => tag != 0xFF#8

def CkSetArgs.wf (a : CkSetArgs) : Bool := a.date.wf && decide (a.second ≤ 99)
def RuleArgs.wf (a : RuleArgs) : Bool :=
  decimalOk a.month && decimalOk a.hour &&
    a.sel.all fun s => match s with
      | .DATE d => decimalOk d
      | .WEEKDAY w d => decimalOk w && decimalOk d
def DaycloseArgs.wf (a : DaycloseArgs) : Bool :=
  a.minute.join.all decimalOk && a.hour.join.all decimalOk && a.wday.join.all decimalOk
def ImportArgs.wf (a : ImportArgs) : Bool := driverOk a.drv && a.start.wf && a.stop.wf
def ClosetripArgs.wf (a : ClosetripArgs) : Bool :=
  driverOk a.drv && a.stop.wf && decide (1 ≤ a.segs.length) && decide (a.segs.length ≤ 8) &&
    a.segs.all fun s => decimalOk s.minutes
def QueryPlanArgs.wf (a : QueryPlanArgs) : Bool := driverOk a.drv && a.plan.wf
def DtListArgs.wf (a : DtListArgs) : Bool := driverOk a.drv && decimalOk a.start
def OpenArgs.wf (a : OpenArgs) : Bool :=
  codeOk 1 12 a.doc && decimalOk a.lines && codeOk 1 10 a.tanker && a.plan.wf && a.carrier.all (codeOk 1 6) &&
    a.driver.all driverOk
def LineArgs.wf (a : LineArgs) : Bool :=
  decimalOk a.comp && codeOk 3 3 a.product && unOk a.un && decimalOk a.qty && decimalOk a.cap
def ShowLineArgs.wf (a : ShowLineArgs) : Bool := codeOk 1 12 a.doc && decimalOk a.line
def AmendQtyArgs.wf (a : AmendQtyArgs) : Bool := codeOk 1 12 a.doc && decimalOk a.comp && decimalOk a.qty
def AmendProdArgs.wf (a : AmendProdArgs) : Bool := codeOk 1 12 a.doc && decimalOk a.comp && codeOk 3 3 a.product
def AmendRemoveArgs.wf (a : AmendRemoveArgs) : Bool := codeOk 1 12 a.doc && decimalOk a.comp
def AssignArgs.wf (a : AssignArgs) : Bool := codeOk 1 12 a.doc && driverOk a.drv
def StartArgs.wf (a : StartArgs) : Bool := decimalOk a.comp && decimalOk a.preset
def TempArgs.wf (a : TempArgs) : Bool := decimalOk a.comp && signedOk a.temp
def ProductArgs.wf (a : ProductArgs) : Bool :=
  codeOk 3 3 a.code && unOk a.un && decimalOk a.aCold && decimalOk a.bCold && decimalOk a.aHot && decimalOk a.bHot
def BayArgs.wf (a : BayArgs) : Bool :=
  decimalOk a.n && a.factor.all decimalOk && a.step.all decimalOk && a.pause.all decimalOk &&
    (a.enable.isSome || a.factor.isSome || a.step.isSome || a.pause.isSome)
def HoursArgs.wf (a : HoursArgs) : Bool :=
  let vs := [a.dDay, a.dCont, a.bMin, a.rDaily, a.dWeek, a.sSpan, a.margin]
  vs.all (fun v => v.all decimalOk) && vs.any (·.isSome)
def ToleranceArgs.wf (a : ToleranceArgs) : Bool :=
  a.abs.all decimalOk && a.permille.all decimalOk && (a.abs.isSome || a.permille.isSome)
def ShowSel.wf : ShowSel → Bool
  | .whole => true
  | .code p => codeOk 3 3 p
  | .start i => decimalOk i
  | .row _ => true
  | .bay n => decimalOk n

/-- The selection is one the section takes (R198). -/
def ShowArgs.wf (a : ShowArgs) : Bool :=
  a.sel.wf && match a.sec, a.sel with
    | .PRODUCT, .code _ => true
    | .PRODUCT, .start _ => true
    | .SEGREGATION, .row _ => true
    | .BAY, .bay _ => true
    | .PRODUCT, _ => false
    | .SEGREGATION, _ => false
    | .BAY, _ => false
    | _, .whole => true
    | _, _ => false

/-- The command is one that the world can present: its operands have the forms of R205. -/
def Instr.wf : Instr → Bool
  | .unknownRequest h u => u.wf h.tag
  | .dvStatus h _ | .dvClear h _ | .dvMode h _ | .dvNext h _ | .dvReset h _ => h.wf
  | .ckStatus h _ | .ckDstruleOff h _ | .ckRules h _ | .ckClearstamp h _ => h.wf
  | .ckSet h a => h.wf && a.all (·.wf)
  | .ckDstrule h a => h.wf && a.all (·.wf)
  | .ckDayclose h a => h.wf && a.all (·.wf)
  | .dtStatus h _ => h.wf
  | .dtEnrol h a | .dtRemove h a | .dtArrive h a | .dtDepart h a | .dtQuery h a => h.wf && a.all driverOk
  | .dtImport h a => h.wf && a.all (·.wf)
  | .dtClosetrip h a => h.wf && a.all (·.wf)
  | .dtQueryPlan h a => h.wf && a.all (·.wf)
  | .dtList h a => h.wf && a.all (·.wf)
  | .cpStatus h _ | .cpConfirm h _ | .cpAbort h _ => h.wf
  | .cpOpen h a => h.wf && a.all (·.wf)
  | .cpLine h a => h.wf && a.all (·.wf)
  | .cpVoid h a | .cpShow h a | .cpWithdraw h a => h.wf && a.all (codeOk 1 12)
  | .cpShowLine h a => h.wf && a.all (·.wf)
  | .cpList h a => h.wf && a.all decimalOk
  | .cpAmendQty h a => h.wf && a.all (·.wf)
  | .cpAmendProd h a => h.wf && a.all (·.wf)
  | .cpAmendRemove h a => h.wf && a.all (·.wf)
  | .bStatus h _ _ | .bStop h _ _ | .bResume h _ _ | .bAckstray h _ _ | .bAckrestart h _ _ | .bDispatch h _ _
  | .bCancel h _ _ | .bClear h _ _ | .bReset h _ _ => h.wf
  | .bStatusLine h _ a => h.wf && a.all decimalOk
  | .bAssign h _ a => h.wf && a.all (·.wf)
  | .bStart h _ a => h.wf && a.all (·.wf)
  | .bTemp h _ a => h.wf && a.all (·.wf)
  | .bDriver h _ a => h.wf && a.all driverOk
  | .tsStatus h _ | .tsCalibrate h _ => h.wf
  | .dlStatus h _ | .dlRead h _ => h.wf
  | .dlStatusSeg h a | .dlOpenSeg h a | .dlOpenSeq h a | .dlExported h a | .dlReclaim h a => h.wf && a.all decimalOk
  | .stStatus h _ | .stDiscard h _ | .stApply h _ => h.wf
  | .stShow h a => h.wf && a.all (·.wf)
  | .stSetProduct h a => h.wf && a.all (·.wf)
  | .stSetProductDelete h a => h.wf && a.all (codeOk 3 3)
  | .stSetSegregation h _ => h.wf
  | .stSetBay h a => h.wf && a.all (·.wf)
  | .stSetHours h a => h.wf && a.all (·.wf)
  | .stSetTolerance h a => h.wf && a.all (·.wf)
  | .stSetCalendar h a | .stSetSampler h a => h.wf && a.all decimalOk
  | .stSetLink h _ => h.wf
  | _ => true

/-- The head of a request row; none for the rows that are events (R4). -/
def Instr.head : Instr → Option Hdr
  | .unknownRequest h _ => some h
  | .dvStatus h _ | .dvClear h _ | .dvMode h _ | .dvNext h _ | .dvReset h _ => some h
  | .ckStatus h _ | .ckSet h _ | .ckDstrule h _ | .ckDstruleOff h _ | .ckRules h _ | .ckDayclose h _
  | .ckClearstamp h _ => some h
  | .dtStatus h _ | .dtEnrol h _ | .dtRemove h _ | .dtImport h _ | .dtArrive h _ | .dtDepart h _ | .dtClosetrip h _
  | .dtQuery h _ | .dtQueryPlan h _ | .dtList h _ => some h
  | .cpStatus h _ | .cpOpen h _ | .cpLine h _ | .cpConfirm h _ | .cpAbort h _ | .cpVoid h _ | .cpShow h _
  | .cpShowLine h _ | .cpList h _ | .cpAmendQty h _ | .cpAmendProd h _ | .cpAmendRemove h _ | .cpWithdraw h _ => some h
  | .bStatus h _ _ | .bStatusLine h _ _ | .bAssign h _ _ | .bStart h _ _ | .bStop h _ _ | .bResume h _ _
  | .bAckstray h _ _ | .bTemp h _ _ | .bDriver h _ _ | .bAckrestart h _ _ | .bDispatch h _ _ | .bCancel h _ _
  | .bClear h _ _ | .bReset h _ _ => some h
  | .tsStatus h _ | .tsCalibrate h _ => some h
  | .dlStatus h _ | .dlStatusSeg h _ | .dlOpenSeg h _ | .dlOpenSeq h _ | .dlRead h _ | .dlExported h _
  | .dlReclaim h _ => some h
  | .stStatus h _ | .stShow h _ | .stDiscard h _ | .stSetProduct h _ | .stSetProductDelete h _ | .stSetSegregation h _
  | .stSetBay h _ | .stSetHours h _ | .stSetTolerance h _ | .stSetCalendar h _ | .stSetSampler h _ | .stSetLink h _
  | .stApply h _ => some h
  | _ => none

/-- The request's fields are not of its verb's form, so it is refused with SYNTAX (R6). -/
def Instr.malformed : Instr → Bool
  | .dvStatus _ f | .dvClear _ f | .dvNext _ f | .dvReset _ f => f.isNone
  | .ckStatus _ f | .ckDstruleOff _ f | .ckRules _ f | .ckClearstamp _ f | .dtStatus _ f => f.isNone
  | .cpStatus _ f | .cpConfirm _ f | .cpAbort _ f => f.isNone
  | .bStatus _ _ f | .bStop _ _ f | .bResume _ _ f | .bAckstray _ _ f | .bAckrestart _ _ f | .bDispatch _ _ f
  | .bCancel _ _ f | .bClear _ _ f | .bReset _ _ f => f.isNone
  | .tsStatus _ f | .tsCalibrate _ f | .dlStatus _ f | .dlRead _ f | .stStatus _ f | .stDiscard _ f
  | .stApply _ f => f.isNone
  | .dtEnrol _ a | .dtRemove _ a | .dtArrive _ a | .dtDepart _ a | .dtQuery _ a => a.isNone
  | .dlStatusSeg _ a | .dlOpenSeg _ a | .dlOpenSeq _ a | .dlExported _ a | .dlReclaim _ a => a.isNone
  | .cpList _ a | .stSetCalendar _ a | .stSetSampler _ a => a.isNone
  | .bStatusLine _ _ a | .bDriver _ _ a => a.isNone
  | .cpVoid _ a | .cpShow _ a | .cpWithdraw _ a | .stSetProductDelete _ a => a.isNone
  | .dvMode _ a => a.isNone
  | .ckSet _ a => a.isNone
  | .ckDstrule _ a => a.isNone
  | .ckDayclose _ a => a.isNone
  | .dtImport _ a => a.isNone
  | .dtClosetrip _ a => a.isNone
  | .dtQueryPlan _ a => a.isNone
  | .dtList _ a => a.isNone
  | .cpOpen _ a => a.isNone
  | .cpLine _ a => a.isNone
  | .cpShowLine _ a => a.isNone
  | .cpAmendQty _ a => a.isNone
  | .cpAmendProd _ a => a.isNone
  | .cpAmendRemove _ a => a.isNone
  | .bAssign _ _ a => a.isNone
  | .bStart _ _ a => a.isNone
  | .bTemp _ _ a => a.isNone
  | .stShow _ a => a.isNone
  | .stSetProduct _ a => a.isNone
  | .stSetSegregation _ a => a.isNone
  | .stSetBay _ a => a.isNone
  | .stSetHours _ a => a.isNone
  | .stSetTolerance _ a => a.isNone
  | .stSetLink _ a => a.isNone
  | _ => false

end Sys2Proof
end

