-- ==== Sys2Proof/Safety.lean ====
section
/-! DEFINITION. Safety.lean: the words the statements about the part are made of: a request that is taken at once and
its answer, and the invariants that every step keeps. -/

namespace Sys2Proof.Machine

/-! ## Requests taken at once (R3, R4) -/

/-- A request row with this head is taken the moment it arrives: the supply is present, no line waits, the reply queue
has room, no DV RESET waits, and the tag is not FF (R3, R4). -/
abbrev Ready (h : Hdr) (s : State) : Prop :=
  s.supply = true ∧ s.dv.buffer = [] ∧ s.dv.replies.length < Config.replySize ∧ s.dv.resetWait = false ∧ h.tag ≠ 0xFF#8

/-- The state a request acts on: SUPV stands at the level the row carries (log 2). -/
abbrev underKey (h : Hdr) (s : State) : State := { s with supv := h.supv }

/-- A state after an answer: the reply stands at the tail of the reply queue, and a free transmitter starts it (R3,
R7). -/
abbrev answered (h : Hdr) (token : String) (a : Answer) (t : State) : State := pump (queueReply ⟨h.tag, token, a⟩ t)

/-- The outcome of a request taken at once that left the state `t` with the answer `a`. -/
abbrev Answers (h : Hdr) (token : String) (a : Answer) (t : State) : Host.Outcome State Fault Refusal :=
  .next (answered h token a t)

/-- The requests to CP that discard a staging, whatever becomes of them (R90). -/
def interruptsStaging : Instr → Bool
  | .cpVoid _ _ | .cpShow _ _ | .cpWithdraw _ _ => true
  | .cpShowLine _ _ => true
  | .cpList _ _ => true
  | .cpAmendQty _ _ => true
  | .cpAmendProd _ _ => true
  | .cpAmendRemove _ _ => true
  | _ => false

/-- The state that a request to CP leaves when all it does is to discard the staging in progress, if any, for a reason (R84,
R90). -/
abbrev stagingDiscarded (reason : String) (h : Hdr) (s : State) : State :=
  match s.cp.staging with
  | none => underKey h s
  | some g => raise .CP .STAGING (stagingFields reason g) ((underKey h s).modCp fun c => { c with staging := none })

/-- Of the link only the notices and the pulse of ATTN changed, and the queue, the supply and the free values are as
they were. -/
abbrev LinkKept (s t : State) : Prop :=
  t.dv = { s.dv with notices := t.dv.notices, attnPulse := t.dv.attnPulse } ∧ t.pending = s.pending ∧
    t.supply = s.supply ∧ t.fresh = s.fresh

/-- Every bay but one, the clock, the tables of the sampler, the log and the settings are as they were. -/
abbrev OtherBaysKept (b : Bay) (s t : State) : Prop :=
  (∀ b' : Bay, b' ≠ b → t.bay b' = s.bay b') ∧ t.ck = s.ck ∧ t.st = s.st ∧ LinkKept s t

/-- The one bay and the link's notices alone changed. -/
abbrev BayAlone (b : Bay) (s t : State) : Prop :=
  OtherBaysKept b s t ∧ t.dt = s.dt ∧ t.cp = s.cp ∧ t.ts = s.ts ∧ t.dl = s.dl

/-! ## Posts (R174), and the fault summary (R13) -/

/-- From s to t a source that had no append at the log posted the oldest record it has in t, and nothing else of the log
changed. -/
abbrev Posted (src : LogSource) (s t : State) : Prop :=
  t.dl = { s.dl with queue := s.dl.queue ++
    if s.dl.hasAppend src then [] else (t.outbox src).head?.toList.map fun r => ⟨src, r⟩ }

/-- The notices after the components of the fault summary came from those of d to those of e. -/
abbrev toldFault (d e : Dv) (ns : List Notice) : List Notice :=
  if (d.marks ≠ e.marks ∨ d.sampler ≠ e.sampler ∨ d.log ≠ e.log ∨ d.settings ≠ e.settings) ∧
      (d.pending .DV .FAULT = true ∨ (d.faultSet = false ∧ e.faultSet = true)) then
    putNotice ⟨.DV, .FAULT, faultFields e⟩ ns
  else ns

/-! ## What a bay tells (R113) -/

/-- The notices after a change of bay b from u to v: STATE where the state changed, LINES where a line did, then HOLD where
the hold reasons changed. -/
abbrev toldStateFirst (b : Bay) (reason : String) (lines : Bool) (u v : BayUnit) (ns : List Notice) : List Notice :=
  let n1 := if u.state = v.state then ns else putNotice ⟨.B b, .STATE, stateFields v reason⟩ ns
  let n2 := if lines then putNotice ⟨.B b, .LINES, linesFields v⟩ n1 else n1
  if u.holds = v.holds then n2 else putNotice ⟨.B b, .HOLD, holdFields v⟩ n2

/-- The same, STATE last: it follows from a change of the hold reasons. -/
abbrev toldStateLast (b : Bay) (reason : String) (lines : Bool) (u v : BayUnit) (ns : List Notice) : List Notice :=
  let n1 := if lines then putNotice ⟨.B b, .LINES, linesFields v⟩ ns else ns
  let n2 := if u.holds = v.holds then n1 else putNotice ⟨.B b, .HOLD, holdFields v⟩ n1
  if u.state = v.state then n2 else putNotice ⟨.B b, .STATE, stateFields v reason⟩ n2

/-- The notices not yet sent in full: the one on TXD, then those that wait. -/
abbrev noticesOut (s : State) : List Notice :=
  (match s.dv.wire with
    | some (.notice n) => [n]
    | _ => []) ++ s.dv.notices

/-- Each kind of notice by which a bay tells a change from u to v stands among the notices, with the summary of v. -/
abbrev ChangeTold (b : Bay) (reason : String) (u v : BayUnit) (ns : List Notice) : Prop :=
  (u.state ≠ v.state → (⟨.B b, .STATE, stateFields v reason⟩ : Notice) ∈ ns) ∧
  (u.lines ≠ v.lines → (⟨.B b, .LINES, linesFields v⟩ : Notice) ∈ ns) ∧
  (u.holds ≠ v.holds → (⟨.B b, .HOLD, holdFields v⟩ : Notice) ∈ ns)

/-! ## The link (R1, R3, R7, R8) -/

/-- The kinds each unit raises (01_the_message_link.md, "Notices"). -/
def noticeKinds : UnitName → List NKind
  | .B _ => [.STATE, .LINES, .HOLD, .STRAY]
  | .DT => [.TRIP]
  | .CP => [.STAGING]
  | .TS => [.HEALTH]
  | .DL => [.SPACE, .RECLAIM, .DAY]
  | .CK => [.DST, .POWER]
  | .ST => [.APPLIED]
  | .DV => [.FRAME_REJECT, .FAULT]

/-- The queues of the link keep to their places, the notices are pairwise of different pairs, and the counts stay in
range (R1, R2, R3, R7, R8). -/
abbrev LinkBounds (s : State) : Prop :=
  s.dv.rx.length ≤ Config.maxLine ∧ s.dv.buffer.length ≤ Config.bufferSize ∧ s.dv.replies.length ≤ Config.replySize ∧
    (s.dv.notices.map Notice.pair).Nodup ∧ (∀ n ∈ s.dv.notices, n.kind ∈ noticeKinds n.unit) ∧
    s.dv.notices.length ≤ 43 ∧ s.dv.full ≤ Config.maxCount16 ∧ s.dv.long ≤ Config.maxCount16 ∧
    s.dv.check ≤ Config.maxCount16 ∧ s.dv.addr ≤ Config.maxCount16

/-- The transmitter is free only when it has nothing it may send, and a line waits in the input buffer only while DV may
not take it (R3, R7, R15). -/
abbrev LinkLive (s : State) : Prop :=
  (s.dv.wire = none →
    s.dv.replies = [] ∧ (s.dv.mode = .PUSH → s.dv.resetWait = false → s.dv.notices = [])) ∧
  (s.dv.buffer ≠ [] → Config.replySize ≤ s.dv.replies.length ∨ s.dv.resetWait = true)

/-! ## The valves, the sampler, the settings -/

/-- With the supply, each RELEASE output is active exactly under its four conditions (R112); without it, inactive (log
5). -/
abbrev ReleaseDriven (s : State) : Prop := ∀ b : Bay, (s.bay b).release = (s.supply && (s.bay b).mayRelease)

/-- The calibration codes in force passed both tests of a calibration (R146, R152). -/
abbrev CalibrationValid (t : Ts) : Prop := spanOk t.clo t.chi = true ∧ zeroOk t.clo = true

/-- A product within the ranges of R194. -/
abbrev ProductLegal (p : Product) : Prop :=
  unInRange p.un = true ∧ p.aCold ≤ 30000 ∧ p.aHot ≤ 30000 ∧ p.bCold ≤ 255 ∧ p.bHot ≤ 255

/-- A copy of the settings within the ranges of R194 to R196, its matrix symmetric. -/
abbrev SettingsLegal (c : Settings) : Prop :=
  c.products.length ≤ Config.maxProducts ∧ (c.products.map (·.code)).Nodup ∧ (∀ p ∈ c.products, ProductLegal p) ∧
    (∀ x y : Group, c.segEntry x y = c.segEntry y x) ∧
    (∀ b : Bay, (5000 ≤ c.bays[b].factor ∧ c.bays[b].factor ≤ 20000) ∧ (200 ≤ c.bays[b].step ∧ c.bays[b].step ≤ 5000) ∧
      (1 ≤ c.bays[b].pause ∧ c.bays[b].pause ≤ 60)) ∧
    ((240 ≤ c.hours.dDay ∧ c.hours.dDay ≤ 720) ∧ (120 ≤ c.hours.dCont ∧ c.hours.dCont ≤ 360) ∧
      (15 ≤ c.hours.bMin ∧ c.hours.bMin ≤ 90) ∧ (480 ≤ c.hours.rDaily ∧ c.hours.rDaily ≤ 720) ∧
      (1800 ≤ c.hours.dWeek ∧ c.hours.dWeek ≤ 4200) ∧ (600 ≤ c.hours.sSpan ∧ c.hours.sSpan ≤ 960) ∧
      c.hours.margin ≤ 120) ∧
    ((1 ≤ c.tol.abs ∧ c.tol.abs ≤ 100) ∧ c.tol.permille ≤ 20) ∧ c.weekStart ≤ 6 ∧ (c.period = 1 ∨ c.period = 10)

/-- The three copies of the settings the part holds. -/
abbrev AllSettingsLegal (s : State) : Prop :=
  SettingsLegal s.st.store ∧ SettingsLegal s.st.applied ∧ SettingsLegal s.st.staging

/-- The fields of the day-close match that are enabled are within their ranges (R28). -/
abbrev MatchLegal (c : Ck) : Prop :=
  (∀ m ∈ c.matchMin, m ≤ 59) ∧ (∀ h ∈ c.matchHour, h ≤ 23) ∧ ∀ d ∈ c.matchWday, d ≤ 6

/-! ## The bays over a start (R137, R138) -/

/-- A start that is not cold releases the bay's document and driver. -/
abbrev startFrees (good : Bool) (u : BayUnit) : Bool :=
  match u.state with
  | .ASSIGNED | .HELD => !good || !u.anyLoaded
  | .LOADING | .PAUSED | .FINISHING | .DISPATCHING => !good
  | .CLOSED | .IDLE | .DISPATCHED => false

/-- The lines of bay b when a start ends its compartment without a final sample, with the settings g in force (R157): the
active line is reconciled from the samples it has, its pending weight dropped. -/
abbrev endedLines (g : Settings) (b : Bay) (cx : Ctx) (d : DocLine) (ls : List LineRec) : List LineRec :=
  ls.map fun m => if m.comp = cx.comp then
    reconcile false g.bays[b].factor (g.product d.product) g.tol d.qty { m with pend := 0 } else m

/-! ## The day close over an interruption (R30) -/

/-- The local minute m passed without its test between the latest loss and the standard minute `now`: as a standard minute
after that of the loss (the loss's own, when its test was still due, log 28), with either offset, or skipped by a forward
instant reached after the loss (or at it, when its DST_INSTANT was still due). -/
abbrev PassedUntested (c : Ck) (now m : Nat) : Prop :=
  ∃ l ∈ c.latestLoss,
    let dst : Nat → Bool := fun k => inForceAt c.fwd c.rev (60 * k)
    let within : Nat → Prop := fun k => (l / 60 < k ∨ (c.minuteDue = true ∧ k = l / 60)) ∧ k < now
    (dst m = false ∧ within m) ∨ (60 ≤ m ∧ dst (m - 60) = true ∧ within (m - 60)) ∨
      (dst m = true ∧ (m < 60 ∨ dst (m - 60) = false) ∧ ∃ f ∈ c.fwd,
        let i := forwardInstant f (yearOf (60 * m)) / 60
        i ≤ now ∧ (if c.dstAtLoss = inForceAt c.fwd c.rev l then l / 60 < i
          else reachedInstant c.fwd c.rev l / 60 ≤ i))

/-- The date d has a matching minute that passed untested, and has not fired. -/
abbrev DayMissed (c : Ck) (now d : Nat) : Prop :=
  (∀ f ∈ c.lastFired, f < d) ∧ ∃ t : Fin 1440, c.minuteMatches (1440 * d + t) = true ∧ PassedUntested c now (1440 * d + t)

/-! ## Duty lists (R38, R66) -/

/-- A duty list at now: the entries stand in order without overlap, none later than now, a closed one is not empty, and an
open one is not REST. -/
abbrev DutyOrdered (now : Nat) (l : List Entry) : Prop :=
  l.Pairwise (fun a b => a.till now ≤ b.start) ∧
    ∀ e ∈ l, e.start ≤ e.till now ∧ e.till now ≤ now ∧ (e.stop = none → e.kind ≠ .REST) ∧ ∀ t ∈ e.stop, e.start < t

/-- A DRIVE or WORK entry covers the minute m. -/
abbrev OnDuty (now : Nat) (l : List Entry) (m : Nat) : Prop := ∃ e ∈ l, e.kind ≠ .REST ∧ e.start ≤ m ∧ m < e.till now

/-! ## Validation (R88, R89) and products in use (R199) -/

/-- A pair of lines passes the segregation test (R89). -/
abbrev PairAllowed (c : Settings) (i j : DocLine) : Prop :=
  match c.matrix[(c.product i.product).group][(c.product j.product).group] with
  | .ALLOW => True
  | .APART => i.comp + 2 ≤ j.comp ∨ j.comp + 2 ≤ i.comp
  | .NEVER => False

/-- The pair (i, j) is the first of the lines that fails the segregation test, by its first line and then by its second
(R89). -/
abbrev FirstBadPair (c : Settings) (ls : List DocLine) (i j : DocLine) : Prop :=
  ∃ pre mid post : List DocLine, ls = pre ++ i :: (mid ++ j :: post) ∧ ¬PairAllowed c i j ∧
    (∀ x ∈ mid, PairAllowed c i x) ∧
    ∀ p1 x p2, pre = p1 ++ x :: p2 → ∀ y ∈ p2 ++ i :: (mid ++ j :: post), PairAllowed c x y

/-! ## Amendments at the bay (R106, R135, R166) -/

/-- The line states in which a line's declared quantity may change (R101). -/
abbrev QuantityOpen (st : Option LineState) : Prop := st = some .OPEN ∨ st = some .OVER ∨ st = some .UNDER

/-- From s to t the bay re-reconciled its line of compartment c against the declared quantity q, set or cleared its hold
reasons to match, left or entered HELD by the reasons that stand, and told what changed. -/
abbrev Requantified (b : Bay) (c q : Nat) (s t : State) : Prop :=
  let u := s.bay b
  let ls := u.lines.map fun m => if m.comp = c then reReconcile s.st.applied.tol q m else m
  let hs := { u.holds with
    quantity := ls.any fun m => decide (m.state = .OVER ∨ m.state = .UNDER),
    temperature := ls.any fun m => decide (m.state = .PROBE_FAULT ∨ m.state = .NO_TEMP) }
  t.bay b = { u with
    lines := ls, holds := hs, release := (t.bay b).mayRelease,
    state := match u.state with
      | .HELD => if hs = Holds.none then .ASSIGNED else .HELD
      | .ASSIGNED => if hs = Holds.none then .ASSIGNED else .HELD
      | y => y } ∧
  (⟨.B b, .LINES, linesFields (t.bay b)⟩ : Notice) ∈ t.dv.notices ∧
  (hs ≠ u.holds → (⟨.B b, .HOLD, holdFields (t.bay b)⟩ : Notice) ∈ t.dv.notices) ∧
  ((t.bay b).state ≠ u.state → (⟨.B b, .STATE, stateFields (t.bay b) "HOLD"⟩ : Notice) ∈ t.dv.notices)

/-- From s to t the bay's line records became `ls`, and LINES was raised. -/
abbrev Relined (b : Bay) (ls : List LineRec) (s t : State) : Prop :=
  t.bay b = { s.bay b with lines := ls, release := (t.bay b).mayRelease } ∧
  (⟨.B b, .LINES, linesFields (t.bay b)⟩ : Notice) ∈ t.dv.notices

/-- The reply to a taken amendment or withdrawal (R101, R105): the line's state as the bay left it, or REMOVED. -/
abbrev amendAnswer (d : String) (c : Nat) (k : AmendKind) (depth count : Nat) (line : Option LineRec) : Answer :=
  ok [fld "DOC" d, fld "C" (dec c), fld "KIND" (amendText k), fld "DEPTH" (dec depth), fld "COUNT" (dec count),
    fld "LINE" ((line.map fun l => lineStateText l.state).getD "REMOVED")]

/-- The apply would change or drop the product's UN number, class, packing group or group (R194). -/
abbrev IdentityChanges (g : Settings) (p : Product) : Prop :=
  ∀ x, g.products.find? (fun y => y.code == p.code) = some x →
    x.un ≠ p.un ∨ x.cls ≠ p.cls ∨ x.pg ≠ p.pg ∨ x.group ≠ p.group

/-- The apply would change one of the product's coefficients (R194). -/
abbrev CoefficientsChange (g : Settings) (p : Product) : Prop :=
  ∃ x, g.products.find? (fun y => y.code == p.code) = some x ∧
    (x.aCold ≠ p.aCold ∨ x.bCold ≠ p.bCold ∨ x.aHot ≠ p.aHot ∨ x.bHot ≠ p.bHot)

/-- The product is on a meter: some bay has a line of it in LOADING or FINISHING (R199). -/
abbrev OnMeter (s : State) (code : String) : Prop :=
  ∃ b : Bay, ∃ l ∈ (s.bay b).lines, (l.state = .LOADING ∨ l.state = .FINISHING) ∧
    ∃ d, lineRead s (s.bay b).doc b l.comp = some d ∧ d.product = code

/-- Test 5 of R199 holds of a product. -/
abbrev ProductBusy (s : State) (p : Product) : Prop :=
  ((IdentityChanges s.st.staging p ∨ CoefficientsChange s.st.staging p) ∧ OnMeter s p.code) ∨
    (IdentityChanges s.st.staging p ∧ ∃ x ∈ s.cp.docs, ∃ l ∈ x.lines, l.product = p.code)

/-! ## Tables and counts -/

/-- The document table, the duty table and DT's outbox keep to their places, with no number twice (R37, R50, R80,
R100). -/
abbrev TablesBounded (s : State) : Prop :=
  s.cp.docs.length ≤ Config.maxDocs ∧ (s.cp.docs.map (·.num)).Nodup ∧
    (∀ x ∈ s.cp.docs, x.stack.length ≤ Config.maxStack) ∧
    s.dt.drivers.length ≤ Config.maxDrivers ∧ (s.dt.drivers.map (·.num)).Nodup ∧
    s.dt.outbox.length ≤ Config.maxDtOutbox

/-- A line record's counts (R109). -/
abbrev LineCounts (l : LineRec) : Prop :=
  l.pulses ≤ Config.maxPulses ∧ l.taken ≤ Config.maxSamples ∧ l.faulted ≤ Config.maxSamples

/-- Every count that stays at its ceiling is at most its ceiling (R18, R51, R100, R108, R109, R176, R178). -/
abbrev CountersInRange (s : State) : Prop :=
  s.ck.count ≤ Config.maxCount ∧ s.dt.trips ≤ Config.maxCount16 ∧ s.dt.logfull ≤ Config.maxCount16 ∧
    (∀ x ∈ s.cp.docs, x.count ≤ Config.maxCount16) ∧
    (∀ b : Bay, (s.bay b).stray ≤ Config.maxCount16 ∧ (s.bay b).logfull ≤ Config.maxCount16 ∧
      ∀ l ∈ (s.bay b).lines, LineCounts l) ∧
    s.dl.refused ≤ Config.maxCount16 ∧ s.dl.day.dispatch ≤ Config.maxCount16 ∧ s.dl.day.cancel ≤ Config.maxCount16 ∧
    s.dl.day.trip ≤ Config.maxCount16

/-! ## The append queue and the log (R170, R173, R174) -/

/-- The sources with an append at the log, the one being written first. -/
def Dl.sources (d : Dl) : List LogSource := d.writing.toList.map (·.source) ++ d.queue.map (·.source)

/-- Every record in the store, torn ones included. -/
def Dl.stored (d : Dl) : List StoredRec := d.segs.toList.flatMap (·.records)

/-- No sequence number stands twice in the store, each is below the next to be given, and the record being written has
the latest (R173); at most one segment is ACTIVE and at most one RECLAIMING (R170, R184); each source has at most one
append at the log (R174). A RECLAIMING segment's records are under the high mark, and a DAMAGED one has none (log 30). -/
abbrev LogNumbered (s : State) : Prop :=
  s.dl.sources.Nodup ∧
  (s.dl.stored.map (·.seq)).Nodup ∧ (∀ r ∈ s.dl.stored, r.seq < s.dl.nextSeq) ∧ s.dl.highMark < s.dl.nextSeq ∧
  (∀ w ∈ s.dl.writing, s.dl.scan = false ∧ w.seq < s.dl.nextSeq ∧ (s.dl.segs[w.seg]).state = .ACTIVE ∧
    (w.opened = true → (s.dl.segs[w.seg]).records = []) ∧ ∀ r ∈ s.dl.stored, r.seq < w.seq) ∧
  (∀ i j : SegNo, s.dl.segs[i].state = .ACTIVE → s.dl.segs[j].state = .ACTIVE → i = j) ∧
  (∀ i j : SegNo, s.dl.segs[i].state = .RECLAIMING → s.dl.segs[j].state = .RECLAIMING → i = j) ∧
  (∀ i : SegNo, s.dl.segs[i].state = .ERASED ∨ s.dl.segs[i].state = .DAMAGED → s.dl.segs[i].records = []) ∧
  (∀ i : SegNo, s.dl.segs[i].state = .RECLAIMING → ∀ r ∈ s.dl.segs[i].records, r.seq ≤ s.dl.highMark) ∧
  (∀ r ∈ s.dl.reclaim, s.dl.segs[r.seg].state = .RECLAIMING)

/-- What a step does to the numbers: the high mark does not fall, nor the next number but where a scan finds it anew; a
record leaves the store only with its number under the high mark; a record enters it only with the number it was begun
with, and one is begun only with the next number (R173). -/
abbrev NumbersKept (d e : Dl) : Prop :=
  d.highMark ≤ e.highMark ∧ (d.scan = false → d.nextSeq ≤ e.nextSeq) ∧
    (∀ r ∈ d.stored, r ∈ e.stored ∨ r.seq ≤ e.highMark) ∧
    (∀ r ∈ e.stored, r ∈ d.stored ∨ ∃ w ∈ d.writing, r.seq = w.seq) ∧
    ∀ w ∈ e.writing, w ∈ d.writing ∨ w.seq = d.nextSeq

/-! ## Bindings (R111) -/

/-- The six states in which a bay has a document and a driver bound (R111). -/
def BayState.holdsLoad : BayState → Bool
  | .ASSIGNED | .LOADING | .PAUSED | .FINISHING | .HELD | .DISPATCHING => true
  | .CLOSED | .IDLE | .DISPATCHED => false

/-- The three states in which a compartment is active (R108). -/
def BayState.flowing : BayState → Bool
  | .LOADING | .PAUSED | .FINISHING => true
  | _ => false

/-- What a bay, CP and DT say of a binding agrees (R111). -/
abbrev BoundAlike (s : State) : Prop :=
  (s.cp.docs.map (·.num)).Nodup ∧ (s.dt.drivers.map (·.num)).Nodup ∧
  (∀ b : Bay, (s.bay b).state.holdsLoad = true →
    (∃ x ∈ s.cp.docs, (s.bay b).doc = some x.num ∧ x.state = .BOUND b) ∧
    (∃ x ∈ s.dt.drivers, (s.bay b).driver = some x.num ∧ x.status = .AT_BAY b)) ∧
  (∀ x ∈ s.cp.docs, ∀ b : Bay, x.state = .BOUND b →
    (s.bay b).state.holdsLoad = true ∧ (s.bay b).doc = some x.num) ∧
  (∀ x ∈ s.dt.drivers, ∀ b : Bay, x.status = .AT_BAY b →
    (s.bay b).state.holdsLoad = true ∧ (s.bay b).driver = some x.num)

/-- A driver on a trip has the trip document, RELEASED and his alone (R37, R61, R99). -/
abbrev TripsApart (s : State) : Prop :=
  (∀ x ∈ s.dt.drivers, x.status = .ON_TRIP → ∃ y ∈ s.cp.docs, x.trip = some y.num ∧ y.state = .RELEASED) ∧
  (∀ x ∈ s.dt.drivers, ∀ y ∈ s.dt.drivers, x.status = .ON_TRIP → y.status = .ON_TRIP → x.trip = y.trip → x.num = y.num)

/-- The record a bay makes: a DISPATCH or a CANCEL (06_loading_bays.md). -/
def bayBody : Body → Bool
  | .DISPATCH _ => true
  | .CANCEL _ => true
  | _ => false

/-- The content of a DISPATCH record. -/
def dispatchOf : Body → Option DispatchBody
  | .DISPATCH d => some d
  | _ => none

/-- What a bay's outbox holds in each of its states (R129 to R132), and that its append at the log is its oldest
record. -/
abbrev OutboxesMatch (s : State) : Prop :=
  (∀ b : Bay, (s.bay b).ctx.isSome = true → (s.bay b).state.flowing = true) ∧
  (∀ b : Bay, (s.bay b).outbox.length ≤ 2 ∧ ∀ r ∈ (s.bay b).outbox, bayBody r.body = true) ∧
  (∀ b : Bay, (s.bay b).state.holdsLoad = true → (s.bay b).state ≠ .DISPATCHING → (s.bay b).outbox = []) ∧
  (∀ b : Bay, (s.bay b).state = .DISPATCHING →
    (∃ r ∈ (s.bay b).outbox, (s.bay b).outbox = [r] ∧ ∃ x ∈ s.dt.drivers, x.pend = true ∧
      (s.bay b).driver = some x.num ∧
      ∃ d ∈ dispatchOf r.body, d.bay = b ∧ (s.bay b).doc = some d.doc ∧ d.drv = x.num)) ∧
  (∀ a ∈ s.dl.queue, ∀ b : Bay, a.source = .B b → (s.bay b).outbox.head? = some a.record) ∧
  (∀ w ∈ s.dl.writing, ∀ b : Bay, w.source = .B b → (s.bay b).outbox.head? = some w.record)

/-- R111 with what makes it hold step by step. -/
abbrev Bindings (s : State) : Prop := s.dl.sources.Nodup ∧ BoundAlike s ∧ TripsApart s ∧ OutboxesMatch s

end Sys2Proof.Machine
end

