-- ==== Sys2Proof/Certificates/Slice0/Obligations.lean ====
section
/-! DEFINITION. Certificates/Slice0/Obligations.lean: the statements about the part. `Ready`, `Answers` and the
invariants are those of Safety.lean. -/

open Sys2Proof Sys2Proof.Machine

/-! ## The queue of commands -/

/-- One step is the command at the front of the queue, on the state with the queue's rest. On an empty queue it is one
millisecond (the model's choice, log 4): the pause of each PAUSED bay and the settle of each FINISHING bay grow up to
their limits, as does the time since the latest calibration; the erase work falls while the store is free, and the apply
work falls; nothing else changes, and nothing at all without the main supply (log 5). -/
def Obligations.StepRunsTheFrontCommand : Prop :=
  (∀ (c : Instr) (rest : List Instr) (s : State), s.pending = c :: rest → step s = exec c { s with pending := rest }) ∧
  ∀ s : State, s.pending = [] →
    (s.supply = false → step s = .next s) ∧
    (s.supply = true → ∃ t : State, step s = .next t ∧
      t = { s with
        bays := t.bays
        ts := { s.ts with sinceCal := s.ts.sinceCal.map fun n => min 600000 (n + 1) }
        dl := { s.dl with reclaim := if s.dl.writing = none ∧ s.dl.accesses = 0 then
                            s.dl.reclaim.map fun r => { r with work := r.work - 1 } else s.dl.reclaim }
        st := { s.st with apply := s.st.apply.map fun n => n - 1 } } ∧
      ∀ b : Bay, t.bay b =
        let u := s.bay b
        match u.state with
        | .PAUSED => { u with ctx := u.ctx.map fun c =>
            { c with pauseMs := min (60000 * s.st.applied.bays[b].pause) (c.pauseMs + 1) } }
        | .FINISHING => { u with ctx := u.ctx.map fun c =>
            { c with settleMs := if c.settled then c.settleMs else min 3000 (c.settleMs + 1) } }
        | _ => u)

/-- Every command ends in a next state, and no command touches the queue of those that wait. -/
def Obligations.EveryCommandAnswersANextState : Prop :=
  ∀ (c : Instr) (s : State), ∃ t : State, exec c s = .next t ∧ t.pending = s.pending

/-! ## The link (01_the_message_link.md) -/

/-- A request whose fields are not of its verb's form is refused with SYNTAX and changes nothing, but for the staging
that a request of CP discards whatever becomes of it. -/
def Obligations.MalformedRequestsGetSyntax : Prop :=
  ∀ (c : Instr) (h : Hdr) (s : State), c.malformed = true → c.head = some h → Ready h s →
    ∃ r, effect c = some r ∧
      exec c s = Answers h r.token (er .SYNTAX)
        (if interruptsStaging c then interrupted (underKey h s) else underKey h s)

/-- A request that arrives while the reply queue is full or a DV RESET waits stands in the input buffer; with four
lines there it is rejected, counted under FULL and reported. A waiting line is held as the command it spells (the
model's choice, log 23). -/
def Obligations.LinesWaitAndOverflow : Prop :=
  ∀ (c : Instr) (h : Hdr) (s : State), c.head = some h → s.supply = true →
    (Config.replySize ≤ s.dv.replies.length ∨ s.dv.resetWait = true) →
    (s.dv.buffer.length < Config.bufferSize →
      exec c s = .next ((underKey h s).modDv fun d => { d with buffer := d.buffer ++ [c] })) ∧
    (Config.bufferSize ≤ s.dv.buffer.length →
      ∃ u : State, exec c s = .next (pump u) ∧ u.dv.full = min 65535 (s.dv.full + 1) ∧ u.dv.buffer = s.dv.buffer ∧
        u.dv.replies = s.dv.replies ∧
        u.dv.notices = putNotice ⟨.DV, .FRAME_REJECT, rejectionFields u.dv⟩ s.dv.notices ∧
        u.ck = s.ck ∧ u.dt = s.dt ∧ u.cp = s.cp ∧ u.bays = s.bays ∧ u.ts = s.ts ∧ u.dl = s.dl ∧ u.st = s.st)

/-- The routing tests meet a line in their order, whatever stands in its later tokens: a reserved tag, an unknown unit,
a malformed or missing verb, an unknown verb. Each refuses with its code, and only the last sets a mark. The order in
which the marked units are kept is the model's choice (log 47). -/
def Obligations.RoutingRefusals : Prop :=
  (∀ (v : Bool) (cs unit : List Char) (t1 t2 : Char) (rest : List (List Char)),
    splitAtChar ' ' cs = [t1, t2] :: unit :: rest →
    let h : Hdr := ⟨BitVec.ofNat 8 (16 * hexVal t1 + hexVal t2), v⟩
    (h.tag = 0xFF#8 → commandOf v cs = .unknownRequest h (.tagReserved (String.ofList unit))) ∧
    (h.tag ≠ 0xFF#8 →
      (unitOf unit = none → commandOf v cs = .unknownRequest h (.unknownUnit (String.ofList unit))) ∧
      ∀ u, unitOf unit = some u →
        (rest = [] → commandOf v cs = .unknownRequest h (.badVerb u)) ∧
        ∀ verb fields, rest = verb :: fields →
          (¬(1 ≤ verb.length ∧ verb.length ≤ 12 ∧ ∀ x ∈ verb, isCapital x = true) →
            commandOf v cs = .unknownRequest h (.badVerb u)) ∧
          (1 ≤ verb.length ∧ verb.length ≤ 12 ∧ (∀ x ∈ verb, isCapital x = true) →
            (unitVerbs u (String.ofList verb) = none → commandOf v cs = .unknownRequest h (.unknownVerb u)) ∧
            ∀ cmd, unitVerbs u (String.ofList verb) = some cmd → commandOf v cs = cmd h (itemsOf fields)))) ∧
  ∀ (h : Hdr) (s : State),
    (Ready h s →
      (∀ t, exec (.unknownRequest h (.unknownUnit t)) s = Answers h t (er .UNKNOWN_UNIT) (underKey h s)) ∧
      (∀ u, exec (.unknownRequest h (.badVerb u)) s = Answers h (unitText u) (er .SYNTAX) (underKey h s)) ∧
      (∀ u, exec (.unknownRequest h (.unknownVerb u)) s =
        Answers h (unitText u) (er .UNKNOWN_VERB)
          (setComponents (fun d => { d with marks := setMark u d.marks }) (underKey h s))) ∧
      ∀ u v : UnitName, v ∈ setMark u s.dv.marks ↔ v = u ∨ v ∈ s.dv.marks) ∧
    (s.supply = true → s.dv.buffer = [] → s.dv.replies.length < Config.replySize → s.dv.resetWait = false →
      h.tag = 0xFF#8 →
      ∀ t, exec (.unknownRequest h (.tagReserved t)) s = Answers h t (er .TAG_RESERVED) (underKey h s))

/-- DV STATUS changes nothing and answers with the mode, the queue, the marks, the fault summary with its components,
the start kind and the four counts. That FAULT is one list of five words, and the order of the units in MARKS, are the
model's (log 18, log 47). -/
def Obligations.DvStatusReadsTheLink : Prop :=
  ∀ (h : Hdr) (s : State), Ready h s →
    exec (.dvStatus h (some ())) s =
      Answers h "DV"
        (ok [fld "NOTICE" (modeText s.dv.mode), fld "QUEUE" (dec s.dv.notices.length),
          fld "MARKS" (if s.dv.marks = [] then "NONE" else commas (s.dv.marks.map unitText)),
          fld "FAULT" (commas [
            setClear (decide (s.dv.marks ≠ []) || s.dv.sampler || s.dv.log || s.dv.settings),
            setClear (decide (s.dv.marks ≠ [])), setClear s.dv.sampler, setClear s.dv.log, setClear s.dv.settings]),
          fld "START" (startText s.dv.startKind), fld "FULL" (dec s.dv.full), fld "LONG" (dec s.dv.long),
          fld "CHECK" (dec s.dv.check), fld "ADDR" (dec s.dv.addr)])
        (underKey h s)

/-- DV CLEAR clears every mark, and FAULT is raised again only while it is pending and something changed; DV MODE sets
the notice mode; DV NEXT removes the oldest notice and returns it, or answers EMPTY. That the FAULT notice raised by
CLEAR carries MARKS=NONE is the model's reading (log 45). -/
def Obligations.DvClearModeAndNext : Prop :=
  (∀ (h : Hdr) (s : State), Ready h s →
     let t := (underKey h s).modDv fun d => { d with marks := [] }
     exec (.dvClear h (some ())) s =
       Answers h "DV" (ok [])
         (if s.dv.marks ≠ [] ∧ s.dv.pending .DV .FAULT = true then raise .DV .FAULT (faultFields t.dv) t else t)) ∧
  ∀ (h : Hdr) (s : State), Ready h s →
    (∀ m, exec (.dvMode h (some (some m))) s =
      Answers h "DV" (ok [fld "NOTICE" (modeText m)]) ((underKey h s).modDv fun d => { d with mode := m })) ∧
    exec (.dvMode h (some none)) s = Answers h "DV" (er .RANGE) (underKey h s) ∧
    (s.dv.notices = [] → exec (.dvNext h (some ())) s = Answers h "DV" (ok [bare "EMPTY"]) (underKey h s)) ∧
    ∀ n ns, s.dv.notices = n :: ns →
      exec (.dvNext h (some ())) s =
        Answers h "DV" (ok (bare (unitText n.unit) :: bare (kindText n.kind) :: n.fields))
          ((underKey h s).modDv fun d => { d with notices := ns })

/-- DV RESET is answered OK and keeps DV from taking lines; the device reset acts once the reply has been sent in
full, and not before. That the device reset is a row of its own is the table's; that the row acts only then is the
model's choice (log 26). -/
def Obligations.ResetRequestThenDeviceReset : Prop :=
  (∀ (h : Hdr) (s : State), Ready h s →
    exec (.dvReset h (some ())) s =
      Answers h "DV" (ok []) ((underKey h s).modDv fun d => { d with resetWait := true })) ∧
  ∀ (e : StartEnv) (s : State), s.supply = true →
    (s.dv.resetWait = true ∧ s.dv.replies = [] ∧ s.dv.wire = none →
      exec (.deviceReset e) s = .next (pump (warmStart .DEVICE false e s))) ∧
    (s.dv.resetWait = true ∧ s.dv.wire ≠ none → exec (.deviceReset e) s = .next s)

/-- The receiver keeps the characters of a line up to the 240th, marks a longer one, drops an empty line, counts a
rejected one under its cause, and hands an accepted one on as the request it spells; a partial line is abandoned
after the silence, and an overlong one is counted under LONG. A LF that would be the 241st character is overlong
(the model's choice, log 14). -/
def Obligations.ReceiverAssemblesLines : Prop :=
  (∀ (c : RxChar) (v : Bool) (s : State), s.supply = true →
     (rxIsLf c = false →
       (s.dv.rx.length < 240 →
         exec (.rxCharacter c v) s = .next (pump { s with supv := v, dv := { s.dv with rx := s.dv.rx ++ [c] } })) ∧
       (240 ≤ s.dv.rx.length →
         exec (.rxCharacter c v) s = .next (pump { s with supv := v, dv := { s.dv with overlong := true } }))) ∧
     (rxIsLf c = true →
       let u : State := { s with supv := v, dv := { s.dv with rx := [], overlong := false } }
       (s.dv.overlong = true ∨ 240 ≤ s.dv.rx.length →
         exec (.rxCharacter c v) s = .next (pump (rejectLine .LONG u))) ∧
       (s.dv.overlong = false → s.dv.rx.length < 240 →
         (s.dv.rx = [⟨0x0D#8, false⟩] → exec (.rxCharacter c v) s = .next (pump u)) ∧
         (s.dv.rx ≠ [⟨0x0D#8, false⟩] →
           (passCheck s.dv.rx = none → exec (.rxCharacter c v) s = .next (pump (rejectLine .CHECK u))) ∧
           ∀ cov, passCheck s.dv.rx = some cov →
             (passAddr cov = false → exec (.rxCharacter c v) s = .next (pump (rejectLine .ADDR u))) ∧
             (passAddr cov = true →
               exec (.rxCharacter c v) s = .next (pump (acceptLine (commandOf v cov.dropLast) u))))))) ∧
  ∀ s : State, s.supply = true →
    let u : State := { s with dv := { s.dv with rx := [], overlong := false } }
    (s.dv.overlong = false → exec .lineSilence s = .next (pump u)) ∧
    (s.dv.overlong = true →
      exec .lineSilence s =
        .next (pump (raise .DV .FRAME_REJECT (rejectionFields { u.dv with long := min 65535 (s.dv.long + 1) })
          { u with dv := { u.dv with long := min 65535 (s.dv.long + 1) } })))

/-- When a line has been sent the transmitter starts the oldest reply, else in PUSH mode the oldest notice, else waits;
a line that alone waited for a place among the replies is then taken. That after the reply to DV RESET the transmitter
goes free and sends no notice is the model's choice (log 26). -/
def Obligations.TransmitterChoosesTheNextLine : Prop :=
  ∀ (v : Bool) (s : State), s.supply = true → s.dv.wire ≠ none →
    (s.dv.buffer = [] →
      (∀ r rs, s.dv.replies = r :: rs →
        exec (.transmitLineEnd v) s =
          .next { s with supv := v, dv := { s.dv with wire := some (.reply r), replies := rs } }) ∧
      (∀ n ns, s.dv.replies = [] → s.dv.mode = .PUSH → s.dv.resetWait = false → s.dv.notices = n :: ns →
        exec (.transmitLineEnd v) s =
          .next { s with supv := v, dv := { s.dv with wire := some (.notice n), notices := ns } }) ∧
      (s.dv.replies = [] → s.dv.mode = .POLL ∨ s.dv.resetWait = true ∨ s.dv.notices = [] →
        exec (.transmitLineEnd v) s = .next { s with supv := v, dv := { s.dv with wire := none } })) ∧
    ∀ c r rs, s.dv.buffer = [c] → s.dv.replies = r :: rs → s.dv.replies.length = Config.replySize →
      s.dv.resetWait = false →
      exec (.transmitLineEnd v) s =
        .next (pump (takeRequest c
          { s with supv := v, dv := { s.dv with buffer := [], wire := some (.reply r), replies := rs } }))

/-- ATTN follows the notice queue in LEVEL mode and the pulse in PULSE mode; a raise starts the pulse and places the
notice at the tail or in the place of the pending one; the pulse ends with its row. -/
def Obligations.AttnAndRaises : Prop :=
  (∀ s : State, s.supply = true →
    (s.st.applied.attn = .LEVEL → (s.attn = true ↔ s.dv.notices ≠ [])) ∧
    (s.st.applied.attn = .PULSE → s.attn = s.dv.attnPulse) ∧
    exec .attnPulseEnd s = .next (pump { s with dv := { s.dv with attnPulse := false } })) ∧
  ∀ (u : UnitName) (k : NKind) (fs : List Fld) (s : State), (s.dv.notices.map Notice.pair).Nodup →
    (s.dv.pending u k = false → (raise u k fs s).dv.notices = s.dv.notices ++ [⟨u, k, fs⟩]) ∧
    (s.dv.pending u k = true →
      (raise u k fs s).dv.notices = s.dv.notices.map fun n => if n.unit = u ∧ n.kind = k then ⟨u, k, fs⟩ else n) ∧
    (s.st.applied.attn = .PULSE → (raise u k fs s).dv.attnPulse = true)

/-! ## The clock (02_clock_calendar_and_terminal_day.md) -/

/-- The count advances by one and stays at its maximum, on either supply, and nothing else changes but the mark that
a minute of it falls due for its test. The mark `minuteDue` is the model's own (log 28). -/
def Obligations.ClockTickAdvancesTheCount : Prop :=
  ∀ s : State, ∃ due : Bool,
    exec .clockTick s =
      .next { s with ck := { s.ck with count := min 4294967295 (s.ck.count + 1), minuteDue := due } } ∧
    (due = true ↔ s.ck.minuteDue = true ∨
      (s.ck.isSet = true ∧ s.supply = true ∧ s.ck.count < 4294967295 ∧ (s.ck.count + 1) % 60 = 0))

/-- A local minute that falls due fires the match for its date, once for each date: the date becomes the last fired
date and a DAY_CLOSE record goes into CK's outbox. That a DST instant due is taken first is the model's choice (log
28). -/
def Obligations.MinuteReachedTestsTheMatch : Prop :=
  ∀ s : State, s.supply = true → s.ck.isSet = true → s.ck.minuteDue = true → s.ck.dst = s.ck.inForce →
    let m := s.localMin
    let fires := s.ck.minuteMatches m = true ∧ ∀ d ∈ s.ck.lastFired, d < m / 1440
    (fires → ∃ t : State, exec .minuteReached s = .next (pump t) ∧
      t = { s with dl := t.dl, ck := { s.ck with
        minuteDue := false, lastFired := some (m / 1440),
        outbox := s.ck.outbox ++ [s.makeRec (.DAY_CLOSE DayCounts.zero)] } } ∧ Posted .CK s t) ∧
    (¬fires → exec .minuteReached s = .next (pump { s with ck := { s.ck with minuteDue := false } }))

/-- A DST instant puts the state in force that the rules give, and raises the DST notice; a forward one tests the 60
minutes it skips, and where one matches for a date later than the last fired date that date becomes the last fired date
and a DAY_CLOSE record of the moment after the jump goes into CK's outbox. Without the main supply the instant only
changes the state. The times BEFORE and AFTER and the silence without the supply are the model's choices (log 16, log
5). -/
def Obligations.DstInstantChangesTheState : Prop :=
  ∀ s : State, s.ck.isSet = true → s.ck.dst ≠ s.ck.inForce →
    (s.supply = false →
      exec .dstInstant s = .next { s with ck := { s.ck with dst := s.ck.inForce } }) ∧
    (s.supply = true → ∃ t : State, exec .dstInstant s = .next (pump t) ∧
      t.dv.notices = putNotice ⟨.CK, .DST, dstFields { s.ck with dst := s.ck.inForce } s.ck.dst
        (reachedInstant s.ck.fwd s.ck.rev s.ck.count)⟩ s.dv.notices ∧
      (let at_ := reachedInstant s.ck.fwd s.ck.rev s.ck.count
       let date := at_ / 86400
       let fires := s.ck.inForce = true ∧ (∃ k : Fin 60, s.ck.minuteMatches (at_ / 60 + k) = true) ∧
         ∀ d ∈ s.ck.lastFired, d < date
       (fires → t.ck = { s.ck with dst := true, lastFired := some date, outbox := s.ck.outbox ++
         [⟨some ⟨s.ck.count, s.ck.count + 3600, true⟩, .DAY_CLOSE DayCounts.zero⟩] } ∧ Posted .CK s t) ∧
       (¬fires → t.ck = { s.ck with dst := s.ck.inForce } ∧ t.dl = s.dl)) ∧
      LinkKept s t ∧ t.dt = s.dt ∧ t.cp = s.cp ∧ t.bays = s.bays ∧ t.ts = s.ts ∧ t.st = s.st)

/-- At a loss of the supply CK writes the latest-loss time and, if absent, the first-loss stamp, and every RELEASE
output goes inactive; the count and the tables stay. That RELEASE goes inactive and a pulse of ATTN ends with the supply
is the model's reading (log 5). -/
def Obligations.SupplyLossStampsTheTime : Prop :=
  ∀ s : State, s.supply = true →
    let now := if s.ck.isSet = true then some s.ck.count else none
    ∃ t : State, exec .mainSupplyLoss s = .next t ∧ t.supply = false ∧
      t.ck = { s.ck with latestLoss := now, firstLoss := s.ck.firstLoss.or now, dstAtLoss := s.ck.dst } ∧
      (∀ b : Bay, t.bay b = { s.bay b with release := false }) ∧
      t.dv = { s.dv with attnPulse := false } ∧ t.dt = s.dt ∧ t.cp = s.cp ∧ t.ts = s.ts ∧ t.dl = s.dl ∧ t.st = s.st

/-- A taken CK SET sets the count and the flag, recomputes the DST state, raises DST where the state changed or the
clock was unset, and makes a CLOCK_SET record with the new time; the conditions that refuse it refuse it. The history
point counts a record being written (log 19), the mark of a minute still to be tested is cleared (log 28), and DST gives
the times before and after of the new count (log 16): all are the model's choices. -/
def Obligations.ClockSetTakesTheTime : Prop :=
  ∀ (h : Hdr) (a : CkSetArgs) (s : State), Ready h s →
    (setTime a = none → exec (.ckSet h (some a)) s = Answers h "CK" (er .RANGE) (underKey h s)) ∧
    ∀ n, setTime a = some n →
      (s.anyBayBusy = true ∨ s.dl.scan = true ∨ 2 ≤ s.ck.outbox.length →
        exec (.ckSet h (some a)) s = Answers h "CK" (er .BUSY) (underKey h s)) ∧
      (s.anyBayBusy = false → s.dl.scan = false → s.ck.outbox.length < 2 →
        ((∃ p ∈ historyPoint s, n < p) →
          exec (.ckSet h (some a)) s = Answers h "CK" (er .TIME_BEFORE_HISTORY) (underKey h s)) ∧
        ((∀ p ∈ historyPoint s, p ≤ n) →
          let old := if s.ck.isSet = true then some s.ck.count else none
          let dst := inForceAt s.ck.fwd s.ck.rev n
          ∃ t : State,
            exec (.ckSet h (some a)) s = Answers h "CK" (ok [fld "OLD" (timeOrNone old), fld "NEW" (timeText n)]) t ∧
            t.ck = { s.ck with count := n, isSet := true, minuteDue := false, dst := dst,
                               outbox := s.ck.outbox ++ [⟨some ⟨n, n + dstOffset dst, dst⟩, .CLOCK_SET old n⟩] } ∧
            t.dv.notices = (if s.ck.dst ≠ dst ∨ s.ck.isSet = false then
              putNotice ⟨.CK, .DST, dstFields t.ck s.ck.dst n⟩ s.dv.notices else s.dv.notices) ∧
            LinkKept s t ∧ Posted .CK s t ∧ t.dt = s.dt ∧ t.cp = s.cp ∧ t.bays = s.bays ∧ t.ts = s.ts ∧ t.st = s.st))

/-- A taken DSTRULE writes its rule, and DSTRULE OFF removes both; the DST state follows the rules at once, DST telling
a change of it on a set clock, and both are refused while a bay is away from IDLE and CLOSED. DAYCLOSE writes the three
fields of the match with their enables, or is refused with RANGE, a word that is not OFF included. That an unset clock's
DST state follows the count as it stands and which times the notice gives, are the model's choices (log 37, log 16). -/
def Obligations.RulesAndMatchAreWritten : Prop :=
  (∀ (h : Hdr) (s : State), Ready h s →
     (∀ a n r, ruleInRange s.ck a = some (n, r) → s.anyBayBusy = false →
       ∃ t : State, exec (.ckDstrule h (some a)) s = Answers h "CK" (ok (ruleEcho n r)) t ∧
         t.ck.fwd = (if n = .FWD then some r else s.ck.fwd) ∧ t.ck.rev = (if n = .REV then some r else s.ck.rev) ∧
         t.ck = { s.ck with fwd := t.ck.fwd, rev := t.ck.rev, dst := inForceAt t.ck.fwd t.ck.rev s.ck.count } ∧
         t.dv.notices = (if s.ck.isSet = true ∧ s.ck.dst ≠ t.ck.dst then
           putNotice ⟨.CK, .DST, dstFields t.ck s.ck.dst s.ck.count⟩ s.dv.notices else s.dv.notices) ∧
         LinkKept s t ∧ t.dt = s.dt ∧ t.cp = s.cp ∧ t.bays = s.bays ∧ t.ts = s.ts ∧ t.dl = s.dl ∧ t.st = s.st) ∧
     (s.anyBayBusy = false →
       ∃ t : State, exec (.ckDstruleOff h (some ())) s = Answers h "CK" (ok [bare "OFF"]) t ∧
         t.ck = { s.ck with fwd := none, rev := none, dst := false } ∧
         t.dv.notices = (if s.ck.isSet = true ∧ s.ck.dst = true then
           putNotice ⟨.CK, .DST, dstFields t.ck true s.ck.count⟩ s.dv.notices else s.dv.notices) ∧
         LinkKept s t ∧ t.dt = s.dt ∧ t.cp = s.cp ∧ t.bays = s.bays ∧ t.ts = s.ts ∧ t.dl = s.dl ∧ t.st = s.st) ∧
     (s.anyBayBusy = true →
       exec (.ckDstruleOff h (some ())) s = Answers h "CK" (er .BUSY) (underKey h s) ∧
       ∀ a, (ruleInRange s.ck a).isSome = true →
         exec (.ckDstrule h (some a)) s = Answers h "CK" (er .BUSY) (underKey h s))) ∧
  ∀ (h : Hdr) (a : DaycloseArgs) (s : State), Ready h s →
    (a.minute = none ∨ a.hour = none ∨ a.wday = none →
      exec (.ckDayclose h (some a)) s = Answers h "CK" (er .RANGE) (underKey h s)) ∧
    ∀ mi ho wd, a = ⟨some mi, some ho, some wd⟩ →
      let legal := (∀ m ∈ mi, m ≤ 59) ∧ (∀ m ∈ ho, m ≤ 23) ∧ ∀ d ∈ wd, d ≤ 6
      (legal →
        exec (.ckDayclose h (some a)) s =
          Answers h "CK" (ok [fld "MIN" (numberOrOff mi), fld "HOUR" (numberOrOff ho), fld "WDAY" (numberOrOff wd)])
            ((underKey h s).modCk fun c => { c with matchMin := mi, matchHour := ho, matchWday := wd })) ∧
      (¬legal → exec (.ckDayclose h (some a)) s = Answers h "CK" (er .RANGE) (underKey h s))

/-- CK CLEARSTAMP makes the first-loss stamp absent in every state and with either key level, leaves the other two, and
the first loss after it sets the stamp again. -/
def Obligations.ClearstampClearsTheFirstLoss : Prop :=
  (∀ (h : Hdr) (s : State), Ready h s →
    exec (.ckClearstamp h (some ())) s =
      Answers h "CK" (ok []) { s with supv := h.supv, ck := { s.ck with firstLoss := none } }) ∧
  ∀ s : State, s.supply = true → s.ck.isSet = true → s.ck.firstLoss = none →
    ∃ t : State, exec .mainSupplyLoss s = .next t ∧ t.ck.firstLoss = some s.ck.count

/-! ## The starts (00_scope.md "Start kinds") -/

/-- What every start leaves of the link, the sampler, the staging and the log: nothing received or waiting, no reply to
be sent, and of notices only what the start itself raised (FAULT and APPLIED when the settings check failed, POWER and
DST after a loss, the bays' own after a warm start), the first of them on TXD, with ATTN driven by them alone; the
notice mode PUSH, no mark, no count, the start-up scan running, and DV's RESTART record posted, with the oldest record
of every other source that has one (R16, R17, R152, R192, R23, R50, R129, R201). A warm start with the supply present
and the operands of a start are the model's (log 22, log 9). -/
def Obligations.EveryStartLeavesTheseStates : Prop :=
  ∀ (e : StartEnv) (s : State) (c : Instr) (k : StartKind),
    (c = .coldStart e ∧ k = .COLD) ∨ (c = .warmStart e ∧ k = .WARM) ∨ (c = .resetLine e ∧ k = .WARM ∧ s.supply = true) ∨
      (c = .deviceReset e ∧ k = .DEVICE ∧ s.supply = true ∧ s.dv.resetWait = true ∧ s.dv.replies = [] ∧
        s.dv.wire = none) →
    ∃ t : State, exec c s = .next t ∧ t.supply = true ∧
      (t.dv.rx = [] ∧ t.dv.overlong = false ∧ t.dv.buffer = [] ∧ t.dv.replies = [] ∧ t.dv.mode = .PUSH ∧
        t.dv.marks = [] ∧ t.dv.full = 0 ∧ t.dv.long = 0 ∧ t.dv.check = 0 ∧ t.dv.addr = 0 ∧ t.dv.resetWait = false ∧
        t.dv.startKind = k ∧ t.dv.sampler = false ∧ t.dv.log = false) ∧
      (let good := s.st.storeGood && e.settingsGood
       let sent := noticesOut t
       t.dv.settings = !good ∧ (∀ r, t.dv.wire ≠ some (.reply r)) ∧ (t.dv.wire = none → t.dv.notices = []) ∧
       (∀ n ∈ sent,
         (good = false ∧ (n.pair = (.DV, .FAULT) ∨ n.pair = (.ST, .APPLIED))) ∨
         (c = .warmStart e ∧ (n.pair = (.CK, .POWER) ∨ n.pair = (.CK, .DST))) ∨
         (k ≠ .COLD ∧ ∃ b : Bay, n.pair = (.B b, .STATE) ∨ n.pair = (.B b, .LINES) ∨ n.pair = (.B b, .HOLD))) ∧
       (good = false → (.DV, .FAULT) ∈ sent.map Notice.pair ∧ (.ST, .APPLIED) ∈ sent.map Notice.pair) ∧
       (c = .warmStart e → (.CK, .POWER) ∈ sent.map Notice.pair) ∧
       (t.dv.attnPulse = true ↔ t.st.applied.attn = .PULSE ∧ sent ≠ [])) ∧
      t.ts = Ts.reset ∧ t.cp.staging = none ∧ (∀ b : Bay, (t.bay b).release = false) ∧
      (t.dl.writing = none ∧ t.dl.scan = true ∧ t.dl.refused = 0 ∧ t.dl.cursor = none ∧ t.dl.reclaim = none ∧
        t.dl.accesses = 0 ∧ (∃ r : LogRec, r.body = .RESTART k ∧ (⟨.DV, r⟩ : Append) ∈ t.dl.queue) ∧
        ∀ src r, (t.outbox src).head? = some r → (⟨src, r⟩ : Append) ∈ t.dl.queue) ∧
      (t.st.defaults = !(s.st.storeGood && e.settingsGood)) ∧ t.st.apply = none ∧
      t.st.applied = (if s.st.storeGood && e.settingsGood then s.st.store else Settings.factory) ∧
      t.st.staging = t.st.applied

/-- A cold start leaves the clock unset with its defaults, both tables empty, and every bay IDLE or CLOSED as its
entry says, with nothing bound. The count it leaves is a free value. The free value is log 8's. -/
def Obligations.ColdStartEmptiesTheTables : Prop :=
  ∀ (e : StartEnv) (s : State), ∃ t : State, exec (.coldStart e) s = .next t ∧
    { t.ck with count := 0 } = Ck.reset ∧ t.dt = Dt.reset ∧ t.cp = Cp.reset ∧ t.st.outbox = none ∧
    t.dl.day = DayCounts.zero ∧
    ∀ b : Bay, t.bay b = { BayUnit.reset with
      state := if t.st.applied.bays[b].enabled then .IDLE else .CLOSED, bond := (s.bay b).bond, halt := (s.bay b).halt }

/-- A warm start, a RESET-line start and a device reset take each bay by the state it held. A bay with nothing loaded
and a dispatched bay come to IDLE, a bay with a loaded or an active line is held with RESTART, the active line
reconciled without a final sample and QUANTITY and TEMPERATURE matched to the lines; where the settings failed their
check every bay comes to CLOSED instead, a bay that would be held giving up its document and driver, with a CANCEL
record for its loaded lines. Every bay keeps its stray count, has LOGFULL 0 and drops a DISPATCH record from its outbox,
and tells what changed by STATE with reason RESTART, LINES and HOLD. A released document is a DRAFT without a stack, a
released driver ON_SITE; the rest of the tables, the day counts, the high mark and the store (but for a write or a scan
cut off) are kept, as is CK but for its outbox where no power interruption is recorded; no dispatch is pending, TRIPS
and LOGFULL of DT are 0. A warm start from power loss notes the restore and makes a POWER record before any late day
close; the count, the rules and the match are kept. With the clock set the match fires once for the latest date not yet
fired that has a matching minute among those which passed untested or were skipped, then the minute at the start is
tested; each firing leaves its date as the last fired date and a DAY_CLOSE record. That where the settings failed their
check an active line is reconciled by the factory defaults, and the CANCEL record carries the figures that this gives,
is the model's reading (log 31), and what a product that the emptied table does not hold reads as is a free value (log
12). A warm start with the supply present, the search over nine dates, the minute or instant still due at the loss, the
test of a minute that the interruption began inside, and the operands of a start are the model's (log 22, log 28, log
44, log 9). -/
def Obligations.WarmStartsKeepBaysAndRecordTheLoss : Prop :=
  (∀ (e : StartEnv) (s : State) (c : Instr),
     c = .warmStart e ∨ (c = .resetLine e ∧ s.supply = true) ∨
       (c = .deviceReset e ∧ s.supply = true ∧ s.dv.resetWait = true ∧ s.dv.replies = [] ∧ s.dv.wire = none) →
     let good := s.st.storeGood && e.settingsGood
     let g := if good then s.st.store else Settings.factory
     ∃ t : State, exec c s = .next t ∧
       t.dt = { s.dt with
         drivers := s.dt.drivers.map fun x => { x with
           pend := false
           status := match x.status with
             | .AT_BAY b => if startFrees good (s.bay b) && (s.bay b).driver == some x.num then .ON_SITE else .AT_BAY b
             | st => st }
         trips := 0, logfull := 0, lastTrip := t.dt.lastTrip } ∧
       t.cp = ⟨s.cp.docs.map fun x => match x.state with
         | .BOUND b => if startFrees good (s.bay b) && (s.bay b).doc == some x.num then
             { x with state := .DRAFT, stack := [] } else x
         | _ => x, none⟩ ∧
       (c ≠ .warmStart e → t.ck = { s.ck with outbox := [] }) ∧ t.st.outbox = s.st.outbox ∧
       (t.dl.day = s.dl.day ∧ t.dl.highMark = s.dl.highMark ∧
         (s.dl.writing = none → s.dl.scan = false → t.dl.segs = s.dl.segs)) ∧
       ∀ b : Bay,
         let u := s.bay b
         let v := t.bay b
         let w := { u with outbox := u.outbox.filter fun r => !isDispatch r, logfull := 0, release := false }
         let emptied : BayState → BayUnit := fun st =>
           { w with state := st, holds := Holds.none, doc := none, driver := none, plan := none, verdict := none,
                    lines := [], ctx := none }
         let kept := { w with state := .HELD, holds := { u.holds with restart := true } }
         let vacated : List LineRec → Prop := fun ls =>
           v = { emptied .CLOSED with outbox := v.outbox } ∧
             ∀ d n, u.doc = some d → u.driver = some n → v.outbox = w.outbox ++ if ls.any (·.loaded) then
               [⟨t.stamp, .CANCEL ⟨b, d, n, .RESET, (ls.filter (·.loaded)).map (cancelItem s b)⟩⟩] else []
         ChangeTold b "RESTART" u v (noticesOut t) ∧
         (match u.state with
          | .CLOSED | .IDLE => v = { w with state := if good then u.state else .CLOSED }
          | .DISPATCHED => v = emptied (if good then .IDLE else .CLOSED)
          | .ASSIGNED | .HELD =>
            (good = true → v = if u.anyLoaded then kept else emptied .IDLE) ∧ (good = false → vacated u.lines)
          | .DISPATCHING => (good = true → v = kept) ∧ (good = false → vacated u.lines)
          | .LOADING | .PAUSED | .FINISHING => ∀ cx d, u.ctx = some cx → lineRead s u.doc b cx.comp = some d →
            let ls := endedLines g b cx d u.lines
            (good = true → v = { kept with
              lines := ls, ctx := none,
              holds := { u.holds with
                quantity := ls.any fun m => decide (m.state = .OVER ∨ m.state = .UNDER),
                temperature := ls.any fun m => decide (m.state = .PROBE_FAULT ∨ m.state = .NO_TEMP),
                restart := true } }) ∧
            (good = false → vacated ls))) ∧
  (∀ (e : StartEnv) (s : State), s.supply = false →
    let restore := if s.ck.isSet = true then some s.ck.count else none
    ∃ t : State, exec (.warmStart e) s = .next t ∧
      t.ck.count = s.ck.count ∧ t.ck.isSet = s.ck.isSet ∧ t.ck.fwd = s.ck.fwd ∧ t.ck.rev = s.ck.rev ∧
      t.ck.matchMin = s.ck.matchMin ∧ t.ck.matchHour = s.ck.matchHour ∧ t.ck.matchWday = s.ck.matchWday ∧
      t.ck.firstLoss = s.ck.firstLoss ∧ t.ck.latestLoss = s.ck.latestLoss ∧
      t.ck.lastRestore = restore.or s.ck.lastRestore ∧ t.ck.dst = s.ck.inForce ∧
      (t.ck.outbox.head?.map (·.body) = some (.POWER s.ck.latestLoss restore)) ∧
      (s.ck.isSet = false → t.ck.lastFired = s.ck.lastFired ∧ t.ck.outbox.length = 1)) ∧
  ∀ (e : StartEnv) (s : State), s.supply = false → s.ck.isSet = true → MatchLegal s.ck →
    let m := (s.ck.count + dstOffset s.ck.inForce) / 60
    let today := m / 1440
    ∃ (t : State) (late : Option Nat), exec (.warmStart e) s = .next t ∧
      (late = none → ∀ d, d ≤ today → today ≤ d + 8 → ¬DayMissed s.ck s.nowMin d) ∧
      (∀ d, late = some d → d ≤ today ∧ DayMissed s.ck s.nowMin d ∧
        ∀ d', d' ≤ today → DayMissed s.ck s.nowMin d' → d' ≤ d) ∧
      (let last := late.or s.ck.lastFired
       let fires := s.ck.minuteMatches m = true ∧ ∀ f ∈ last, f < today
       let power : Body := .POWER s.ck.latestLoss (some s.ck.count)
       let lateClose : List Body := late.toList.map fun _ => .DAY_CLOSE DayCounts.zero
       (fires → t.ck.lastFired = some today ∧
         t.ck.outbox.map (·.body) = power :: (lateClose ++ [.DAY_CLOSE DayCounts.zero])) ∧
       (¬fires → t.ck.lastFired = last ∧ t.ck.outbox.map (·.body) = power :: lateClose))

/-! ## Readouts -/

/-- The readouts of CK, DT, the bays, TS, DL and ST change nothing and are answered OK: the STATUS requests, CK
RULES, DT QUERY and LIST, a line of a bay, a segment, a section. Names that the manual does not give a field of a
readout are the model's (log 18), as are DL STATUS during the scan (log 20) and KEY read from the row's level (log
2). -/
def Obligations.ReadoutsChangeNothing : Prop :=
  ∀ (h : Hdr) (s : State), Ready h s →
    (∃ fs, exec (.ckStatus h (some ())) s = Answers h "CK" (ok fs) (underKey h s) ∧
      fld "SET" (yesNo s.ck.isSet) ∈ fs ∧ (s.ck.isSet = true → fld "STD" (timeText s.ck.count) ∈ fs) ∧
      fld "FIRSTLOSS" (timeOrNone s.ck.firstLoss) ∈ fs ∧ fld "OUTBOX" (dec s.ck.outbox.length) ∈ fs) ∧
    exec (.ckRules h (some ())) s =
      Answers h "CK" (ok [fld "FWD" (ruleText s.ck.fwd), fld "REV" (ruleText s.ck.rev)]) (underKey h s) ∧
    (∀ n x, n ≠ 0 → s.driverOf n = some x → s.ck.isSet = true →
      ∃ fs, exec (.dtQuery h (some n)) s = Answers h "DT" (ok fs) (underKey h s) ∧ fld "NOW" (twelve s.nowMin) ∈ fs ∧
        fld "ALLOW" (commas [dec (s.figures x.list).aDay, dec (s.figures x.list).aWeek, dec (s.figures x.list).aSpan,
          dec (s.figures x.list).aCont]) ∈ fs) ∧
    (∀ n p x, n ≠ 0 → planInRange p = true → s.driverOf n = some x → s.ck.isSet = true →
      ∃ fs, exec (.dtQueryPlan h (some ⟨n, p⟩)) s = Answers h "DT" (ok fs) (underKey h s) ∧
        fld "VERDICT" (verdictText (s.verdict x.list p).verdict) ∈ fs ∧
        fld "LEAST" (leastText (s.verdict x.list p).least (s.verdict x.list p).test) ∈ fs) ∧
    (∀ n i x, n ≠ 0 → 1 ≤ i → i ≤ 32 → s.driverOf n = some x →
      ∃ fs, exec (.dtList h (some ⟨n, i⟩)) s = Answers h "DT" (ok fs) (underKey h s) ∧
        fld "STATUS" (statusText x.status) ∈ fs ∧ fld "COUNT" (dec x.list.length) ∈ fs ∧
        fld "E" (commas (((x.list.drop (i - 1)).take 6).map entryItem)) ∈ fs) ∧
    (∀ b, ∃ fs, exec (.bStatus h b (some ())) s = Answers h (unitText (.B b)) (ok fs) (underKey h s) ∧
      fld "STATE" (bayStateText (s.bay b).state) ∈ fs ∧
      fld "HOLD" (commasOrNone (holdNames (s.bay b).holds)) ∈ fs ∧
      fld "RELEASE" (if (s.bay b).release then "ON" else "OFF") ∈ fs ∧ fld "STRAY" (dec (s.bay b).stray) ∈ fs) ∧
    (∀ b c l, 1 ≤ c → c ≤ 8 → (s.bay b).lineOf c = some l →
      exec (.bStatusLine h b (some c)) s = Answers h (unitText (.B b)) (ok (lineStatusFields l)) (underKey h s)) ∧
    (∃ fs, exec (.tsStatus h (some ())) s = Answers h "TS" (ok fs) (underKey h s) ∧
      fld "HEALTH" (if s.ts.fault then "FAULT" else "OK") ∈ fs ∧ fld "CLO" (dec s.ts.clo) ∈ fs ∧
      fld "CHI" (dec s.ts.chi) ∈ fs ∧ fld "DUE" (yesNo s.ts.due) ∈ fs) ∧
    (∃ fs, exec (.dlStatus h (some ())) s = Answers h "DL" (ok fs) (underKey h s) ∧
      fld "SCAN" (yesNo s.dl.scan) ∈ fs ∧ (s.dl.scan = false → fld "NEXTSEQ" (dec s.dl.nextSeq) ∈ fs)) ∧
    (∀ i : SegNo, s.dl.scan = false →
      ∃ fs, exec (.dlStatusSeg h (some (i.val + 1))) s = Answers h "DL" (ok fs) (underKey h s) ∧
        fld "STATE" (segStateText s.dl.segs[i].state) ∈ fs) ∧
    (∃ fs, exec (.stStatus h (some ())) s = Answers h "ST" (ok fs) (underKey h s) ∧
      fld "DEFAULTS" (yesNo s.st.defaults) ∈ fs ∧ fld "KEY" (if h.supv then "ON" else "OFF") ∈ fs) ∧
    (∀ x, x = .HOURS ∨ x = .TOLERANCE ∨ x = .CALENDAR ∨ x = .SAMPLER ∨ x = .LINK → ∀ staged : Bool,
      exec (.stShow h (some ⟨x, staged, .whole⟩)) s =
        Answers h "ST" (ok (bare (sectionText x) :: wholeFields (if staged then s.st.staging else s.st.applied) x))
          (underKey h s))

/-- DT STATUS and CP STATUS change nothing, whatever the key level, and count the records of their tables: each record
in one status or state, so that the parts sum to the whole. -/
def Obligations.TableStatusCountsRecords : Prop :=
  ∀ (h : Hdr) (s : State), Ready h s →
    (let n := fun p : DriverStatus → Bool => (s.dt.drivers.filter fun x => p x.status).length
     let absent := n fun x => x == .ABSENT
     let onSite := n fun x => x == .ON_SITE
     let atBay := n fun x => match x with
       | .AT_BAY _ => true
       | _ => false
     let onTrip := n fun x => x == .ON_TRIP
     absent + onSite + atBay + onTrip = s.dt.drivers.length ∧
     exec (.dtStatus h (some ())) s =
      Answers h "DT"
        (ok [fld "DRIVERS" (dec s.dt.drivers.length), fld "ABSENT" (dec absent), fld "ONSITE" (dec onSite),
          fld "ATBAY" (dec atBay), fld "ONTRIP" (dec onTrip), fld "OUTBOX" (dec s.dt.outbox.length),
          fld "TRIPS" (dec s.dt.trips), fld "LOGFULL" (dec s.dt.logfull)])
        (underKey h s)) ∧
    (let n := fun p : DocState → Bool => (s.cp.docs.filter fun x => p x.state).length
     let draft := n fun x => x == .DRAFT
     let bound := n fun x => match x with
       | .BOUND _ => true
       | _ => false
     let released := n fun x => x == .RELEASED
     let counts := [fld "DOCS" (dec s.cp.docs.length), fld "DRAFT" (dec draft), fld "BOUND" (dec bound),
       fld "RELEASED" (dec released), fld "FREE" (dec (64 - s.cp.docs.length))]
     draft + bound + released = s.cp.docs.length ∧
     (s.cp.staging = none → exec (.cpStatus h (some ())) s =
       Answers h "CP" (ok (fld "STAGING" "NONE" :: counts)) (underKey h s)) ∧
     ∀ g, s.cp.staging = some g → exec (.cpStatus h (some ())) s =
       Answers h "CP"
         (ok ([fld "STAGING" g.num, fld "GOT" (dec g.lines.length), fld "OF" (dec g.expected)] ++ counts)) (underKey h s))

/-! ## The duty table (03_duty_table.md, 04_hours_allowance.md) -/

/-- ENROL makes an ABSENT record with an empty list, REMOVE discards an ABSENT record. ARRIVE opens a WORK entry at now
and makes the driver ON_SITE, DEPART closes the open entry at now and makes him ABSENT, the list pruned. No other record
and no other unit changes. Each request is refused by its tests in their order: the number 0, for ARRIVE a clock unset,
a driver without a record, his status, for ARRIVE a list without room. -/
def Obligations.DriversAreEnrolledAndComeAndGo : Prop :=
  (∀ (h : Hdr) (s : State), Ready h s →
     let refused := Answers h "DT" (er .RANGE) (underKey h s)
     exec (.dtEnrol h (some 0)) s = refused ∧ exec (.dtRemove h (some 0)) s = refused ∧
       exec (.dtArrive h (some 0)) s = refused ∧ exec (.dtDepart h (some 0)) s = refused) ∧
  (∀ (h : Hdr) (n : Nat) (s : State), Ready h s → n ≠ 0 →
     (s.driverOf n = none → s.dt.drivers.length < 96 →
       ∃ t : State, exec (.dtEnrol h (some n)) s =
           Answers h "DT" (ok [drvFld n, fld "FREE" (dec (96 - (s.dt.drivers.length + 1)))]) t ∧
         t.driverOf n = some ⟨n, .ABSENT, [], none, none, false⟩ ∧ (∀ m, m ≠ n → t.driverOf m = s.driverOf m) ∧
         t.dt = { s.dt with drivers := t.dt.drivers } ∧ t.dt.drivers.length = s.dt.drivers.length + 1 ∧
         t.dv = s.dv ∧ t.ck = s.ck ∧ t.cp = s.cp ∧ t.bays = s.bays ∧ t.ts = s.ts ∧ t.dl = s.dl ∧ t.st = s.st) ∧
     ((s.driverOf n).isSome = true → exec (.dtEnrol h (some n)) s = Answers h "DT" (er .EXISTS) (underKey h s)) ∧
     (s.driverOf n = none → 96 ≤ s.dt.drivers.length →
       exec (.dtEnrol h (some n)) s = Answers h "DT" (er .TABLE_FULL) (underKey h s)) ∧
     (s.driverOf n = none →
       exec (.dtRemove h (some n)) s = Answers h "DT" (er .NOT_FOUND) (underKey h s) ∧
       exec (.dtDepart h (some n)) s = Answers h "DT" (er .NOT_FOUND) (underKey h s) ∧
       (s.ck.isSet = true → exec (.dtArrive h (some n)) s = Answers h "DT" (er .NOT_FOUND) (underKey h s))) ∧
     (s.ck.isSet = false → exec (.dtArrive h (some n)) s = Answers h "DT" (er .CLOCK_UNSET) (underKey h s)) ∧
     ∀ x, s.driverOf n = some x →
       (x.status ≠ .ABSENT → exec (.dtRemove h (some n)) s = Answers h "DT" (er .STATE) (underKey h s)) ∧
       (x.status = .ABSENT →
         ∃ t : State, exec (.dtRemove h (some n)) s =
             Answers h "DT" (ok [drvFld n, fld "FREE" (dec (96 - t.dt.drivers.length))]) t ∧
           t.driverOf n = none ∧ (∀ m, m ≠ n → t.driverOf m = s.driverOf m) ∧
           t.dt = { s.dt with drivers := t.dt.drivers } ∧ t.dv = s.dv ∧ t.ck = s.ck ∧ t.cp = s.cp ∧ t.bays = s.bays ∧
           t.ts = s.ts ∧ t.dl = s.dl ∧ t.st = s.st)) ∧
  ∀ (h : Hdr) (n : Nat) (x : Driver) (s : State), Ready h s → n ≠ 0 → s.driverOf n = some x →
    (s.ck.isSet = true →
      (x.status = .ON_TRIP → exec (.dtArrive h (some n)) s = Answers h "DT" (er .TRIP_OPEN) (underKey h s)) ∧
      (x.status = .ON_SITE ∨ (∃ b, x.status = .AT_BAY b) →
        exec (.dtArrive h (some n)) s = Answers h "DT" (er .STATE) (underKey h s)) ∧
      (x.status = .ABSENT →
        let l := s.pruned (x.list ++ [⟨s.nowMin, none, .WORK, .TERMINAL⟩])
        (32 < l.length → exec (.dtArrive h (some n)) s = Answers h "DT" (er .LIST_FULL) (underKey h s)) ∧
        (l.length ≤ 32 →
          ∃ t : State, exec (.dtArrive h (some n)) s =
              Answers h "DT" (ok [drvFld n, fld "STATUS" "ON_SITE", fld "START" (minuteText s.nowMin),
                fld "ENTRIES" (dec l.length), fld "PRUNED" (dec (x.list.length + 1 - l.length))]) t ∧
            t.driverOf n = some { x with status := .ON_SITE, list := l } ∧ (∀ m, m ≠ n → t.driverOf m = s.driverOf m) ∧
            t.dt = { s.dt with drivers := t.dt.drivers } ∧ t.dv = s.dv ∧ t.ck = s.ck ∧ t.cp = s.cp ∧ t.bays = s.bays ∧
            t.ts = s.ts ∧ t.dl = s.dl ∧ t.st = s.st))) ∧
    (x.status = .ON_TRIP → exec (.dtDepart h (some n)) s = Answers h "DT" (er .TRIP_OPEN) (underKey h s)) ∧
    (x.status = .ABSENT ∨ (∃ b, x.status = .AT_BAY b) →
      exec (.dtDepart h (some n)) s = Answers h "DT" (er .STATE) (underKey h s)) ∧
    (x.status = .ON_SITE →
      let closed := closeOpen s.nowMin x.list
      let l := s.pruned closed
      ∃ t : State, exec (.dtDepart h (some n)) s =
          Answers h "DT" (ok [drvFld n, fld "STATUS" "ABSENT", fld "END" (minuteText s.nowMin),
            fld "ENTRIES" (dec l.length), fld "PRUNED" (dec (closed.length - l.length))]) t ∧
        t.driverOf n = some { x with status := .ABSENT, list := l } ∧
        (∀ m, m ≠ n → t.driverOf m = s.driverOf m) ∧
        t.dt = { s.dt with drivers := t.dt.drivers } ∧ t.dv = s.dv ∧ t.ck = s.ck ∧ t.cp = s.cp ∧ t.bays = s.bays ∧
        t.ts = s.ts ∧ t.dl = s.dl ∧ t.st = s.st)

/-- A taken IMPORT puts its closed entry at its place in start order and prunes the list; the tests that refuse it are
made in their order. -/
def Obligations.ImportInsertsAnEntry : Prop :=
  ∀ (h : Hdr) (a : ImportArgs) (s : State), Ready h s →
    (importEntry a = none → exec (.dtImport h (some a)) s = Answers h "DT" (er .RANGE) (underKey h s)) ∧
    ∀ e, importEntry a = some e →
      (s.ck.isSet = false → exec (.dtImport h (some a)) s = Answers h "DT" (er .CLOCK_UNSET) (underKey h s)) ∧
      (s.ck.isSet = true → s.driverOf a.drv = none →
        exec (.dtImport h (some a)) s = Answers h "DT" (er .NOT_FOUND) (underKey h s)) ∧
      (s.ck.isSet = true → ∀ x, s.driverOf a.drv = some x →
        let l := s.pruned (insertEntry e x.list)
        (s.nowMin < e.till s.nowMin → exec (.dtImport h (some a)) s = Answers h "DT" (er .FUTURE_TIME) (underKey h s)) ∧
        (e.till s.nowMin ≤ s.nowMin →
          (x.pend = true → exec (.dtImport h (some a)) s = Answers h "DT" (er .BUSY) (underKey h s)) ∧
          (x.pend = false →
            ((∃ y ∈ x.list, overlaps s.nowMin e y = true) →
              exec (.dtImport h (some a)) s = Answers h "DT" (er .OVERLAP) (underKey h s)) ∧
            ((∀ y ∈ x.list, overlaps s.nowMin e y = false) →
              (32 < l.length → exec (.dtImport h (some a)) s = Answers h "DT" (er .LIST_FULL) (underKey h s)) ∧
              (l.length ≤ 32 →
                ∃ t : State, ∃ fs, exec (.dtImport h (some a)) s = Answers h "DT" (ok fs) t ∧
                  fld "KEPT" (if e ∈ l then "YES" else "NO") ∈ fs ∧
                  t.driverOf a.drv = some { x with list := l } ∧ (∀ m, m ≠ a.drv → t.driverOf m = s.driverOf m) ∧
                  t.dt = { s.dt with drivers := t.dt.drivers } ∧ t.dv = s.dv ∧ t.ck = s.ck ∧ t.cp = s.cp ∧
                  t.bays = s.bays ∧ t.ts = s.ts ∧ t.dl = s.dl ∧ t.st = s.st)))))

/-- A taken CLOSETRIP lays the reported trip into the list in place of the open entry, makes the driver ABSENT without a
trip document, logs a TRIP_CLOSE record with the segments as given, removes the document and raises TRIP. The tests that
refuse it are made in their order. That an END before 2000-01-01 is a time before the departure, refused with
BEFORE_DEPARTURE, is the model's reading (log 25). -/
def Obligations.ClosetripClosesTheTrip : Prop :=
  ∀ (h : Hdr) (a : ClosetripArgs) (s : State), Ready h s →
    (a.drv = 0 ∨ dateValid a.stop = false ∨ tripItems a.segs = none →
      exec (.dtClosetrip h (some a)) s = Answers h "DT" (er .RANGE) (underKey h s)) ∧
    ∀ items, a.drv ≠ 0 → dateValid a.stop = true → tripItems a.segs = some items →
    (s.ck.isSet = false → exec (.dtClosetrip h (some a)) s = Answers h "DT" (er .CLOCK_UNSET) (underKey h s)) ∧
    (s.ck.isSet = true → s.driverOf a.drv = none →
      exec (.dtClosetrip h (some a)) s = Answers h "DT" (er .NOT_FOUND) (underKey h s)) ∧
    ∀ (x : Driver) (dep : Nat), s.ck.isSet = true → s.driverOf a.drv = some x →
    (x.status ≠ .ON_TRIP → exec (.dtClosetrip h (some a)) s = Answers h "DT" (er .STATE) (underKey h s)) ∧
    (x.status = .ON_TRIP →
      ((s.nowMin : Int) < dateMinutes a.stop →
        exec (.dtClosetrip h (some a)) s = Answers h "DT" (er .FUTURE_TIME) (underKey h s)) ∧
      (dateMinutes a.stop ≤ s.nowMin → departureOf x.list = some dep →
        (dateMinutes a.stop < dep →
          exec (.dtClosetrip h (some a)) s = Answers h "DT" (er .BEFORE_DEPARTURE) (underKey h s)) ∧
        ((dep : Int) ≤ dateMinutes a.stop →
          (4 ≤ s.dt.outbox.length → exec (.dtClosetrip h (some a)) s = Answers h "DT" (er .BUSY) (underKey h s)) ∧
          (s.dt.outbox.length < 4 →
            let stop := (dateMinutes a.stop).toNat
            let doc := x.trip.getD ""
            let l := s.pruned (closeTrip stop items x.list)
            (32 < l.length → exec (.dtClosetrip h (some a)) s = Answers h "DT" (er .LIST_FULL) (underKey h s)) ∧
            (l.length ≤ 32 →
              ∃ t : State, ∃ fs, exec (.dtClosetrip h (some a)) s = Answers h "DT" (ok fs) t ∧
                fld "DOC" doc ∈ fs ∧ fld "LAID" (dec (layTrip stop dep items).length) ∈ fs ∧
                t.driverOf a.drv = some { x with list := l, status := .ABSENT, trip := none } ∧
                (∀ m, m ≠ a.drv → t.driverOf m = s.driverOf m) ∧
                t.dt.outbox = s.dt.outbox ++ [s.makeRec (.TRIP_CLOSE ⟨a.drv, doc, dep, stop, items⟩)] ∧
                t.dt.trips = min 65535 (s.dt.trips + 1) ∧ t.dt.lastTrip = some ⟨a.drv, doc, dep, stop⟩ ∧
                t.cp = { s.cp with docs := s.cp.docs.filter fun y => y.num != doc } ∧
                t.dv.notices = putNotice ⟨.DT, .TRIP, tripFields t.dt⟩ s.dv.notices ∧
                LinkKept s t ∧ Posted .DT s t ∧
                t.ck = s.ck ∧ t.bays = s.bays ∧ t.ts = s.ts ∧ t.st = s.st)))))

/-- The entries laid for a trip follow one another from the departure to END without a gap, none empty, at most one more
than the segments; none when END is the departure. Each segment gives an entry of its kind where the segments before it
end, for its minutes, cut at END; a segment that would begin at END or later gives none; and a WORK entry fills what the
segments leave. The off-duty runs of a list are the maximal stretches without DRIVE and WORK between its first start and
now; the duty day starts at the end of the latest run of R_daily, else at the first entry, else now; the continuous
drive starts at the end of the latest run of B_min, else with the duty day; and pruning removes the closed entries that
end before the horizon, which is the earlier of the week start and the start of the latest run of R_daily. -/
def Obligations.TripLayoutRunsAndPruning : Prop :=
  (∀ (stop dep : Nat) (items : List TripItem), (∀ i ∈ items, 1 ≤ i.minutes) → dep ≤ stop →
    let l := layTrip stop dep items
    (dep = stop → l = []) ∧
    (dep < stop → (l.head?.map (·.start)) = some dep ∧ (l.getLast?.map (·.stop)) = some (some stop)) ∧
    (∀ i a b, l[i]? = some a → l[i + 1]? = some b → a.stop = some b.start) ∧
    (∀ e ∈ l, e.source = .TRIP ∧ ∃ t, e.stop = some t ∧ e.start < t) ∧ l.length ≤ items.length + 1 ∧
    (∀ (i : Nat) (it : TripItem), items[i]? = some it →
      let pos := dep + ((items.take i).map (·.minutes)).sum
      l[i]? = if pos < stop then some ⟨pos, some (min (pos + it.minutes) stop), it.kind, .TRIP⟩ else none) ∧
    (let pos := dep + (items.map (·.minutes)).sum
     l[items.length]? = if pos < stop then some ⟨pos, some stop, .WORK, .TRIP⟩ else none)) ∧
  (∀ (now : Nat) (x : Entry) (xs : List Entry) (r : Run), DutyOrdered now (x :: xs) →
    (r ∈ offRuns now (x :: xs) ↔
      r.start < r.stop ∧ x.start ≤ r.start ∧ r.stop ≤ now ∧
        (∀ m, r.start ≤ m → m < r.stop → ¬OnDuty now (x :: xs) m) ∧
        (r.start = x.start ∨ OnDuty now (x :: xs) (r.start - 1)) ∧ (r.stop = now ∨ OnDuty now (x :: xs) r.stop))) ∧
  ∀ (p : HoursParams) (week now : Nat) (l : List Entry), DutyOrdered now l →
    let runs := offRuns now l
    let latest : Nat → Run → Prop := fun n r =>
      r ∈ runs ∧ n ≤ r.stop - r.start ∧ ∀ q ∈ runs, n ≤ q.stop - q.start → q.stop ≤ r.stop
    let none' : Nat → Prop := fun n => ∀ r ∈ runs, r.stop - r.start < n
    let kept : Nat → List Entry := fun h => l.filter fun e => e.stop.all fun t => decide (h ≤ t)
    (∀ r, latest p.rDaily r → dutyDayStart p now l = r.stop ∧ prune p week now l = kept (min week r.start)) ∧
    (none' p.rDaily → dutyDayStart p now l = (l.head?.map (·.start)).getD now ∧ prune p week now l = kept week) ∧
    (∀ r, latest p.bMin r → contDriveStart p now l = r.stop) ∧
    (none' p.bMin → contDriveStart p now l = dutyDayStart p now l)

/-- The figures are the minutes of DRIVE since the duty-day start, the week start and the continuous-drive start, and
the minutes since the duty-day start, over the list as pruning would leave it; an allowance is what a figure leaves of
its limit, floored at 0. A verdict's slacks are what the plan leaves of the allowances, the least slack is the smallest,
the named test the first that gives it, the marks the tests that fail, and the verdict follows from the least slack and
the margin. -/
def Obligations.AllowancesAndTheVerdict : Prop :=
  (∀ (p : HoursParams) (week now : Nat) (stored : List Entry),
    let f := hoursFigures p week now stored
    let l := prune p week now stored
    let driving : Nat → Nat := fun bound =>
      ((l.filter fun e => e.kind == .DRIVE).map fun e => e.stop.getD now - max e.start bound).sum
    f.dayStart = dutyDayStart p now l ∧ f.contStart = contDriveStart p now l ∧
    f.dayDrive = driving f.dayStart ∧ f.weekDrive = driving week ∧ f.contDrive = driving f.contStart ∧
    f.span = now - f.dayStart ∧
    (f.aDay : Int) = max 0 ((p.dDay : Int) - f.dayDrive) ∧ (f.aWeek : Int) = max 0 ((p.dWeek : Int) - f.weekDrive) ∧
    (f.aSpan : Int) = max 0 ((p.sSpan : Int) - f.span) ∧ (f.aCont : Int) = max 0 ((p.dCont : Int) - f.contDrive)) ∧
  ∀ (p : HoursParams) (f : HoursFigures) (plan : Plan) (now : Nat),
    let v := verdictOf p f plan now
    let slack : HoursTest → Int := fun x => match x with
      | .DAY => v.slackDay
      | .WEEK => v.slackWeek
      | .SPAN => v.slackSpan
      | .CONT => v.slackCont
    v.capacity = f.aCont + plan.breaks * p.dCont ∧
    v.slackDay = f.aDay - plan.drive ∧ v.slackWeek = f.aWeek - plan.drive ∧ v.slackSpan = f.aSpan - plan.total ∧
    v.slackCont = v.capacity - plan.drive ∧
    (∀ x, v.least ≤ slack x) ∧ slack v.test = v.least ∧
    (∀ x, slack x = v.least → v.test = .DAY ∨ (v.test = .WEEK ∧ x ≠ .DAY) ∨ (v.test = .SPAN ∧ x ≠ .DAY ∧ x ≠ .WEEK) ∨
      x = .CONT) ∧
    v.marks = [HoursTest.DAY, .WEEK, .SPAN, .CONT].filter (fun x => decide (slack x < 0)) ∧
    (v.verdict = .LIMIT ↔ v.least < 0) ∧ (v.verdict = .TIGHT ↔ 0 ≤ v.least ∧ v.least < p.margin) ∧
    (v.verdict = .CLEAR ↔ 0 ≤ v.least ∧ (p.margin : Int) ≤ v.least)

/-! ## The consignment papers (05_consignment_papers.md) -/

/-- OPEN begins a staging with its header and no lines, after discarding one in progress with reason REOPENED; LINE adds
a line, or is refused with SEQUENCE when nothing is staged or when the staging is full, which it then discards. -/
def Obligations.OpenAndLineStageADocument : Prop :=
  ∀ (h : Hdr) (s : State), Ready h s →
    (∀ a : OpenArgs, 1 ≤ a.lines → a.lines ≤ 8 → a.driver ≠ some 0 →
      ∃ t : State, exec (.cpOpen h (some a)) s =
          Answers h "CP" (ok [fld "DOC" a.doc, fld "LINES" (dec a.lines)]) t ∧
        t.cp = { s.cp with staging := some ⟨a.doc, a.lines, a.tanker, a.carrier, a.driver, a.plan, []⟩ } ∧
        t.dv.notices = (match s.cp.staging with
          | none => s.dv.notices
          | some g => putNotice ⟨.CP, .STAGING, stagingFields "REOPENED" g⟩ s.dv.notices) ∧ LinkKept s t ∧
        t.ck = s.ck ∧ t.dt = s.dt ∧ t.bays = s.bays ∧ t.ts = s.ts ∧ t.dl = s.dl ∧ t.st = s.st) ∧
    (∀ a : OpenArgs, ¬(1 ≤ a.lines ∧ a.lines ≤ 8) ∨ a.driver = some 0 →
      exec (.cpOpen h (some a)) s = Answers h "CP" (er .RANGE) (underKey h s)) ∧
    ∀ a : LineArgs,
      (lineInRange a = none → exec (.cpLine h (some a)) s = Answers h "CP" (er .RANGE) (underKey h s)) ∧
      ∀ l, lineInRange a = some l →
        (s.cp.staging = none → exec (.cpLine h (some a)) s = Answers h "CP" (er .SEQUENCE) (underKey h s)) ∧
        ∀ g, s.cp.staging = some g →
          (g.lines.length < g.expected →
            exec (.cpLine h (some a)) s =
              Answers h "CP" (ok [fld "LINE" (dec (g.lines.length + 1)), fld "OF" (dec g.expected)])
                ((underKey h s).modCp fun c => { c with staging := some { g with lines := g.lines ++ [l] } })) ∧
          (g.expected ≤ g.lines.length →
            exec (.cpLine h (some a)) s =
              Answers h "CP" (er .SEQUENCE)
                (raise .CP .STAGING (stagingFields "SEQUENCE" g)
                  ((underKey h s).modCp fun c => { c with staging := none })))

/-- CONFIRM empties the staging whatever the outcome; a complete staging that passes every test of the validation enters
the table's tail as a DRAFT with no amendment, one that fails a test is refused with that test's code and field. The
eight tests are made in their order, those over lines name the first line that fails, and the segregation test takes the
pairs by the first line and then by the second: ALLOW passes, APART passes unless the compartments are neighbours, NEVER
fails. The bare word PLAN is the model's reading (log 17). -/
def Obligations.ConfirmEntersADraft : Prop :=
  (∀ (c : Settings) (ls : List DocLine),
    (firstFailingPair c ls = none ↔ ls.Pairwise (PairAllowed c)) ∧
    ∀ i j, FirstBadPair c ls i j → firstFailingPair c ls = some (i.comp, j.comp)) ∧
  (∀ (s : State) (g : Staging),
    let c := s.st.applied
    let v := validation s g
    let p := g.plan
    let field : DocLine → List Fld := fun l => [fld "C" (dec l.comp)]
    let known : DocLine → Prop := fun l => ∃ y ∈ c.products, y.code = l.product
    let alike : DocLine → Prop := fun l =>
      ∀ y, c.products.find? (fun y => y.code == l.product) = some y → l.un = y.un ∧ l.cls = y.cls ∧ l.pg = y.pg
    ((∃ x ∈ s.cp.docs, x.num = g.num) → v = some (.EXISTS, [fld "DOC" g.num])) ∧
    ((∀ x ∈ s.cp.docs, x.num ≠ g.num) →
      (64 ≤ s.cp.docs.length → v = some (.TABLE_FULL, [])) ∧
      (s.cp.docs.length < 64 →
        (¬(1 ≤ p.drive ∧ p.drive ≤ 720 ∧ p.drive ≤ p.total ∧ p.total ≤ 1440 ∧ p.breaks ≤ 4) →
          v = some (.RANGE, [bare "PLAN"])) ∧
        (1 ≤ p.drive ∧ p.drive ≤ 720 ∧ p.drive ≤ p.total ∧ p.total ≤ 1440 ∧ p.breaks ≤ 4 →
          (∀ pre l post, g.lines = pre ++ l :: post → (pre.map (·.comp)).Nodup → (∃ m ∈ pre, m.comp = l.comp) →
            v = some (.LINE_CONFLICT, field l)) ∧
          ((g.lines.map (·.comp)).Nodup →
            (∀ pre l post, g.lines = pre ++ l :: post → (∀ m ∈ pre, m.qty ≤ m.cap) → l.cap < l.qty →
              v = some (.RANGE, field l)) ∧
            ((∀ l ∈ g.lines, l.qty ≤ l.cap) →
              (∀ pre l post, g.lines = pre ++ l :: post → (∀ m ∈ pre, known m) → ¬known l →
                v = some (.NOT_FOUND, field l)) ∧
              ((∀ l ∈ g.lines, known l) →
                (∀ pre l post, g.lines = pre ++ l :: post → (∀ m ∈ pre, alike m) → ¬alike l →
                  v = some (.PRODUCT_MISMATCH, field l)) ∧
                ((∀ l ∈ g.lines, alike l) →
                  (∀ i j, FirstBadPair c g.lines i j →
                    v = some (.SEGREGATION, [fld "C" (dec i.comp ++ "," ++ dec j.comp)])) ∧
                  (g.lines.Pairwise (PairAllowed c) → v = none))))))))) ∧
  ∀ (h : Hdr) (s : State), Ready h s →
    (s.cp.staging = none → exec (.cpConfirm h (some ())) s = Answers h "CP" (er .SEQUENCE) (underKey h s)) ∧
    ∀ g, s.cp.staging = some g →
      let t := (underKey h s).modCp fun c => { c with staging := none }
      (g.lines.length < g.expected →
        exec (.cpConfirm h (some ())) s =
          Answers h "CP" (er .SEQUENCE) (raise .CP .STAGING (stagingFields "SEQUENCE" g) t)) ∧
      (g.expected ≤ g.lines.length →
        (∀ code fs, validation s g = some (code, fs) →
          exec (.cpConfirm h (some ())) s = Answers h "CP" (er code fs) t) ∧
        (validation s g = none →
          exec (.cpConfirm h (some ())) s =
            Answers h "CP"
              (ok [fld "DOC" g.num, fld "STATE" "DRAFT", fld "FREE" (dec (64 - (s.cp.docs.length + 1)))])
              (t.modCp fun c => { c with docs := c.docs ++
                [⟨g.num, .DRAFT, g.tanker, g.carrier, g.driver, g.plan, g.lines, 0, []⟩] })))

/-- The readouts of CP, and VOID, first discard a staging in progress with reason INTERRUPTED, whatever becomes of them;
ABORT discards it with reason ABORTED. The readouts change nothing else, VOID removes a DRAFT and nothing else. The bare
word DOC of a refused SHOW is the model's reading (log 17). -/
def Obligations.PapersReadVoidAndAbort : Prop :=
  ∀ (h : Hdr) (s : State), Ready h s →
    let u := stagingDiscarded "INTERRUPTED" h s
    exec (.cpAbort h (some ())) s =
      Answers h "CP" (ok [fld "DISCARDED" ((s.cp.staging.map (·.num)).getD "NONE")]) (stagingDiscarded "ABORTED" h s) ∧
    (∀ i, 1 ≤ i → i ≤ 64 →
      exec (.cpList h (some i)) s =
        Answers h "CP" (ok [fld "COUNT" (dec s.cp.docs.length), fld "FROM" (dec i),
          fld "E" (commas (((s.cp.docs.drop (i - 1)).take 6).map docItem)),
          if i + 6 ≤ s.cp.docs.length then fld "MORE" (dec (i + 6)) else bare "END"]) u) ∧
    (∀ d, s.docOf d = none →
      exec (.cpShow h (some d)) s = Answers h "CP" (er .NOT_FOUND [bare "DOC"]) u ∧
      exec (.cpVoid h (some d)) s = Answers h "CP" (er .NOT_FOUND) u) ∧
    ∀ d x, s.docOf d = some x →
      exec (.cpShow h (some d)) s = Answers h "CP" (ok (headerFields x)) u ∧
      (∀ c l, 1 ≤ c → c ≤ 8 → x.lineOf c = some l →
        exec (.cpShowLine h (some ⟨d, c⟩)) s =
          Answers h "CP" (ok (docLineFields l (x.lines.findIdx (fun m => m.comp == c) + 1))) u) ∧
      (x.state ≠ .DRAFT → exec (.cpVoid h (some d)) s = Answers h "CP" (er .STATE) u) ∧
      (x.state = .DRAFT →
        ∃ t : State, exec (.cpVoid h (some d)) s =
            Answers h "CP" (ok [fld "DOC" d, fld "FREE" (dec (64 - t.cp.docs.length))]) t ∧
          t.cp = { u.cp with docs := s.cp.docs.filter fun y => y.num != d } ∧ t.dv = u.dv ∧ t.ck = s.ck ∧
          t.dt = s.dt ∧ t.bays = s.bays ∧ t.ts = s.ts ∧ t.dl = s.dl ∧ t.st = s.st)

/-- An amendment first discards a staging in progress with reason INTERRUPTED, whatever becomes of it, and its tests are
made in their order, each refusing with its code and nothing else changed: ranges, document, its state, its bay, the
line, the line's state at the bay, the last line, the stack, and what the line would become. A taken one changes one
line of its document, stacks the prior line, adds 1 to the amendment count, and reaches the bay: a quantity replaces the
declared quantity, and the bay re-reconciles a line that is OVER or UNDER, sets or clears QUANTITY to match, leaves or
enters HELD by the reasons that stand and raises LINES, while an OPEN line stays; a product replaces the product with
its identity; a removal takes the line out of the document and of the bay. The bare words DOC, C and PROD of a refusal
are the model's reading (log 17). -/
def Obligations.AmendmentsAreStacked : Prop :=
  ∀ (h : Hdr) (d : String) (c q : Nat) (p : String) (s : State), Ready h s →
    let u := stagingDiscarded "INTERRUPTED" h s
    let qty := exec (.cpAmendQty h (some ⟨d, c, q⟩)) s
    let prod := exec (.cpAmendProd h (some ⟨d, c, p⟩)) s
    let removal := exec (.cpAmendRemove h (some ⟨d, c⟩)) s
    let refused := fun a => Answers h "CP" a u
    let volume := 1 ≤ q ∧ q ≤ 20000
    let all : Answer → Prop := fun a => (volume → qty = refused a) ∧ prod = refused a ∧ removal = refused a
    (¬(1 ≤ c ∧ c ≤ 8) → qty = refused (er .RANGE) ∧ prod = refused (er .RANGE) ∧ removal = refused (er .RANGE)) ∧
    (¬volume → qty = refused (er .RANGE)) ∧
    (1 ≤ c → c ≤ 8 →
      (s.docOf d = none → all (er .NOT_FOUND [bare "DOC"])) ∧
      ∀ x, s.docOf d = some x →
        ((∀ b, x.state ≠ .BOUND b) → all (er .STATE)) ∧
        ∀ b, x.state = .BOUND b →
          ((s.bay b).state = .DISPATCHING → all (er .BUSY)) ∧
          ((s.bay b).state ≠ .DISPATCHING →
            (x.lineOf c = none → all (er .NOT_FOUND [bare "C"])) ∧
            ∀ l, x.lineOf c = some l →
              let st := ((s.bay b).lineOf c).map (·.state)
              let isOpen := st = some .OPEN
              let put := fun m : DocLine => x.lines.map fun y => if y.comp == c then m else y
              let taken : Host.Outcome State Fault Refusal → AmendKind → List DocLine → (State → Prop) → Prop :=
                fun out k ls bay => ∃ t : State,
                  out = Answers h "CP" (amendAnswer d c k (x.stack.length + 1) (min 65535 (x.count + 1))
                    (match k with
                      | .REMOVE _ => none
                      | _ => (t.bay b).lineOf c)) t ∧
                  t.docOf d = some { x with
                    lines := ls, count := min 65535 (x.count + 1), stack := x.stack ++ [⟨k, l⟩] } ∧
                  (∀ e, e ≠ d → t.docOf e = s.docOf e) ∧ t.cp.staging = none ∧ (∀ b', b' ≠ b → t.bay b' = s.bay b') ∧
                  LinkKept u t ∧ t.ck = s.ck ∧ t.dt = s.dt ∧ t.ts = s.ts ∧ t.dl = s.dl ∧ t.st = s.st ∧ bay t
              (¬QuantityOpen st → volume → qty = refused (er .LINE_STATE)) ∧
              (¬isOpen → prod = refused (er .LINE_STATE) ∧ removal = refused (er .LINE_STATE)) ∧
              (isOpen → x.lines.length = 1 → removal = refused (er .LAST_LINE)) ∧
              (4 ≤ x.stack.length →
                (QuantityOpen st → volume → qty = refused (er .STACK_FULL)) ∧
                (isOpen → prod = refused (er .STACK_FULL)) ∧
                (isOpen → x.lines.length ≠ 1 → removal = refused (er .STACK_FULL))) ∧
              (x.stack.length < 4 →
                (QuantityOpen st → volume →
                  (l.cap < q → qty = refused (er .RANGE)) ∧
                  (q ≤ l.cap → taken qty .QTY (put { l with qty := q }) fun t =>
                    (isOpen → t.bays = s.bays ∧ t.dv = u.dv) ∧
                    (¬isOpen → (s.bay b).doc = some d → Requantified b c q s t))) ∧
                (isOpen →
                  (s.st.applied.products.find? (fun y => y.code == p) = none →
                    prod = refused (er .NOT_FOUND [bare "PROD"])) ∧
                  ∀ y, s.st.applied.products.find? (fun y => y.code == p) = some y →
                    let ls := put { l with product := p, un := y.un, cls := y.cls, pg := y.pg }
                    (∀ i j, firstFailingPair s.st.applied ls = some (i, j) →
                      prod = refused (er .SEGREGATION [fld "C" (dec i ++ "," ++ dec j)])) ∧
                    (firstFailingPair s.st.applied ls = none →
                      taken prod .PROD ls fun t => t.bays = s.bays ∧ t.dv = u.dv)) ∧
                (isOpen → x.lines.length ≠ 1 →
                  taken removal (.REMOVE (x.lines.findIdx fun m => m.comp == c)) (x.lines.filter fun m => m.comp != c)
                    (Relined b ((s.bay b).lines.filter fun r => r.comp != c) s)))))

/-- A withdrawal first discards a staging in progress with reason INTERRUPTED, whatever becomes of it, and its tests are
made in their order, each refusing with its code and nothing else changed: document, its state, its bay, an empty stack,
the line's state at the bay, the product table, and a pair of lines which fails the segregation test, with the two
compartments of the first such pair. A taken one puts back the line the newest amendment stacked, takes its entry off
the stack and 1 off the amendment count, and reaches the bay: for a quantity the bay re-reconciles a line that is OVER
or UNDER against the restored quantity, for a removal it makes an OPEN line record at the restored position, and an OPEN
line stays. -/
def Obligations.WithdrawTakesTheNewestBack : Prop :=
  ∀ (h : Hdr) (d : String) (s : State), Ready h s →
    let u := stagingDiscarded "INTERRUPTED" h s
    let out := exec (.cpWithdraw h (some d)) s
    let refused := fun a => Answers h "CP" a u
    (s.docOf d = none → out = refused (er .NOT_FOUND)) ∧
    ∀ x, s.docOf d = some x →
      ((∀ b, x.state ≠ .BOUND b) → out = refused (er .STATE)) ∧
      ∀ b, x.state = .BOUND b →
        ((s.bay b).state = .DISPATCHING → out = refused (er .BUSY)) ∧
        ((s.bay b).state ≠ .DISPATCHING →
          (x.stack = [] → out = refused (er .STACK_EMPTY)) ∧
          ∀ older e, x.stack = older ++ [e] →
            let c := e.line.comp
            let st := ((s.bay b).lineOf c).map (·.state)
            let permitted : Prop := match e.kind with
              | .QTY => QuantityOpen st
              | .PROD => st = some .OPEN
              | .REMOVE _ => True
            (¬permitted → out = refused (er .LINE_STATE)) ∧
            (permitted →
              let known := s.st.applied.products.find? fun y => y.code == e.line.product
              let ls := restoredLines e x.lines
              (known = none → out = refused (er .NOT_FOUND)) ∧
              ∀ y, known = some y →
                (¬(e.line.un = y.un ∧ e.line.cls = y.cls ∧ e.line.pg = y.pg) → out = refused (er .PRODUCT_MISMATCH)) ∧
                (e.line.un = y.un → e.line.cls = y.cls → e.line.pg = y.pg →
                  (∀ i j, firstFailingPair s.st.applied ls = some (i, j) →
                    out = refused (er .SEGREGATION [fld "C" (dec i ++ "," ++ dec j)])) ∧
                  (firstFailingPair s.st.applied ls = none →
                    ∃ t : State,
                      out = Answers h "CP" (amendAnswer d c e.kind older.length (x.count - 1) ((t.bay b).lineOf c)) t ∧
                      t.docOf d = some { x with lines := ls, count := x.count - 1, stack := older } ∧
                      (∀ d', d' ≠ d → t.docOf d' = s.docOf d') ∧ t.cp.staging = none ∧
                      (∀ b', b' ≠ b → t.bay b' = s.bay b') ∧ LinkKept u t ∧
                      t.ck = s.ck ∧ t.dt = s.dt ∧ t.ts = s.ts ∧ t.dl = s.dl ∧ t.st = s.st ∧
                      (e.kind = .QTY → st ≠ some .OPEN → (s.bay b).doc = some d → x.lineOf c ≠ none →
                        Requantified b c e.line.qty s t) ∧
                      (e.kind = .QTY → st = some .OPEN → t.bays = s.bays ∧ t.dv = u.dv) ∧
                      (e.kind = .PROD → t.bays = s.bays ∧ t.dv = u.dv) ∧
                      ∀ pos, e.kind = .REMOVE pos →
                        Relined b ((s.bay b).lines.insertIdx pos (openLine c)) s t))))

/-- Withdrawing an amendment of any kind gives back the lines as they stood before it, when no two lines of the document
name one compartment. -/
def Obligations.WithdrawalUndoesTheAmendment : Prop :=
  ∀ (ls : List DocLine) (l : DocLine) (new : DocLine), (ls.map (·.comp)).Nodup → l ∈ ls → new.comp = l.comp →
    restoredLines ⟨.QTY, l⟩ (replaceLine new ls) = ls ∧ restoredLines ⟨.PROD, l⟩ (replaceLine new ls) = ls ∧
    restoredLines ⟨.REMOVE (ls.findIdx fun m => m.comp == l.comp), l⟩ (ls.filter fun m => m.comp != l.comp) = ls

/-! ## The bays (06_loading_bays.md) -/

/-- ASSIGN binds a DRAFT document and an ON_SITE driver to an IDLE bay: the bay stores both, the plan and the verdict,
makes one OPEN line for each document line and clears its stray count, and is HELD with HOURS after a LIMIT verdict and
ASSIGNED otherwise, and tells it by STATE, LINES, and HOLD where HOURS holds it. The tests that refuse it are made in
their order, and a driver that DT refuses leaves the document unbound. -/
def Obligations.AssignBindsDocumentAndDriver : Prop :=
  ∀ (h : Hdr) (b : Bay) (d : String) (n : Nat) (s : State), Ready h s →
    let out := exec (.bAssign h b (some ⟨d, n⟩)) s
    let refused := fun a => Answers h (unitText (.B b)) a (underKey h s)
    (n = 0 → out = refused (er .RANGE)) ∧
    (n ≠ 0 → (s.bay b).state ≠ .IDLE → out = refused (er .STATE)) ∧
    (n ≠ 0 → (s.bay b).state = .IDLE → (s.bay b).outbox ≠ [] → out = refused (er .BUSY)) ∧
    (n ≠ 0 → (s.bay b).state = .IDLE → (s.bay b).outbox = [] →
      (s.ck.isSet = false → out = refused (er .CLOCK_UNSET)) ∧
      (s.ck.isSet = true →
        (∀ c, cpBindRefusal s d n = some c → out = refused (er c [fld "DOC" d])) ∧
        ∀ x, s.docOf d = some x → x.state = .DRAFT → x.matchesDriver n = true →
          (∀ c, dtBindRefusal s n = some c →
            ∃ t : State, out = Answers h (unitText (.B b)) (er c [fld "DRV" (drvText n)]) t ∧
              t.docOf d = some { x with stack := [] } ∧ (∀ d', d' ≠ d → t.docOf d' = s.docOf d') ∧
              t.bays = s.bays ∧ t.dt = s.dt ∧ t.dv = s.dv ∧ t.ck = s.ck ∧ t.ts = s.ts ∧ t.dl = s.dl ∧ t.st = s.st) ∧
          ∀ y, s.driverOf n = some y → y.status = .ON_SITE →
            let v := s.verdict y.list x.plan
            let limit := decide (v.verdict = .LIMIT)
            ∃ t : State,
              out = Answers h (unitText (.B b))
                (ok [fld "STATE" (if limit then "HELD" else "ASSIGNED"), fld "VERDICT" (verdictText v.verdict),
                  fld "LEAST" (leastText v.least v.test), fld "LINES" (commas (x.lines.map fun l => dec l.comp))]) t ∧
              t.bay b = { s.bay b with
                state := if limit then .HELD else .ASSIGNED, holds := { Holds.none with hours := limit },
                doc := some d, driver := some n, plan := some x.plan, verdict := some v,
                lines := x.lines.map fun l => openLine l.comp, ctx := none, stray := 0, release := false } ∧
              t.dv.notices = toldStateFirst b "ASSIGN" true (s.bay b) (t.bay b) s.dv.notices ∧
              t.docOf d = some { x with state := .BOUND b, stack := [] } ∧ (∀ d', d' ≠ d → t.docOf d' = s.docOf d') ∧
              t.driverOf n = some { y with status := .AT_BAY b, last := some v } ∧
              (∀ m, m ≠ n → t.driverOf m = s.driverOf m) ∧ t.cp.staging = s.cp.staging ∧
              t.dt = { s.dt with drivers := t.dt.drivers } ∧ OtherBaysKept b s t ∧ t.ts = s.ts ∧ t.dl = s.dl))

/-- START opens the valve of an ASSIGNED bay on an OPEN line: LOADING with a fresh context and the preset, at most the
line's capacity, the line LOADING with its counts at 0, RELEASE active when the verdict allows it. STOP ends the
compartment from LOADING or PAUSED with RELEASE inactive, the settle beginning; RESUME returns a PAUSED bay to LOADING.
Each is refused in the order of its tests. That STOP raises STATE before LINES is the model's choice (log 10). -/
def Obligations.LoadingStartsStopsAndResumes : Prop :=
  ∀ (h : Hdr) (b : Bay) (s : State), Ready h s →
    let u := s.bay b
    let refused := fun a => Answers h (unitText (.B b)) a (underKey h s)
    let allowed := u.verdict.any fun v => decide (v.verdict ≠ .LIMIT)
    let vo := fun c : Ctx => ((u.lineOf c.comp).map (·.vo)).getD 0
    (∀ a : StartArgs, ¬(1 ≤ a.comp ∧ a.comp ≤ 8 ∧ a.preset ≠ 0) →
      exec (.bStart h b (some a)) s = refused (er .RANGE)) ∧
    (∀ a : StartArgs, 1 ≤ a.comp → a.comp ≤ 8 → a.preset ≠ 0 →
      let out := exec (.bStart h b (some a)) s
      (u.state ≠ .ASSIGNED → u.state ≠ .HELD → out = refused (er .STATE)) ∧
      (u.state = .HELD → out = refused (er .STATE [fld "HOLD" (commasOrNone (holdNames u.holds))])) ∧
      (u.state = .ASSIGNED →
        (u.lineOf a.comp = none → out = refused (er .NOT_FOUND)) ∧
        ∀ l, u.lineOf a.comp = some l →
          (l.state ≠ .OPEN → out = refused (er .LINE_STATE)) ∧
          (l.state = .OPEN → u.bond = false → out = refused (er .NO_BOND)) ∧
          (l.state = .OPEN → u.bond = true → u.halt = true → out = refused (er .HALTED)) ∧
          (l.state = .OPEN → u.bond = true → u.halt = false → ∀ d, lineRead s u.doc b a.comp = some d →
            let q := min a.preset d.cap
            ∃ t : State, out = Answers h (unitText (.B b)) (ok [fld "C" (dec a.comp), fld "PRESET" (dec q)]) t ∧
              t.bay b = { u with
                state := .LOADING, ctx := some ⟨a.comp, q, false, false, 0, 0, false, 0, false⟩,
                lines := u.lines.map fun l => if l.comp = a.comp then
                  { l with state := .LOADING, pulses := 0, vo := 0, sampleSum := 0, weightSum := 0, pend := 0,
                           taken := 0, faulted := 0 } else l,
                release := allowed } ∧
              t.dv.notices = putNotice ⟨.B b, .LINES, linesFields (t.bay b)⟩
                (putNotice ⟨.B b, .STATE, stateFields (t.bay b) "START"⟩ s.dv.notices) ∧
              BayAlone b s t))) ∧
    (u.state ≠ .LOADING → u.state ≠ .PAUSED → exec (.bStop h b (some ())) s = refused (er .STATE)) ∧
    (∀ c, u.state = .LOADING ∨ u.state = .PAUSED → u.ctx = some c →
      ∃ t : State, exec (.bStop h b (some ())) s =
          Answers h (unitText (.B b)) (ok [fld "C" (dec c.comp), fld "VO" (dec (vo c))]) t ∧
        t.bay b = { u with
          state := .FINISHING, ctx := some { c with settleMs := 0, settled := false, final := false },
          lines := u.lines.map fun l => if l.comp = c.comp then { l with state := .FINISHING } else l,
          release := false } ∧
        t.dv.notices = putNotice ⟨.B b, .LINES, linesFields (t.bay b)⟩
          (putNotice ⟨.B b, .STATE, stateFields (t.bay b) "STOP"⟩ s.dv.notices) ∧
        BayAlone b s t) ∧
    (u.state ≠ .PAUSED → exec (.bResume h b (some ())) s = refused (er .STATE)) ∧
    (u.state = .PAUSED → u.halt = true → exec (.bResume h b (some ())) s = refused (er .HALTED)) ∧
    (u.state = .PAUSED → u.halt = false → u.bond = false → exec (.bResume h b (some ())) s = refused (er .NO_BOND)) ∧
    (∀ c, u.state = .PAUSED → u.halt = false → u.bond = true → u.ctx = some c →
      ∃ t : State, exec (.bResume h b (some ())) s =
          Answers h (unitText (.B b)) (ok [fld "C" (dec c.comp), fld "VO" (dec (vo c))]) t ∧
        t.bay b = { u with
          state := .LOADING, ctx := some { c with haltReason := false, bondReason := false, pauseMs := 0 },
          release := allowed } ∧
        t.dv.notices = putNotice ⟨.B b, .STATE, stateFields (t.bay b) "RESUME"⟩ s.dv.notices ∧ BayAlone b s t)

/-- ACKSTRAY, under the key, clears the stray count and the STRAY hold; ACKRESTART removes RESTART without a key; TEMP,
under the key, gives a line without a temperature its Tm and reconciles it from stage 3. A HELD bay with no reason left
returns to ASSIGNED. HOLD tells a change of the reasons and STATE one of the bay's state, after LINES at TEMP. The tests
that refuse TEMP are made in their order: ranges, the bay's state, the line, the line's state, the key. That STATE
stands last at ACKSTRAY and ACKRESTART is the model's choice (log 10). -/
def Obligations.HoldsAreLifted : Prop :=
  ∀ (h : Hdr) (b : Bay) (s : State), Ready h s →
    let u := s.bay b
    let refused := fun a => Answers h (unitText (.B b)) a (underKey h s)
    let next := fun hs : Holds => match u.state with
      | .HELD => if hs = Holds.none then BayState.ASSIGNED else .HELD
      | .ASSIGNED => if hs = Holds.none then .ASSIGNED else .HELD
      | x => x
    (u.state = .CLOSED → exec (.bAckstray h b (some ())) s = refused (er .STATE)) ∧
    (u.state ≠ .CLOSED → h.supv = false → exec (.bAckstray h b (some ())) s = refused (er .KEY_REQUIRED)) ∧
    (u.state ≠ .CLOSED → h.supv = true →
      ∃ t : State, exec (.bAckstray h b (some ())) s =
          Answers h (unitText (.B b)) (ok [fld "STRAY" (dec u.stray)]) t ∧
        t.bay b = { u with stray := 0, holds := { u.holds with stray := false },
                           state := next { u.holds with stray := false }, release := (t.bay b).mayRelease } ∧
        t.dv.notices = toldStateLast b "HOLD" false u (t.bay b) s.dv.notices ∧ BayAlone b s t) ∧
    (u.holds.restart = false → exec (.bAckrestart h b (some ())) s = refused (er .STATE)) ∧
    (u.holds.restart = true →
      let hs := { u.holds with restart := false }
      ∃ t : State, exec (.bAckrestart h b (some ())) s =
          Answers h (unitText (.B b)) (ok [fld "HOLD" (if hs = Holds.none then "NONE" else commas (holdNames hs))]) t ∧
        t.bay b = { u with holds := hs, state := next hs, release := (t.bay b).mayRelease } ∧
        t.dv.notices = toldStateLast b "HOLD" false u (t.bay b) s.dv.notices ∧ BayAlone b s t) ∧
    (∀ a : TempArgs,
      let legal := (1 ≤ a.comp ∧ a.comp ≤ 8) ∧ -400 ≤ a.temp ∧ a.temp ≤ 700
      (¬legal → exec (.bTemp h b (some a)) s = refused (er .RANGE)) ∧
      (legal → u.state ≠ .ASSIGNED → u.state ≠ .HELD → exec (.bTemp h b (some a)) s = refused (er .STATE)) ∧
      (legal → u.state = .ASSIGNED ∨ u.state = .HELD → u.lineOf a.comp = none →
        exec (.bTemp h b (some a)) s = refused (er .NOT_FOUND))) ∧
    ∀ (a : TempArgs) (l : LineRec) (d : DocLine), 1 ≤ a.comp → a.comp ≤ 8 → -400 ≤ a.temp → a.temp ≤ 700 →
      u.state = .ASSIGNED ∨ u.state = .HELD → u.lineOf a.comp = some l →
      (l.state ≠ .PROBE_FAULT → l.state ≠ .NO_TEMP → exec (.bTemp h b (some a)) s = refused (er .LINE_STATE)) ∧
      (l.state = .PROBE_FAULT ∨ l.state = .NO_TEMP →
        (h.supv = false → exec (.bTemp h b (some a)) s = refused (er .KEY_REQUIRED)) ∧
        (h.supv = true → lineRead s u.doc b a.comp = some d →
          let f := manualLine s d a.temp
          let ls := u.lines.map fun m => if m.comp = a.comp then f m else m
          let hs := { u.holds with
            quantity := ls.any fun m => decide (m.state = .OVER ∨ m.state = .UNDER),
            temperature := ls.any fun m => decide (m.state = .PROBE_FAULT ∨ m.state = .NO_TEMP) }
          ∃ t : State, exec (.bTemp h b (some a)) s =
              Answers h (unitText (.B b)) (ok [fld "C" (dec a.comp), fld "LINE" (lineStateText (f l).state)]) t ∧
            t.bay b = { u with lines := ls, holds := hs, state := next hs, release := false } ∧
            (f l).manual = true ∧ ((f l).state = .VERIFIED ∨ (f l).state = .OVER ∨ (f l).state = .UNDER) ∧
            t.dv.notices = toldStateLast b "HOLD" true u (t.bay b) s.dv.notices ∧ BayAlone b s t))

/-- DRIVER replaces the bound driver in one step at DT: the old driver is ON_SITE and the new one AT_BAY, the bay takes
his verdict, and HOURS is set by a LIMIT verdict and cleared by any other. HOLD is raised always, STATE when the state
changes. Neither the lines nor the document change. -/
def Obligations.DriverSwapReplacesTheDriver : Prop :=
  ∀ (h : Hdr) (b : Bay) (n old : Nat) (x : Doc) (p : Plan) (s : State), Ready h s →
    let u := s.bay b
    let refused := fun a => Answers h (unitText (.B b)) a (underKey h s)
    exec (.bDriver h b (some 0)) s = refused (er .RANGE) ∧
    (n ≠ 0 → u.state ≠ .ASSIGNED → u.state ≠ .HELD → exec (.bDriver h b (some n)) s = refused (er .STATE)) ∧
    (n ≠ 0 → u.state = .ASSIGNED ∨ u.state = .HELD → u.doc.bind s.docOf = some x → u.driver = some old → u.plan = some p →
      (x.matchesDriver n = false → exec (.bDriver h b (some n)) s = refused (er .DRIVER_MISMATCH)) ∧
      (x.matchesDriver n = true →
        (∀ c, dtBindRefusal s n = some c → exec (.bDriver h b (some n)) s = refused (er c)) ∧
        ∀ y z, s.driverOf n = some y → y.status = .ON_SITE → s.driverOf old = some z → z.status = .AT_BAY b →
          let v := s.verdict y.list p
          let hs := { u.holds with hours := decide (v.verdict = .LIMIT) }
          ∃ t : State, exec (.bDriver h b (some n)) s =
              Answers h (unitText (.B b))
                (ok [fld "DRV" (drvText n), fld "VERDICT" (verdictText v.verdict), fld "LEAST" (leastText v.least v.test)])
                t ∧
            t.bay b = { u with driver := some n, verdict := some v, holds := hs,
                               state := if hs = Holds.none then .ASSIGNED else .HELD, release := false } ∧
            t.dv.notices = putNotice ⟨.B b, .HOLD, holdFields (t.bay b)⟩
              (toldStateLast b "HOLD" false u (t.bay b) s.dv.notices) ∧
            t.driverOf n = some { y with status := .AT_BAY b, last := some v } ∧
            t.driverOf old = some { z with status := .ON_SITE } ∧
            (∀ m, m ≠ n → m ≠ old → t.driverOf m = s.driverOf m) ∧ t.dt = { s.dt with drivers := t.dt.drivers } ∧
            OtherBaysKept b s t ∧ t.cp = s.cp ∧ t.ts = s.ts ∧ t.dl = s.dl))

/-- DISPATCH of an ASSIGNED bay whose lines are all VERIFIED asks DT once: a LIMIT verdict holds the bay on HOURS, a
list without room refuses it, and otherwise the bay is DISPATCHING with the verdict and the DISPATCH record in its
outbox, the driver's dispatch pending. STATE tells a change of the bay's state, HOLD one of the reasons, and a list
without room is told by the reply alone. -/
def Obligations.DispatchMakesTheRecord : Prop :=
  ∀ (h : Hdr) (b : Bay) (n : Nat) (x : Doc) (p : Plan) (y : Driver) (s : State), Ready h s →
    let u := s.bay b
    let out := exec (.bDispatch h b (some ())) s
    let refused := fun a => Answers h (unitText (.B b)) a (underKey h s)
    (u.state ≠ .ASSIGNED → u.state ≠ .HELD → out = refused (er .STATE)) ∧
    (u.state = .HELD → out = refused (er .STATE [fld "HOLD" (commasOrNone (holdNames u.holds))])) ∧
    (∀ l, u.state = .ASSIGNED → u.lines.find? (fun m => m.state != .VERIFIED) = some l →
      out = refused (er .LINE_STATE [fld "C" (dec l.comp)])) ∧
    (u.state = .ASSIGNED → (∀ l ∈ u.lines, l.state = .VERIFIED) → u.doc.bind s.docOf = some x → u.driver = some n →
      u.plan = some p → s.driverOf n = some y → y.status = .AT_BAY b →
      let v := s.verdict y.list p
      let full := 32 < (s.pruned (openEntry s.nowMin .DRIVE (closeOpen s.nowMin y.list))).length
      let kept : State → Driver → Prop := fun t z =>
        t.driverOf n = some z ∧ (∀ m, m ≠ n → t.driverOf m = s.driverOf m) ∧
          t.dt = { s.dt with drivers := t.dt.drivers } ∧ OtherBaysKept b s t ∧ t.cp = s.cp ∧ t.ts = s.ts
      (v.verdict = .LIMIT →
        ∃ t : State, out = Answers h (unitText (.B b))
            (er .HOURS_LIMIT [fld "LEAST" (leastText v.least v.test), fld "MARKS" (commasOrNone (v.marks.map testText))])
            t ∧
          t.bay b = { u with verdict := some v, holds := { u.holds with hours := true }, state := .HELD,
                             release := false } ∧
          t.dv.notices = toldStateFirst b "HOLD" false u (t.bay b) s.dv.notices ∧
          kept t { y with last := some v } ∧ t.dl = s.dl) ∧
      (v.verdict ≠ .LIMIT → full →
        ∃ t : State, out = Answers h (unitText (.B b)) (er .LIST_FULL [fld "DRV" (drvText n)]) t ∧
          t.bays = s.bays ∧ t.dv = s.dv ∧ kept t { y with last := some v } ∧ t.dl = s.dl) ∧
      (v.verdict ≠ .LIMIT → ¬full →
        ∃ t : State, ∃ r : LogRec, out = Answers h (unitText (.B b))
            (ok [fld "STATE" "DISPATCHING", fld "VERDICT" (verdictText v.verdict), fld "LEAST" (leastText v.least v.test)])
            t ∧
          r.stamp = s.stamp ∧
          r.body = .DISPATCH ⟨b, x.num, x.tanker, x.carrier, n, v.verdict, v.least, v.test, x.count,
            u.lines.map fun l =>
              let d := (lineRead s u.doc b l.comp).getD default
              ⟨l.comp, d.product, d.un, d.cls, d.pg, d.qty, l.vo, l.figs, l.marks, l.manual⟩⟩ ∧
          t.bay b = { u with state := .DISPATCHING, verdict := some v, outbox := u.outbox ++ [r], release := false } ∧
          t.dv.notices = toldStateFirst b "DISPATCH" false u (t.bay b) s.dv.notices ∧
          kept t { y with last := some v, pend := true } ∧ Posted (.B b) s t))

/-- CANCEL and RESET take a bay to IDLE, unbind what it held and record its loaded lines; they need the key when a line
is loaded. RESET does so from every state, after withdrawing the sampler's request of a running compartment, whose
running sample is then marked as withdrawn; CLEAR frees a DISPATCHED bay. The stray count is kept. The answer LOADED=0
to RESET in IDLE and DISPATCHED is the model's reading (log 24). -/
def Obligations.CancelClearAndReset : Prop :=
  ∀ (h : Hdr) (b : Bay) (s : State), Ready h s →
    let u := s.bay b
    let refused := fun a => Answers h (unitText (.B b)) a (underKey h s)
    let loaded := [fld "LOADED" (dec u.loadedCount)]
    let told : String → State → Prop := fun reason t =>
      let ns := putNotice ⟨.B b, .LINES, linesFields (t.bay b)⟩
        (putNotice ⟨.B b, .STATE, stateFields (t.bay b) reason⟩ s.dv.notices)
      t.dv.notices = if u.holds = Holds.none then ns else putNotice ⟨.B b, .HOLD, holdFields (t.bay b)⟩ ns
    let emptied : State → Prop := fun t =>
      t.bay b = { u with state := .IDLE, holds := Holds.none, doc := none, driver := none, plan := none, verdict := none,
                         lines := [], ctx := none, release := false, outbox := (t.bay b).outbox }
    let vacated : String → CancelReason → State → Prop := fun reason why t =>
      emptied t ∧ told reason t ∧
      (∀ d n, u.doc = some d → u.driver = some n →
        (t.bay b).outbox = u.outbox ++ if u.anyLoaded then
          [⟨s.stamp, .CANCEL ⟨b, d, n, why, (u.lines.filter (·.loaded)).map (cancelItem s b)⟩⟩] else []) ∧
      (∀ d x, s.docOf d = some x → t.docOf d =
        some (if u.doc = some d ∧ x.state = .BOUND b then { x with state := .DRAFT, stack := [] } else x)) ∧
      (∀ n y, s.driverOf n = some y → t.driverOf n =
        some (if u.driver = some n ∧ y.status = .AT_BAY b then { y with status := .ON_SITE, pend := false } else y)) ∧
      t.cp.staging = s.cp.staging ∧ t.dt = { s.dt with drivers := t.dt.drivers } ∧
      Posted (.B b) s t ∧ OtherBaysKept b s t
    let freed : String → State → Prop := fun reason t =>
      emptied t ∧ (t.bay b).outbox = u.outbox ∧ told reason t ∧ BayAlone b s t
    (u.state ≠ .ASSIGNED → u.state ≠ .HELD → exec (.bCancel h b (some ())) s = refused (er .STATE)) ∧
    (u.state = .ASSIGNED ∨ u.state = .HELD →
      (u.anyLoaded = true → h.supv = false → exec (.bCancel h b (some ())) s = refused (er .KEY_REQUIRED)) ∧
      (u.anyLoaded = false ∨ h.supv = true →
        ∃ t : State, exec (.bCancel h b (some ())) s = Answers h (unitText (.B b)) (ok loaded) t ∧
          vacated "CANCEL" .OPERATOR t ∧ t.ts = s.ts)) ∧
    (u.state ≠ .DISPATCHED → exec (.bClear h b (some ())) s = refused (er .STATE)) ∧
    (u.state = .DISPATCHED →
      ∃ t : State, exec (.bClear h b (some ())) s = Answers h (unitText (.B b)) (ok []) t ∧ freed "CLEAR" t) ∧
    (u.state = .CLOSED → exec (.bReset h b (some ())) s = refused (er .STATE)) ∧
    (u.state ≠ .CLOSED → u.anyLoaded = true → h.supv = false →
      exec (.bReset h b (some ())) s = refused (er .KEY_REQUIRED)) ∧
    (u.anyLoaded = false ∨ h.supv = true →
      (u.state = .IDLE → exec (.bReset h b (some ())) s = refused (ok [fld "LOADED" "0"])) ∧
      (u.state = .DISPATCHED →
        ∃ t : State, exec (.bReset h b (some ())) s = Answers h (unitText (.B b)) (ok [fld "LOADED" "0"]) t ∧
          freed "RESET" t) ∧
      (u.state = .ASSIGNED ∨ u.state = .HELD ∨ u.state = .DISPATCHING →
        ∃ t : State, exec (.bReset h b (some ())) s = Answers h (unitText (.B b)) (ok loaded) t ∧
          vacated "RESET" .RESET t ∧ t.ts = s.ts) ∧
      (u.state = .LOADING ∨ u.state = .PAUSED ∨ u.state = .FINISHING →
        ∃ t : State, exec (.bReset h b (some ())) s = Answers h (unitText (.B b)) (ok loaded) t ∧
          vacated "RESET" .RESET t ∧ t.ts.reqs[b] = none ∧ (∀ b' : Bay, b' ≠ b → t.ts.reqs[b'] = s.ts.reqs[b']) ∧
          t.ts = { s.ts with reqs := t.ts.reqs, conv := t.ts.conv } ∧
          (s.ts.reqs[b] ≠ none ∧ s.ts.conv = .SAMPLE b false → t.ts.conv = .SAMPLE b true) ∧
          (¬(s.ts.reqs[b] ≠ none ∧ s.ts.conv = .SAMPLE b false) → t.ts.conv = s.ts.conv)))

/-- A pulse is counted into the active line of a flowing compartment, whose volume follows the meter factor; a
crossing posts its weight at the sampler or brings back a fault at once, and a preset reached outside FINISHING ends
the compartment. In every other state but CLOSED the pulse is stray, and the twentieth stray pulse is told and holds
a bay that has a load. The order of the notices is the model's choice where the manual lists none (log 10). -/
def Obligations.PulsesAreCounted : Prop :=
  ∀ (b : Bay) (s : State), s.supply = true →
    let u := s.bay b
    let e := s.st.applied.bays[b]
    (u.state = .CLOSED → exec (.pulseEdge b) s = .next (pump s)) ∧
    (∀ c l, u.state = .LOADING ∨ u.state = .PAUSED ∨ (u.state = .FINISHING ∧ c.settled = false) → u.ctx = some c →
      u.lineOf c.comp = some l →
      let p := fun m : LineRec => min 16777215 (m.pulses + 1)
      let vo := roundHalfUp (p l * e.factor) 1000
      let w := 10 * e.step
      let cross := decide (w * (c.crossings + 1) ≤ vo)
      let ends := decide (u.state ≠ .FINISHING ∧ 10 * c.preset ≤ vo)
      let c1 := { c with crossings := c.crossings + if cross then 1 else 0 }
      ∃ t : State, exec (.pulseEdge b) s = .next (pump t) ∧
        t.bay b = { u with
          lines := u.lines.map fun m => if m.comp = c.comp then
            { m with pulses := p m, vo := roundHalfUp (p m * e.factor) 1000,
                     pend := m.pend + (if cross && !s.ts.fault then w else 0),
                     faulted := if cross && s.ts.fault then min 255 (m.faulted + 1) else m.faulted,
                     state := if ends then .FINISHING else m.state } else m,
          ctx := some (if ends then { c1 with settleMs := 0, settled := false, final := false } else c1),
          state := if ends then .FINISHING else u.state, release := if ends then false else u.release } ∧
        t.dv.notices = (if ends then putNotice ⟨.B b, .LINES, linesFields (t.bay b)⟩
          (putNotice ⟨.B b, .STATE, stateFields (t.bay b) "PRESET"⟩ s.dv.notices) else s.dv.notices) ∧
        ((cross && !s.ts.fault) = false → t.ts = s.ts) ∧
        ((cross && !s.ts.fault) = true →
          t.ts.reqs[b] = some ⟨((s.ts.reqs[b].map (·.weight)).getD 0) + w, (s.ts.reqs[b].map (·.final)).getD false⟩ ∧
          (∀ b' : Bay, b' ≠ b → t.ts.reqs[b'] = s.ts.reqs[b']) ∧
          t.ts = (chooseWork { s with ts := { s.ts with reqs := t.ts.reqs } }).ts) ∧
        OtherBaysKept b s t ∧ t.dt = s.dt ∧ t.cp = s.cp ∧ t.dl = s.dl) ∧
    (u.state = .IDLE ∨ u.state = .ASSIGNED ∨ u.state = .HELD ∨ u.state = .DISPATCHING ∨ u.state = .DISPATCHED ∨
        (u.state = .FINISHING ∧ ∃ c, u.ctx = some c ∧ c.settled = true) →
      (u.stray ≠ 19 →
        exec (.pulseEdge b) s = .next (pump (s.modBay b fun u => { u with stray := min 65535 (u.stray + 1) }))) ∧
      (u.stray = 19 →
        let holds := u.state = .ASSIGNED ∨ u.state = .HELD ∨ u.state = .FINISHING
        ∃ t : State, exec (.pulseEdge b) s = .next (pump t) ∧
          t.bay b = { u with stray := 20, holds := if holds then { u.holds with stray := true } else u.holds,
                             state := if u.state = .ASSIGNED then .HELD else u.state, release := false } ∧
          (let n1 := if holds ∧ u.holds.stray = false then putNotice ⟨.B b, .HOLD, holdFields (t.bay b)⟩ s.dv.notices
             else s.dv.notices
           let n2 := if u.state = .ASSIGNED then putNotice ⟨.B b, .STATE, stateFields (t.bay b) "HOLD"⟩ n1 else n1
           t.dv.notices = putNotice ⟨.B b, .STRAY, strayFields (t.bay b)⟩ n2) ∧
          BayAlone b s t))

/-- HALT going active or BOND being lost pauses a LOADING bay and drives RELEASE inactive; in PAUSED an edge adds or
removes its reason; BOND lost frees a DISPATCHED bay; elsewhere the level alone follows. A pause that lasts its limit
ends the compartment. That an edge to the level the input has and a pause limit outside PAUSED change nothing, that
without the supply the level alone follows, and that PAUSE_LIMIT raises STATE before LINES are the model's choices (log
3, log 5, log 10). -/
def Obligations.EdgesPauseAndTheLimitEnds : Prop :=
  ∀ (b : Bay) (s : State),
    let u := s.bay b
    (∀ on : Bool, s.supply = false →
      exec (.haltEdge b on) s = .next (s.modBay b fun u => { u with halt := on }) ∧
      exec (.bondEdge b on) s = .next (s.modBay b fun u => { u with bond := on })) ∧
    (s.supply = true →
      (∀ c, u.state = .LOADING → u.ctx = some c →
        (u.halt = false → ∃ t : State, exec (.haltEdge b true) s = .next (pump t) ∧
          t.bay b = { u with state := .PAUSED, halt := true, release := false,
                             ctx := some { c with haltReason := true, bondReason := false, pauseMs := 0 } } ∧
          t.dv.notices = putNotice ⟨.B b, .STATE, stateFields (t.bay b) "HALT"⟩ s.dv.notices ∧ BayAlone b s t) ∧
        (u.bond = true → ∃ t : State, exec (.bondEdge b false) s = .next (pump t) ∧
          t.bay b = { u with state := .PAUSED, bond := false, release := false,
                             ctx := some { c with haltReason := false, bondReason := true, pauseMs := 0 } } ∧
          t.dv.notices = putNotice ⟨.B b, .STATE, stateFields (t.bay b) "BOND"⟩ s.dv.notices ∧ BayAlone b s t)) ∧
      (∀ c, u.state = .PAUSED → u.ctx = some c →
        (∀ on : Bool, u.halt ≠ on → exec (.haltEdge b on) s =
          .next (pump (s.modBay b fun u => { u with halt := on, ctx := some { c with haltReason := on } }))) ∧
        (∀ on : Bool, u.bond ≠ on → exec (.bondEdge b on) s =
          .next (pump (s.modBay b fun u => { u with bond := on, ctx := some { c with bondReason := !on } }))) ∧
        ∃ t : State, exec (.pauseLimit b) s = .next (pump t) ∧
          t.bay b = { u with
            state := .FINISHING, ctx := some { c with settleMs := 0, settled := false, final := false },
            lines := u.lines.map fun m => if m.comp = c.comp then { m with state := .FINISHING } else m,
            release := false } ∧
          t.dv.notices = putNotice ⟨.B b, .LINES, linesFields (t.bay b)⟩
            (putNotice ⟨.B b, .STATE, stateFields (t.bay b) "PAUSE_LIMIT"⟩ s.dv.notices) ∧ BayAlone b s t) ∧
      (u.state ≠ .PAUSED → exec (.pauseLimit b) s = .next (pump s)) ∧
      (u.state = .DISPATCHED → u.bond = true → ∃ t : State, exec (.bondEdge b false) s = .next (pump t) ∧
        t.bay b = { u with state := .IDLE, holds := Holds.none, doc := none, driver := none, plan := none,
                           verdict := none, lines := [], ctx := none, bond := false, release := false } ∧
        (let ns := putNotice ⟨.B b, .LINES, linesFields (t.bay b)⟩
           (putNotice ⟨.B b, .STATE, stateFields (t.bay b) "UNBOND"⟩ s.dv.notices)
         t.dv.notices = if u.holds = Holds.none then ns else putNotice ⟨.B b, .HOLD, holdFields (t.bay b)⟩ ns) ∧
        BayAlone b s t) ∧
      (∀ on : Bool, u.halt = on → exec (.haltEdge b on) s = .next (pump s)) ∧
      (∀ on : Bool, u.bond = on → exec (.bondEdge b on) s = .next (pump s)) ∧
      (u.state ≠ .LOADING → u.state ≠ .PAUSED →
        (∀ on : Bool, exec (.haltEdge b on) s = .next (pump (s.modBay b fun u => { u with halt := on }))) ∧
        (u.state ≠ .DISPATCHED → ∀ on : Bool,
          exec (.bondEdge b on) s = .next (pump (s.modBay b fun u => { u with bond := on })))))

/-- When the settle ends the rest of the volume is posted with the final mark; while the sampler is in FAULT the fault
comes back at once, and the line is reconciled to PROBE_FAULT and holds the bay on TEMPERATURE, as STATE, LINES and HOLD
tell. That the row changes nothing once the settle has ended, and that the notices stand in the order of R123, are the
model's choices (log 3, log 10). -/
def Obligations.SettlePostsTheFinalWeight : Prop :=
  ∀ (b : Bay) (c : Ctx) (l : LineRec) (s : State), s.supply = true → (s.bay b).state = .FINISHING →
    (s.bay b).ctx = some c → (s.bay b).lineOf c.comp = some l →
    let u := s.bay b
    let e := s.st.applied.bays[b]
    let w := l.vo - 10 * e.step * c.crossings
    (c.settled = true → exec (.settleEnd b) s = .next (pump s)) ∧
    (c.settled = false → s.ts.fault = false → ∃ t : State, exec (.settleEnd b) s = .next (pump t) ∧
      t.bay b = { u with
        lines := u.lines.map fun m => if m.comp = c.comp then { m with pend := m.pend + w } else m,
        ctx := some { c with settled := true, final := true } } ∧
      t.ts.reqs[b] = some ⟨((s.ts.reqs[b].map (·.weight)).getD 0) + w, true⟩ ∧
      (∀ b' : Bay, b' ≠ b → t.ts.reqs[b'] = s.ts.reqs[b']) ∧
      t.ts = (chooseWork { s with ts := { s.ts with reqs := t.ts.reqs } }).ts ∧
      OtherBaysKept b s t ∧ t.dv = s.dv ∧ t.dt = s.dt ∧ t.cp = s.cp ∧ t.dl = s.dl) ∧
    (∀ d, c.settled = false → s.ts.fault = true → (∀ m ∈ u.lines, m.comp = c.comp → m = l) →
      lineRead s u.doc b c.comp = some d →
      let f := { l with state := .PROBE_FAULT, vo := roundHalfUp (l.pulses * e.factor) 1000,
                        faulted := min 255 (l.faulted + 1), figs := none,
                        marks := ⟨false, false, false, decide (l.pulses = 16777215)⟩, manual := false }
      let ls := u.lines.map fun m => if m.comp = c.comp then f else m
      ∃ t : State, exec (.settleEnd b) s = .next (pump t) ∧
        t.bay b = { u with
          lines := ls, ctx := none, state := .HELD, release := false,
          holds := { u.holds with temperature := true,
                                  quantity := ls.any fun m => decide (m.state = .OVER ∨ m.state = .UNDER) } } ∧
        t.dv.notices = toldStateFirst b "RECONCILED" true u (t.bay b) s.dv.notices ∧ BayAlone b s t)

/-! ## The sampler (07_temperature_sampler.md) -/

/-- A completed sample gives its code, the mean of the pair rounded half up; the code is a fault outside 16 to 4,079 or
when its temperature by the calibration line leaves -40.0 to 70.0; the result goes to the bay with the weight of its
request, a result with the final mark reconciles the line, as STATE, LINES and HOLD tell, a withdrawn one is discarded;
and the freed converter serves a due calibration first, then the first bay in turn after the last served, nothing while
in FAULT. That the notices stand in the order of R123 is the model's choice (log 10). -/
def Obligations.SampleReachesItsBay : Prop :=
  (∀ (c1 c2 : Adc), 2 * sampleCode c1 c2 = c1.toNat + c2.toNat ∨ 2 * sampleCode c1 c2 = c1.toNat + c2.toNat + 1) ∧
  (∀ lo hi code : Nat,
    let t := roundHalfAway (((code : Int) - lo) * 500) (hi - lo)
    probeResult lo hi code = if code < 16 ∨ 4079 < code ∨ t < -400 ∨ 700 < t then none else some t) ∧
  (∀ s : State, s.ts.conv = .FREE →
    chooseWork s = s.modTs fun t =>
      if t.due then { t with conv := .CAL } else if t.fault then t else match nextBay t with
        | some b => { t with conv := .SAMPLE b false, lastServed := b }
        | none => t) ∧
  (∀ (t : Ts), (nextBay t = none ↔ ∀ b : Bay, t.reqs[b] = none) ∧
    ∀ b : Bay, nextBay t = some b →
      t.reqs[b] ≠ none ∧ ∀ j : Bay, j < b - t.lastServed - 1 → t.reqs[t.lastServed + 1 + j] = none) ∧
  ∀ (c1 c2 : Adc) (b : Bay) (s : State), s.supply = true →
    let u := s.bay b
    let freed : State → State := fun t => chooseWork { t with ts := { t.ts with conv := .FREE } }
    (s.ts.conv = .SAMPLE b true → exec (.sampleComplete c1 c2) s = .next (pump (freed s))) ∧
    (∀ r c, s.ts.conv = .SAMPLE b false → s.ts.reqs[b] = some r → u.ctx = some c →
      let res := probeResult s.ts.clo s.ts.chi (sampleCode c1 c2)
      let got := fun m : LineRec =>
        { m with pend := m.pend - r.weight, sampleSum := m.sampleSum + (res.map fun x => x * (r.weight : Int)).getD 0,
                 weightSum := m.weightSum + (if res.isSome then r.weight else 0),
                 taken := if res.isSome then min 255 (m.taken + 1) else m.taken,
                 faulted := if res.isSome then m.faulted else min 255 (m.faulted + 1),
                 finalTemp := if r.final && res.isSome then res else m.finalTemp }
      (r.final = false →
        ∃ t : State, exec (.sampleComplete c1 c2) s = .next (pump (freed t)) ∧
          t.bay b = { u with lines := u.lines.map fun m => if m.comp = c.comp then got m else m } ∧
          t.ts = { s.ts with reqs := t.ts.reqs } ∧ t.ts.reqs[b] = none ∧
          (∀ b' : Bay, b' ≠ b → t.ts.reqs[b'] = s.ts.reqs[b']) ∧ OtherBaysKept b s t ∧ t.dv = s.dv ∧ t.dt = s.dt ∧
          t.cp = s.cp ∧ t.dl = s.dl) ∧
      (∀ d, r.final = true → u.state = .FINISHING → lineRead s u.doc b c.comp = some d →
        let ls := u.lines.map fun m => if m.comp = c.comp then
          reconcile true s.st.applied.bays[b].factor (s.st.applied.product d.product) s.st.applied.tol d.qty (got m)
          else m
        let hs := { u.holds with
          quantity := ls.any fun m => decide (m.state = .OVER ∨ m.state = .UNDER),
          temperature := ls.any fun m => decide (m.state = .PROBE_FAULT ∨ m.state = .NO_TEMP) }
        ∃ t : State, exec (.sampleComplete c1 c2) s = .next (pump (freed t)) ∧
          t.bay b = { u with lines := ls, holds := hs, ctx := none, release := false,
                             state := if hs = Holds.none then .ASSIGNED else .HELD } ∧
          t.dv.notices = toldStateFirst b "RECONCILED" true u (t.bay b) s.dv.notices ∧
          t.ts = { s.ts with reqs := t.ts.reqs } ∧ t.ts.reqs[b] = none ∧
          (∀ b' : Bay, b' ≠ b → t.ts.reqs[b'] = s.ts.reqs[b']) ∧ OtherBaysKept b s t ∧ t.dt = s.dt ∧ t.cp = s.cp ∧
          t.dl = s.dl))

/-- A completed calibration clears the due flag, restarts the period and is noted; a valid one takes its codes and ends
FAULT, an invalid one keeps the codes and enters FAULT, where every pending request is answered with a fault, one with
the final mark reconciling its line. Health is told by HEALTH when it changes or a calibration fails again. The period
and TS CALIBRATE make a calibration due, and a free converter begins it. -/
def Obligations.CalibrationDecidesHealth : Prop :=
  (∀ (l1 l2 h1 h2 : Adc) (s : State), s.supply = true → s.ts.conv = .CAL →
    let lo := sampleCode l1 l2
    let hi := sampleCode h1 h2
    let valid := lo + 1000 ≤ hi ∧ hi ≤ lo + 4000 ∧ 200 ≤ lo ∧ lo ≤ 1800
    let noted : State → Prop := fun t =>
      t.ts.due = false ∧ t.ts.sinceCal = some 0 ∧
        t.ts.lastCal = some ⟨if s.ck.isSet then some s.ck.count else none, lo, hi⟩ ∧
        t.ts.lastServed = s.ts.lastServed ∧
        t.dv = { s.dv with sampler := t.dv.sampler, notices := t.dv.notices, attnPulse := t.dv.attnPulse } ∧
        t.pending = s.pending ∧ t.supply = s.supply ∧ t.fresh = s.fresh ∧
        t.ck = s.ck ∧ t.dt = s.dt ∧ t.cp = s.cp ∧ t.dl = s.dl ∧ t.st = s.st
    let told : State → Prop := fun t =>
      t.dv.pending .TS .HEALTH = true ∧ (⟨.TS, .HEALTH, healthFields t.ts lo hi⟩ : Notice) ∈ t.dv.notices
    ∃ t : State, exec (.calibrationComplete l1 l2 h1 h2) s = .next (pump (chooseWork { t with ts := { t.ts with conv := .FREE } })) ∧
      noted t ∧
      (valid → t.ts.clo = lo ∧ t.ts.chi = hi ∧ t.ts.fault = false ∧ t.ts.reqs = s.ts.reqs ∧ t.bays = s.bays ∧
        (s.ts.fault = false → t.dv = s.dv) ∧ (s.ts.fault = true → told t ∧ t.dv.sampler = false)) ∧
      (¬valid → t.ts.clo = s.ts.clo ∧ t.ts.chi = s.ts.chi ∧ t.ts.fault = true ∧ told t ∧
        (s.ts.fault = true → t.ts.reqs = s.ts.reqs ∧ t.bays = s.bays ∧ t.dv.sampler = s.dv.sampler) ∧
        (s.ts.fault = false → t.dv.sampler = true ∧ ∀ b : Bay, t.ts.reqs[b] = none ∧
          (s.ts.reqs[b] = none → t.bay b = s.bay b) ∧
          ∀ r c, s.ts.reqs[b] = some r → (s.bay b).ctx = some c →
            (r.final = false → t.bay b = { s.bay b with
              lines := (s.bay b).lines.map fun m => if m.comp = c.comp then
                { m with pend := m.pend - r.weight, faulted := min 255 (m.faulted + 1) } else m }) ∧
            ∀ d, r.final = true → lineRead s (s.bay b).doc b c.comp = some d →
              let u := s.bay b
              let ls := u.lines.map fun m => if m.comp = c.comp then
                reconcile true s.st.applied.bays[b].factor (s.st.applied.product d.product) s.st.applied.tol d.qty
                  { m with pend := m.pend - r.weight, faulted := min 255 (m.faulted + 1) } else m
              let hs := { u.holds with
                quantity := ls.any fun m => decide (m.state = .OVER ∨ m.state = .UNDER),
                temperature := ls.any fun m => decide (m.state = .PROBE_FAULT ∨ m.state = .NO_TEMP) }
              t.bay b = { u with lines := ls, holds := hs, ctx := none, release := false,
                                 state := if hs = Holds.none then .ASSIGNED else .HELD } ∧
              ChangeTold b "RECONCILED" u (t.bay b) t.dv.notices))) ∧
  (∀ s : State, s.supply = true →
    exec .calibrationPeriod s = .next (pump (chooseWork { s with ts := { s.ts with due := true } }))) ∧
  ∀ (h : Hdr) (s : State), Ready h s →
    (s.ts.conv = .CAL → exec (.tsCalibrate h (some ())) s = Answers h "TS" (er .BUSY) (underKey h s)) ∧
    (s.ts.conv = .FREE → exec (.tsCalibrate h (some ())) s =
      Answers h "TS" (ok [bare "DUE"]) { s with supv := h.supv, ts := { s.ts with due := true, conv := .CAL } }) ∧
    (∀ b w, s.ts.conv = .SAMPLE b w → exec (.tsCalibrate h (some ())) s =
      Answers h "TS" (ok [bare "DUE"]) { s with supv := h.supv, ts := { s.ts with due := true } })

/-! ## Reconciliation (08_quantity_reconciliation.md) -/

/-- The stages of a reconciliation: the volume from the pulses, the mean temperature or the state that stops
there, the correction factor with its clamp, the standard volume, the deviation and the line state by the
tolerance; a quantity change redoes the last stage alone. The two roundings take the nearest whole number, and a
half upwards or away from 0. -/
def Obligations.ReconciliationComputesTheFigures : Prop :=
  (∀ n d : Nat, 0 < d → 2 * d * roundHalfUp n d ≤ 2 * n + d ∧ 2 * n + d < 2 * d * (roundHalfUp n d + 1)) ∧
  (∀ (n : Nat) (d : Nat), roundHalfAway n d = roundHalfUp n d ∧ roundHalfAway (-(n : Int)) d = -(roundHalfUp n d : Int)) ∧
  (∀ (final : Bool) (factor : Nat) (p : Product) (tol : Tolerance) (qty : Nat) (l : LineRec),
    let vo := roundHalfUp (l.pulses * factor) 1000
    let r := reconcile final factor p tol qty l
    let stops : LineState → Prop := fun st =>
      r = { l with vo := vo, state := st, figs := none, manual := false,
                   marks := ⟨false, false, false, decide (l.pulses = 16777215)⟩ }
    let goesOn : Int → Prop := fun tm =>
      r = stages3to6 p tol qty tm
        { l with vo := vo, marks := { l.marks with c := decide (l.pulses = 16777215) } }
    (0 < l.faulted → stops .PROBE_FAULT) ∧
    (l.faulted = 0 → 0 < l.weightSum → goesOn (roundHalfAway l.sampleSum l.weightSum)) ∧
    (l.faulted = 0 → l.weightSum = 0 →
      (final = true → ∀ t, l.finalTemp = some t → goesOn t) ∧
      (final = false ∨ l.finalTemp = none → stops .NO_TEMP))) ∧
  (∀ (p : Product) (tol : Tolerance) (qty : Nat) (tm : Int) (l : LineRec),
    let dt := tm - 150
    let a := if 0 ≤ dt then p.aHot else p.aCold
    let b := if 0 ≤ dt then p.bHot else p.bCold
    let raw := 1000000 - roundHalfAway (a * dt) 100 - roundHalfUp (b * (dt * dt).natAbs) 2048
    let vcf : Nat := if raw < 900000 then 900000 else if 1100000 < raw then 1100000 else raw.toNat
    let vs := roundHalfUp (l.vo * vcf) 1000000
    let dev := (vs : Int) - 10 * qty
    let w : Int := max (10 * tol.abs) (roundHalfUp (10 * qty * tol.permille) 1000)
    let st := if w < dev then LineState.OVER else if dev < -w then .UNDER else .VERIFIED
    stages3to6 p tol qty tm l = { l with
      state := st, figs := some ⟨tm, vcf, vs, dev⟩,
      marks := ⟨decide (dev < 0), decide (dev = 0), decide (raw < 900000 ∨ 1100000 < raw), l.marks.c⟩ } ∧
    ∀ f, l.figs = some f →
      let dev := (f.vs : Int) - 10 * qty
      reReconcile tol qty l = { l with
        state := if w < dev then LineState.OVER else if dev < -w then .UNDER else .VERIFIED,
        figs := some { f with dev := dev },
        marks := { l.marks with n := decide (dev < 0), z := decide (dev = 0) } })

/-! ## The dispatch log (09_dispatch_log.md) -/

/-- DL serves the append at the head of the queue when no scan and no write is in progress: the record takes the next
sequence number in the ACTIVE segment that has room for it, else in the first ERASED segment after the last opened one,
which becomes ACTIVE while the ACTIVE one closes with reason FILLED; with no place the append is refused with LOG_FULL,
its source is told and posts its next record, and SPACE is raised. Of a refused record a bay raises STATE with reason
LOG_FULL, DT TRIP, ST APPLIED, and of a DAY_CLOSE DL raises DAY with the day counts as they stand; the driver of a
refused DISPATCH is no longer pending. That a serving is a step of its own, changes nothing while it cannot be, tells
SPACE before DAY, and at an opening tells SPACE with all slots of the new segment free, are the model's choices (log 11,
log 3, log 10, log 41). -/
def Obligations.AppendsAreServed : Prop :=
  ∀ s : State, s.supply = true →
    (s.dl.scan = true ∨ s.dl.writing ≠ none ∨ s.dl.queue = [] → exec .appendServe s = .next (pump s)) ∧
    ∀ a q, s.dl.scan = false → s.dl.writing = none → s.dl.queue = a :: q →
      let r : LogRec := match a.record.body with
        | .DAY_CLOSE _ => ⟨a.record.stamp, .DAY_CLOSE s.dl.day⟩
        | _ => a.record
      let room := fun i : SegNo => a.record.slots + (s.dl.segs[i].records.map fun x => x.record.slots).sum ≤ 256
      let begun : SegNo → Bool → Dl → Dl := fun i opened d =>
        { d with queue := q, nextSeq := s.dl.nextSeq + 1, writing := some ⟨a.source, r, s.dl.nextSeq, i, opened⟩ }
      let noRoom := ∀ i, s.dl.active = some i → ¬room i
      (∀ i, s.dl.nextSeq ≤ 4294967295 → s.dl.active = some i → room i →
        exec .appendServe s = .next (pump { s with dl := begun i false s.dl })) ∧
      (∀ k : SegNo, s.dl.nextSeq ≤ 4294967295 → noRoom →
        s.dl.segs[s.dl.lastOpened + 1 + k].state = .ERASED →
        (∀ j : SegNo, j < k → s.dl.segs[s.dl.lastOpened + 1 + j].state ≠ .ERASED) →
        let i := s.dl.lastOpened + 1 + k
        let opened := if s.ck.isSet then some s.ck.count else none
        ∃ t : State, exec .appendServe s = .next (pump t) ∧
          t.dl = begun i true { s.dl with segs := t.dl.segs, lastOpened := i } ∧
          t.dl.segs[i] = ⟨.ACTIVE, opened, [], none, false⟩ ∧
          (∀ j : SegNo, j ≠ i → t.dl.segs[j] =
            if s.dl.active = some j then { s.dl.segs[j] with state := .CLOSED, reason := some .FILLED, exported := false }
            else s.dl.segs[j]) ∧
          t.dv.notices = (if t.dl.erased ≤ 2 ∨ s.dv.pending .DL .SPACE = true then
            putNotice ⟨.DL, .SPACE, spaceFields { t.dl with writing := none }⟩ s.dv.notices else s.dv.notices) ∧
          LinkKept s t ∧
          t.ck = s.ck ∧ t.dt = s.dt ∧ t.cp = s.cp ∧ t.bays = s.bays ∧ t.ts = s.ts ∧ t.st = s.st) ∧
      (4294967295 < s.dl.nextSeq ∨ (noRoom ∧ ∀ i : SegNo, s.dl.segs[i].state ≠ .ERASED) →
        ∃ t : State, exec .appendServe s = .next (pump t) ∧ t.dl.refused = min 65535 (s.dl.refused + 1) ∧
          (∃ more, t.dl = { s.dl with queue := q ++ more, refused := t.dl.refused } ∧
            ((∀ x ∈ q, x.source ≠ a.source) → more = (t.outbox a.source).head?.toList.map fun r => ⟨a.source, r⟩) ∧
            ((∃ x ∈ q, x.source = a.source) → more = [])) ∧
          LinkKept s t ∧
          (let n1 := match a.source with
             | .B b => putNotice ⟨.B b, .STATE, stateFields (t.bay b) "LOG_FULL"⟩ s.dv.notices
             | .DT => putNotice ⟨.DT, .TRIP, tripFields t.dt⟩ s.dv.notices
             | .ST => putNotice ⟨.ST, .APPLIED, [fld "RESULT" "APPLIED",
                 fld "CHANGED" (sectionsText (sectionsOf a.record)), fld "RECORD" "LOG_FULL"]⟩ s.dv.notices
             | _ => s.dv.notices
           let n2 := putNotice ⟨.DL, .SPACE, spaceFields t.dl⟩ n1
           t.dv.notices = match a.record.body with
             | .DAY_CLOSE _ => putNotice ⟨.DL, .DAY, fld "RESULT" "LOG_FULL" :: dayFields s.dl.day⟩ n2
             | _ => n2) ∧
          t.cp = s.cp ∧ t.ts = s.ts ∧ ((∀ b : Bay, a.source ≠ .B b) → a.source ≠ .DT → t.dt = s.dt) ∧
          (∀ b : Bay, a.source = .B b → t.dt = match a.record.body with
            | .DISPATCH d => { s.dt with drivers := s.dt.drivers.map fun y =>
                if y.num = d.drv ∧ y.status = .AT_BAY b then { y with pend := false } else y }
            | _ => s.dt) ∧
          (a.source ≠ .CK → t.ck = s.ck) ∧ (a.source = .CK → t.ck = { s.ck with outbox := s.ck.outbox.drop 1 }) ∧
          (a.source ≠ .ST → t.st = s.st) ∧ (a.source = .ST → t.st = { s.st with outbox := none }) ∧
          (a.source = .DT → t.dt = { s.dt with outbox := s.dt.outbox.drop 1, logfull := min 65535 (s.dt.logfull + 1) }) ∧
          (∀ b : Bay, a.source ≠ .B b → t.bay b = s.bay b) ∧
          (∀ b : Bay, a.source = .B b → t.bay b = { s.bay b with
            logfull := min 65535 ((s.bay b).logfull + 1), outbox := (s.bay b).outbox.drop 1,
            state := if isDispatch a.record ∧ (s.bay b).state = .DISPATCHING then .ASSIGNED else (s.bay b).state }))

/-- A record whose write completes stands last in its segment with its sequence number and its check, its day count
rises, and its source lets it go and posts its next record: a DISPATCHING bay is DISPATCHED, with its document RELEASED
and its driver ON_TRIP on a new DRIVE entry, and STATE raised with reason DEPARTED, or LATE_DISPATCH and the record's
document where the bay is no longer DISPATCHING; a DAY_CLOSE sets the day counts to 0, closes the segment with reason
DAY and is told by DAY with its number, the segment's first and last and the counts it carries; a written SETTINGS
record is told by APPLIED with its number. The fields of LATE_DISPATCH and of CHANGED are the model's choice (log 18,
log 45). That the row changes nothing while nothing is being written, and that the completion stands where the driver's
list then comes to more than 32 entries, are the model's choices (log 3, log 40). -/
def Obligations.WritesComplete : Prop :=
  ∀ s : State, s.supply = true →
    (s.dl.writing = none → exec .appendWriteComplete s = .next (pump s)) ∧
    ∀ w, s.dl.writing = some w →
      let placed := s.dl.segs[w.seg].records ++ [⟨w.seq, w.record, some (recordCheck w.seq w.record)⟩]
      ∃ t : State, exec .appendWriteComplete s = .next (pump t) ∧
        (∃ more, t.dl = { s.dl with segs := t.dl.segs, day := t.dl.day, writing := none, queue := s.dl.queue ++ more } ∧
          ((∀ a ∈ s.dl.queue, a.source ≠ w.source) →
            more = (t.outbox w.source).head?.toList.map fun r => ⟨w.source, r⟩) ∧
          ((∃ a ∈ s.dl.queue, a.source = w.source) → more = [])) ∧
        t.dl.segs[w.seg].records = placed ∧ (∀ j : SegNo, j ≠ w.seg → t.dl.segs[j] = s.dl.segs[j]) ∧
        (∀ n, w.record.body = .DAY_CLOSE n →
          t.dl.segs[w.seg] = { s.dl.segs[w.seg] with
            records := placed, state := .CLOSED, reason := some .DAY, exported := false } ∧
          t.dl.day = DayCounts.zero) ∧
        ((∀ n, w.record.body ≠ .DAY_CLOSE n) →
          t.dl.segs[w.seg] = { s.dl.segs[w.seg] with records := placed } ∧ t.dl.day = countRecord w.record.body s.dl.day) ∧
        LinkKept s t ∧
        (let g := t.dl.segs[w.seg]
         let n1 := match w.source, w.record.body with
           | .B b, .DISPATCH d => putNotice ⟨.B b, .STATE,
               if (s.bay b).state = .DISPATCHING then stateFields (t.bay b) "DEPARTED"
               else stateFields { t.bay b with doc := some d.doc } "LATE_DISPATCH"⟩ s.dv.notices
           | .ST, _ => putNotice ⟨.ST, .APPLIED, [fld "RESULT" "APPLIED",
               fld "CHANGED" (sectionsText (sectionsOf w.record)), fld "RECORD" "WRITTEN", fld "SEQ" (dec w.seq)]⟩
               s.dv.notices
           | _, _ => s.dv.notices
         t.dv.notices = match w.record.body with
           | .DAY_CLOSE n => putNotice ⟨.DL, .DAY, [fld "RESULT" "WRITTEN", fld "SEQ" (dec w.seq),
               fld "SEG" (segText w.seg)] ++ fldIf g.first "FIRST" dec ++ fldIf g.last "LAST" dec ++ dayFields n⟩ n1
           | _ => n1) ∧
        t.ts = s.ts ∧ ((∀ b : Bay, w.source ≠ .B b) → t.cp = s.cp ∧ (w.source ≠ .DT → t.dt = s.dt)) ∧
        (w.source = .CK → t.ck = { s.ck with outbox := s.ck.outbox.drop 1 }) ∧
        (w.source ≠ .CK → t.ck = s.ck) ∧ (w.source = .ST → t.st = { s.st with outbox := none }) ∧
        (w.source ≠ .ST → t.st = s.st) ∧
        (w.source = .DT → t.dt = { s.dt with outbox := s.dt.outbox.drop 1 }) ∧
        (∀ b : Bay, w.source ≠ .B b → t.bay b = s.bay b) ∧
        (∀ b : Bay, w.source = .B b →
          t.bay b = { s.bay b with
            outbox := (s.bay b).outbox.drop 1,
            state := if isDispatch w.record ∧ (s.bay b).state = .DISPATCHING then .DISPATCHED else (s.bay b).state,
            release := if isDispatch w.record ∧ (s.bay b).state = .DISPATCHING then false else (s.bay b).release } ∧
          ((∀ d, w.record.body ≠ .DISPATCH d) → t.cp = s.cp ∧ t.dt = s.dt) ∧
          ∀ d, w.record.body = .DISPATCH d →
            t.cp = { s.cp with docs := s.cp.docs.map fun x =>
              if x.num = d.doc ∧ x.state = .BOUND b then { x with state := .RELEASED, stack := [] } else x } ∧
            t.dt = { s.dt with drivers := s.dt.drivers.map fun y =>
              if y.num = d.drv ∧ y.status = .AT_BAY b ∧ y.pend = true then { y with
                status := .ON_TRIP, pend := false, trip := some d.doc,
                list := s.pruned (openEntry s.nowMin .DRIVE (closeOpen s.nowMin y.list)) } else y })

/-- OPEN sets the cursor to a segment's first sequence number or to a readable number; READ returns the record there,
four items at a time, and moves on, over a gap to the next readable number, and stays at the end. Each access occupies
the store until its end. -/
def Obligations.TheCursorReadsTheLog : Prop :=
  (∀ (h : Hdr) (s : State), Ready h s → s.dl.scan = false →
    let at' : Nat → Nat → State := fun n p =>
      { s with supv := h.supv, dl := { s.dl with cursor := some ⟨n, p⟩, accesses := s.dl.accesses + 1 } }
    let refused := fun a => Answers h "DL" a (underKey h s)
    (∀ i : SegNo,
      let g := s.dl.segs[i]
      (g.state ≠ .ACTIVE → g.state ≠ .CLOSED → exec (.dlOpenSeg h (some (i.val + 1))) s = refused (er .STATE)) ∧
      (g.state = .ACTIVE ∨ g.state = .CLOSED →
        (g.records = [] → exec (.dlOpenSeg h (some (i.val + 1))) s = refused (er .NOT_FOUND)) ∧
        (∀ x xs, g.records = x :: xs → exec (.dlOpenSeg h (some (i.val + 1))) s =
          Answers h "DL" (ok (fld "SEG" (segText i) :: segMarks g)) (at' x.seq 0)))) ∧
    (∀ n, 1 ≤ n → n ≤ 4294967295 →
      ((∀ p ∈ s.dl.readable, p.2.seq ≠ n) → exec (.dlOpenSeq h (some n)) s = refused (er .NOT_FOUND)) ∧
      (∀ i r, s.dl.readable.find? (fun p => p.2.seq == n) = some (i, r) → exec (.dlOpenSeq h (some n)) s =
        Answers h "DL" (ok ([fld "SEQ" (dec n), fld "SEG" (segText i)] ++ if r.complete then [] else [bare "TORN"]))
          (at' n 0))) ∧
    (s.dl.cursor = none → exec (.dlRead h (some ())) s = refused (er .STATE)) ∧
    ∀ c, s.dl.cursor = some c →
      (∀ i r, s.dl.readable.find? (fun p => p.2.seq == c.seq) = some (i, r) →
        (r.complete = true →
          (c.pos + 4 < bodyCount r.record.body → exec (.dlRead h (some ())) s =
            Answers h "DL" (ok (recordFields i r c.pos ++ [bare "MORE"])) (at' r.seq (c.pos + 4))) ∧
          (bodyCount r.record.body ≤ c.pos + 4 → exec (.dlRead h (some ())) s =
            Answers h "DL" (ok (recordFields i r c.pos)) (at' (r.seq + 1) 0))) ∧
        (r.complete = false → exec (.dlRead h (some ())) s =
          Answers h "DL" (ok [bare "TORN", fld "SEQ" (dec r.seq), fld "SEG" (segText i)]) (at' (r.seq + 1) 0))) ∧
      ((∀ p ∈ s.dl.readable, p.2.seq < c.seq) → exec (.dlRead h (some ())) s =
        Answers h "DL" (ok [bare "END", fld "SEQ" (dec c.seq)]) (at' c.seq c.pos)) ∧
      (∀ i r, (∀ p ∈ s.dl.readable, p.2.seq ≠ c.seq) → (s.dl.readable.map fun p => p.2.seq).Nodup →
        (i, r) ∈ s.dl.readable → c.seq < r.seq → (∀ p ∈ s.dl.readable, c.seq < p.2.seq → r.seq ≤ p.2.seq) →
        r.complete = true → bodyCount r.record.body ≤ 4 → exec (.dlRead h (some ())) s =
          Answers h "DL" (ok (recordFields i r 0 ++ [fld "GAP" (dec (r.seq - c.seq))])) (at' (r.seq + 1) 0))) ∧
  ∀ s : State, s.supply = true →
    exec .storeAccessEnd s = .next (pump { s with dl := { s.dl with accesses := s.dl.accesses - 1 } })

/-- EXPORTED marks a CLOSED segment; RECLAIM, under the key, puts an exported CLOSED or a DAMAGED segment into
RECLAIMING with 800 ms of work and raises the high mark to the last number taken; the work done, with the store free,
the segment is ERASED and RECLAIM is raised; a SPACE notice that waits follows the counts of both. That a record being
written has not yet surely taken its number, that the segment keeps its records until the erase ends, and that the row
acts whatever work remains, and not while the store is occupied, are the model's choices (log 42, log 30, log 3). -/
def Obligations.ExportAndReclaim : Prop :=
  (∀ (h : Hdr) (i : SegNo) (s : State), Ready h s → s.dl.scan = false →
    let g := s.dl.segs[i]
    let refused := fun a => Answers h "DL" a (underKey h s)
    let out := exec (.dlReclaim h (some (i.val + 1))) s
    (g.state ≠ .CLOSED → exec (.dlExported h (some (i.val + 1))) s = refused (er .STATE)) ∧
    (g.state = .CLOSED → exec (.dlExported h (some (i.val + 1))) s =
      Answers h "DL" (ok (fld "SEG" (segText i) :: segMarks g))
        { s with supv := h.supv, dl := { s.dl with segs := s.dl.segs.set i { g with exported := true } } }) ∧
    (h.supv = false → out = refused (er .KEY_REQUIRED)) ∧
    (h.supv = true →
      (g.state ≠ .CLOSED → g.state ≠ .DAMAGED → out = refused (er .STATE)) ∧
      (g.state = .CLOSED → g.exported = false → out = refused (er .NOT_EXPORTED)) ∧
      ((g.state = .CLOSED ∧ g.exported = true) ∨ g.state = .DAMAGED →
        ((∃ j : SegNo, s.dl.segs[j].state = .RECLAIMING) → out = refused (er .BUSY)) ∧
        ((∀ j : SegNo, s.dl.segs[j].state ≠ .RECLAIMING) →
          ∃ t : State, out = Answers h "DL" (ok [fld "SEG" (segText i), fld "WORK" "800"]) t ∧
            t.dl = { s.dl with segs := s.dl.segs.set i { g with state := .RECLAIMING },
                               highMark := t.dl.highMark, reclaim := some ⟨i, 800⟩ } ∧
            (s.dl.writing = none → t.dl.highMark = max s.dl.highMark (s.dl.nextSeq - 1)) ∧
            (s.dl.writing ≠ none → t.dl.highMark = max s.dl.highMark (s.dl.nextSeq - 2)) ∧
            t.dv = { s.dv with log := decide (∃ j : SegNo, t.dl.segs[j].state = .DAMAGED), notices := t.dv.notices,
                               attnPulse := t.dv.attnPulse } ∧
            (let ns := toldFault s.dv t.dv s.dv.notices
             t.dv.notices = if s.dv.pending .DL .SPACE = true then putNotice ⟨.DL, .SPACE, spaceFields t.dl⟩ ns
               else ns) ∧
            t.pending = s.pending ∧ t.supply = s.supply ∧ t.fresh = s.fresh ∧
            t.ck = s.ck ∧ t.dt = s.dt ∧ t.cp = s.cp ∧ t.bays = s.bays ∧ t.ts = s.ts ∧ t.st = s.st)))) ∧
  ∀ (r : Reclaim) (s : State), s.supply = true → s.dl.reclaim = some r →
    (s.dl.writing ≠ none ∨ s.dl.accesses ≠ 0 → exec .reclaimComplete s = .next (pump s)) ∧
    (s.dl.writing = none → s.dl.accesses = 0 →
      ∃ t : State, exec .reclaimComplete s = .next (pump t) ∧
        t.dl = { s.dl with segs := s.dl.segs.set r.seg ⟨.ERASED, none, [], none, false⟩, reclaim := none } ∧
        (let ns := putNotice ⟨.DL, .RECLAIM, [fld "RESULT" "ERASED", fld "SEG" (segText r.seg),
           fld "ERASED" (dec t.dl.erased), fld "DAMAGED" (dec t.dl.damaged)]⟩ s.dv.notices
         t.dv.notices = if s.dv.pending .DL .SPACE = true then putNotice ⟨.DL, .SPACE, spaceFields t.dl⟩ ns else ns) ∧
        LinkKept s t ∧
        t.ck = s.ck ∧ t.dt = s.dt ∧ t.cp = s.cp ∧ t.bays = s.bays ∧ t.ts = s.ts ∧ t.st = s.st)

/-- The scan's end: an interrupted reclaim leaves its segment DAMAGED and is told, an ACTIVE segment behind a DAY_CLOSE
is closed, the next sequence number is above every number kept and the high mark, refusals and cursor start afresh, and
the LOG component follows the DAMAGED segments. SPACE is told where two ERASED segments or fewer are left. That a
DAMAGED segment holds no records, and that the row changes nothing while no scan runs, are the model's choices (log 30,
log 3). -/
def Obligations.TheScanFindsTheNextNumber : Prop :=
  ∀ s : State, s.supply = true →
    (s.dl.scan = false → exec .scanEnd s = .next (pump s)) ∧
    (s.dl.scan = true → ∃ t : State, exec .scanEnd s = .next (pump t) ∧ t.dl.scan = false ∧
      (∀ i : SegNo, t.dl.segs[i] =
        match s.dl.segs[i].state with
        | .RECLAIMING => ⟨.DAMAGED, none, [], none, false⟩
        | .ACTIVE =>
          if s.dl.segs[i].endsDay then { s.dl.segs[i] with state := .CLOSED, reason := some .DAY, exported := false }
          else s.dl.segs[i]
        | _ => s.dl.segs[i]) ∧
      s.dl.highMark < t.dl.nextSeq ∧ (∀ p ∈ t.dl.readable, p.2.seq < t.dl.nextSeq) ∧
      (t.dl.nextSeq = s.dl.highMark + 1 ∨ ∃ p ∈ t.dl.readable, t.dl.nextSeq = p.2.seq + 1) ∧
      (s.dl.countsFromStore = false → (∀ i : SegNo, s.dl.segs[i].state = .ACTIVE → s.dl.segs[i].endsDay = false) →
        t.dl.day = s.dl.day) ∧
      t.dl.refused = 0 ∧ t.dl.cursor = none ∧ t.dl.reclaim = none ∧ t.dl.queue = s.dl.queue ∧
      t.dl.writing = s.dl.writing ∧ t.dl.highMark = s.dl.highMark ∧
      t.dv = { s.dv with log := decide (∃ i : SegNo, t.dl.segs[i].state = .DAMAGED), notices := t.dv.notices,
                         attnPulse := t.dv.attnPulse } ∧
      (let n1 := toldFault s.dv t.dv s.dv.notices
       let space := fun ns => if t.dl.erased ≤ 2 then putNotice ⟨.DL, .SPACE, spaceFields t.dl⟩ ns else ns
       ((∀ i : SegNo, s.dl.segs[i].state ≠ .RECLAIMING) → t.dv.notices = space n1) ∧
       ∀ i : SegNo, s.dl.segs[i].state = .RECLAIMING → (∀ j : SegNo, j < i → s.dl.segs[j].state ≠ .RECLAIMING) →
         t.dv.notices = space (putNotice ⟨.DL, .RECLAIM, [fld "RESULT" "INTERRUPTED", fld "SEG" (segText i),
           fld "ERASED" (dec t.dl.erased), fld "DAMAGED" (dec t.dl.damaged)]⟩ n1)) ∧
      t.pending = s.pending ∧ t.supply = s.supply ∧ t.fresh = s.fresh ∧
      t.ck = s.ck ∧ t.dt = s.dt ∧ t.cp = s.cp ∧ t.bays = s.bays ∧ t.ts = s.ts ∧ t.st = s.st)

/-! ## Settings (10_settings_and_supervisor_key.md) -/

/-- Every SET writes its fields into the staging copy alone, clamped where its rule says so, and is refused with RANGE
or, while an apply runs, with BUSY; a product is replaced in its place or added at the tail of a table that is not full,
a pair writes both its entries. DISCARD makes the staging copy the applied one. The reply to a DELETE is the model's
choice (log 18). -/
def Obligations.SetsWriteTheStagingCopy : Prop :=
  ∀ (h : Hdr) (s : State), Ready h s →
    let g := s.st.staging
    let busy := s.st.apply ≠ none
    let free := s.st.apply = none
    let refused := fun a => Answers h "ST" a (underKey h s)
    let staged : Section → List Fld → Settings → Host.Outcome State Fault Refusal := fun x fs c =>
      Answers h "ST" (ok (bare (sectionText x) :: fs)) { s with supv := h.supv, st := { s.st with staging := c } }
    (busy → exec (.stDiscard h (some ())) s = refused (er .BUSY)) ∧
    (free → exec (.stDiscard h (some ())) s = Answers h "ST" (ok [fld "CHANGED" "NONE"])
      { s with supv := h.supv, st := { s.st with staging := s.st.applied } }) ∧
    (∀ a k pg x, a.cls = some k → a.pg = some pg → a.group = some x →
      let p : Product := ⟨a.code, a.un, k, pg, x, a.aCold, a.bCold, a.aHot, a.bHot⟩
      let legal := 1 ≤ a.un ∧ a.un ≤ 3599 ∧ a.aCold ≤ 30000 ∧ a.aHot ≤ 30000 ∧ a.bCold ≤ 255 ∧ a.bHot ≤ 255
      let out := exec (.stSetProduct h (some a)) s
      (¬legal → out = refused (er .RANGE)) ∧ (legal → busy → out = refused (er .BUSY)) ∧
      (legal → free →
        ((∃ y ∈ g.products, y.code = a.code) →
          out = staged .PRODUCT (productFields p)
            { g with products := g.products.map fun y => if y.code = a.code then p else y }) ∧
        ((∀ y ∈ g.products, y.code ≠ a.code) →
          (g.products.length < 24 →
            out = staged .PRODUCT (productFields p) { g with products := g.products ++ [p] }) ∧
          (24 ≤ g.products.length → out = refused (er .TABLE_FULL))))) ∧
    (∀ c, (busy → exec (.stSetProductDelete h (some c)) s = refused (er .BUSY)) ∧
      (free → (∀ y ∈ g.products, y.code ≠ c) → exec (.stSetProductDelete h (some c)) s = refused (er .NOT_FOUND)) ∧
      (free → (∃ y ∈ g.products, y.code = c) → exec (.stSetProductDelete h (some c)) s =
        staged .PRODUCT [fld "CODE" c, bare "DELETE"] { g with products := g.products.filter fun y => y.code != c })) ∧
    (∀ x y e, (busy → exec (.stSetSegregation h (some ⟨some x, some y, some e⟩)) s = refused (er .BUSY)) ∧
      (free → ∃ c : Settings, exec (.stSetSegregation h (some ⟨some x, some y, some e⟩)) s =
          staged .SEGREGATION [fld "PAIR" (groupText x ++ "," ++ groupText y), fld "ENTRY" (entryText e)] c ∧
        c = { g with matrix := c.matrix } ∧ ∀ u v : Group, c.segEntry u v =
          if (u = x ∧ v = y) ∨ (u = y ∧ v = x) then e else g.segEntry u v)) ∧
    (∀ (i : Bay) (en : Option Bool) (f step pause : Option Nat),
      let out := exec (.stSetBay h (some ⟨i.val + 1, en.map some, f, step, pause⟩)) s
      let e := g.bays[i]
      ((∃ n ∈ f, n < 5000 ∨ 20000 < n) → out = refused (er .RANGE)) ∧
      ((∀ n ∈ f, 5000 ≤ n ∧ n ≤ 20000) → busy → out = refused (er .BUSY)) ∧
      ((∀ n ∈ f, 5000 ≤ n ∧ n ≤ 20000) → free →
        out = staged .BAY ([fld "N" (dec (i.val + 1))] ++ fldIf en "ENABLE" yesNo ++ fldIf f "F" dec ++
            fldIf step "STEP" (fun n => dec (max 200 (min 5000 n))) ++ fldIf pause "PAUSE" fun n => dec (max 1 (min 60 n)))
          { g with bays := g.bays.set i ⟨en.getD e.enabled, f.getD e.factor,
            (step.map fun n => max 200 (min 5000 n)).getD e.step, (pause.map fun n => max 1 (min 60 n)).getD e.pause⟩ })) ∧
    (∀ a,
      let legal := (∀ n ∈ a.dDay, 240 ≤ n ∧ n ≤ 720) ∧ (∀ n ∈ a.dCont, 120 ≤ n ∧ n ≤ 360) ∧
        (∀ n ∈ a.bMin, 15 ≤ n ∧ n ≤ 90) ∧ (∀ n ∈ a.rDaily, 480 ≤ n ∧ n ≤ 720) ∧
        (∀ n ∈ a.dWeek, 1800 ≤ n ∧ n ≤ 4200) ∧ ∀ n ∈ a.sSpan, 600 ≤ n ∧ n ≤ 960
      (¬legal → exec (.stSetHours h (some a)) s = refused (er .RANGE)) ∧
      (legal → busy → exec (.stSetHours h (some a)) s = refused (er .BUSY)) ∧
      (legal → free → ∃ fs, exec (.stSetHours h (some a)) s = staged .HOURS fs
        { g with hours := ⟨a.dDay.getD g.hours.dDay, a.dCont.getD g.hours.dCont, a.bMin.getD g.hours.bMin,
          a.rDaily.getD g.hours.rDaily, a.dWeek.getD g.hours.dWeek, a.sSpan.getD g.hours.sSpan,
          (a.margin.map (min 120)).getD g.hours.margin⟩ })) ∧
    (∀ a,
      let legal := (∀ n ∈ a.abs, 1 ≤ n ∧ n ≤ 100) ∧ ∀ n ∈ a.permille, n ≤ 20
      (¬legal → exec (.stSetTolerance h (some a)) s = refused (er .RANGE)) ∧
      (legal → busy → exec (.stSetTolerance h (some a)) s = refused (er .BUSY)) ∧
      (legal → free → exec (.stSetTolerance h (some a)) s =
        staged .TOLERANCE (fldIf a.abs "ABS" dec ++ fldIf a.permille "PERMILLE" dec)
          { g with tol := ⟨a.abs.getD g.tol.abs, a.permille.getD g.tol.permille⟩ })) ∧
    (∀ d, (6 < d → exec (.stSetCalendar h (some d)) s = refused (er .RANGE)) ∧
      (d ≤ 6 → busy → exec (.stSetCalendar h (some d)) s = refused (er .BUSY)) ∧
      (d ≤ 6 → free → exec (.stSetCalendar h (some d)) s =
        staged .CALENDAR [fld "WEEKSTART" (dec d)] { g with weekStart := d })) ∧
    (∀ m, (m ≠ 1 → m ≠ 10 → exec (.stSetSampler h (some m)) s = refused (er .RANGE)) ∧
      (m = 1 ∨ m = 10 → busy → exec (.stSetSampler h (some m)) s = refused (er .BUSY)) ∧
      (m = 1 ∨ m = 10 → free → exec (.stSetSampler h (some m)) s =
        staged .SAMPLER [fld "PERIOD" (dec m)] { g with period := m })) ∧
    ∀ m, (busy → exec (.stSetLink h (some (some m))) s = refused (er .BUSY)) ∧
      (free → exec (.stSetLink h (some (some m))) s = staged .LINK [fld "ATTN" (attnText m)] { g with attn := m })

/-- APPLY, under the key, begins 200 ms of work when no changed bay entry belongs to a bay in use and no product in use
changes: none whose identity or coefficients would change on a meter, none whose identity would change on a document.
Its completion repeats the tests and either is abandoned with the copies as they were or commits the staging copy: it is
the applied copy and the store, the fault component clears, IDLE and CLOSED bays follow their entries and tell it, a
shorter calibration period that has passed makes a calibration due, and a SETTINGS record and APPLIED list the changed
sections. That the completion acts whatever work remains and changes nothing while no apply runs, what CHANGED says of a
refused apply, and of an apply that changes no section, and the order of its sections, are the model's choices (log 3,
log 43, log 45, log 48). -/
def Obligations.ApplyCommitsTheStagingCopy : Prop :=
  (∀ s : State, activeBay s = none ↔ ∀ b : Bay, (s.bay b).state ≠ .IDLE → (s.bay b).state ≠ .CLOSED →
    s.st.applied.bays[b] = s.st.staging.bays[b] ∧
      ((s.bay b).state = .DISPATCHING → s.st.applied.weekStart = s.st.staging.weekStart ∧
        s.st.applied.hours.rDaily = s.st.staging.hours.rDaily)) ∧
  (∀ s : State, (productInUse s = none ↔ ∀ p ∈ s.st.applied.products, ¬ProductBusy s p) ∧
    ∀ pre p post, s.st.applied.products = pre ++ p :: post → (∀ q ∈ pre, ¬ProductBusy s q) → ProductBusy s p →
      productInUse s = some p) ∧
  (∀ (h : Hdr) (s : State), Ready h s →
    let out := exec (.stApply h (some ())) s
    let refused := fun a => Answers h "ST" a (underKey h s)
    (s.st.apply ≠ none ∨ s.st.outbox ≠ none → out = refused (er .BUSY)) ∧
    (s.st.apply = none → s.st.outbox = none →
      (h.supv = false → out = refused (er .KEY_REQUIRED)) ∧
      (h.supv = true →
        (∀ b, activeBay s = some b → out = refused (er .BAY_ACTIVE [fld "BAY" (bayText b)])) ∧
        (activeBay s = none →
          (∀ p, productInUse s = some p → out = refused (er .PRODUCT_IN_USE [fld "PROD" p.code])) ∧
          (productInUse s = none → out =
            Answers h "ST" (ok [fld "CHANGED" (sectionsText s.changed), fld "WORK" "200"])
              { s with supv := h.supv, st := { s.st with apply := some 200 } }))))) ∧
  ∀ s : State, s.supply = true →
    (s.st.apply = none → exec .applyComplete s = .next (pump s)) ∧
    (s.st.apply ≠ none →
      (∀ code fs, applyRefusal s = some (code, fs) →
        exec .applyComplete s = .next (pump (raise .ST .APPLIED
          ([fld "RESULT" "REFUSED", fld "CHANGED" (sectionsText (changedSections s.st.applied s.st.staging)),
            fld "CODE" (codeText code)] ++ fs)
          { s with st := { s.st with apply := none } }))) ∧
      (applyRefusal s = none →
        ∃ t : State, exec .applyComplete s = .next (pump t) ∧
          t.st = ⟨s.st.staging, true, s.st.staging, s.st.staging, none, false,
            some ⟨s.stamp, .SETTINGS (changedSections s.st.applied s.st.staging)⟩⟩ ∧
          t.dv = { s.dv with settings := false, notices := t.dv.notices, attnPulse := t.dv.attnPulse } ∧
          (⟨.ST, .APPLIED, [fld "RESULT" "APPLIED",
            fld "CHANGED" (sectionsText (changedSections s.st.applied s.st.staging)), fld "RECORD" "PENDING"]⟩ : Notice) ∈
            t.dv.notices ∧
          (s.dv.settings = true → s.dv.pending .DV .FAULT = true →
            (⟨.DV, .FAULT, faultFields t.dv⟩ : Notice) ∈ t.dv.notices) ∧
          t.pending = s.pending ∧ t.supply = s.supply ∧ t.fresh = s.fresh ∧
          (∀ b : Bay, (t.bay b).state ≠ (s.bay b).state →
            (⟨.B b, .STATE, stateFields (t.bay b) "APPLY"⟩ : Notice) ∈ t.dv.notices) ∧
          (∀ b : Bay,
            ((s.bay b).state = .IDLE → s.st.staging.bays[b].enabled = false →
              t.bay b = { s.bay b with state := .CLOSED, release := false }) ∧
            ((s.bay b).state = .CLOSED → s.st.staging.bays[b].enabled = true →
              t.bay b = { s.bay b with state := .IDLE, stray := 0, release := false }) ∧
            ((s.bay b).state = .IDLE ∨ (s.bay b).state = .CLOSED →
              ((s.bay b).state = .IDLE ↔ s.st.staging.bays[b].enabled = true) → t.bay b = s.bay b) ∧
            ((s.bay b).state ≠ .IDLE → (s.bay b).state ≠ .CLOSED → t.bay b = s.bay b)) ∧
          Posted .ST s t ∧
          t.ts = (if s.st.staging.period ≠ s.st.applied.period ∧
              ∃ n ∈ s.ts.sinceCal, 60000 * s.st.staging.period ≤ n then
            { s.ts with due := true, conv := if s.ts.conv = .FREE then .CAL else s.ts.conv } else s.ts) ∧
          t.ck = s.ck ∧ t.dt = s.dt ∧ t.cp = s.cp))

/-! ## Invariants -/

/-- The queues, the pending notices and the rejection counts of the link keep to their bounds, the transmitter is free
only when it has nothing it may send, and a line waits only while DV may not take it. -/
def Obligations.TheLinkKeepsItsBounds : Prop :=
  ∀ s t : State, LinkBounds s → LinkLive s → step s = .next t → LinkBounds t ∧ LinkLive t

/-- Each RELEASE output stays active exactly under its four conditions while the supply is present, and inactive without
it (the model's reading, log 5). -/
def Obligations.ReleaseFollowsItsConditions : Prop :=
  ∀ s t : State, ReleaseDriven s → step s = .next t → ReleaseDriven t

/-- The three copies of the settings stay within their ranges, with no product twice and a symmetric matrix, the
calibration codes in force stay codes that a calibration accepts, and the day-close match stays within its ranges. -/
def Obligations.SettingsAndCalibrationStayLegal : Prop :=
  (∀ s t : State, AllSettingsLegal s → step s = .next t → AllSettingsLegal t) ∧
  (∀ s t : State, CalibrationValid s.ts → step s = .next t → CalibrationValid t.ts) ∧
  ∀ s t : State, MatchLegal s.ck → step s = .next t → MatchLegal t.ck

/-- The document table and the duty table keep to their places with no number twice, and every count stays at or below
its ceiling. -/
def Obligations.TablesAndCountsStayBounded : Prop :=
  (∀ s t : State, TablesBounded s → step s = .next t → TablesBounded t) ∧
  ∀ s t : State, CountersInRange s → step s = .next t → CountersInRange t

/-- No sequence number is given twice: in the store each number stands once and below the next to be given; a record is
begun with the next number and enters the store with the number it was begun with; a record leaves the store only with
its number under the high mark, which never falls and stays below the next number. At most one segment is ACTIVE and one
RECLAIMING, and each source has at most one append at the log. What the state keeps of RECLAIMING and DAMAGED segments
is the model's choice (log 30), as is the number of a write cut off before its first slot (log 42). -/
def Obligations.SequenceNumbersAreNeverReused : Prop :=
  ∀ s t : State, LogNumbered s → step s = .next t → LogNumbered t ∧ NumbersKept s.dl t.dl

/-- Each bay with a load has one document bound to it and one driver at it, no two bays the same, and every document or
driver bound to a bay is the one that bay holds. -/
def Obligations.BindingsStayOneToOne : Prop :=
  ∀ s t : State, Bindings s → step s = .next t → Bindings t

/-- The invariants hold in the state after reset. The contents of the stores at reset are the model's choice (log
6). -/
def Obligations.TheInvariantsHoldAtReset : Prop :=
  LinkBounds State.reset ∧ LinkLive State.reset ∧ ReleaseDriven State.reset ∧ CalibrationValid State.reset.ts ∧
    AllSettingsLegal State.reset ∧ MatchLegal State.reset.ck ∧ TablesBounded State.reset ∧
    CountersInRange State.reset ∧ LogNumbered State.reset ∧ Bindings State.reset
end

