-- ==== Sys2Proof/Laws/State.lean ====
section
/-! SUPPORT. Laws/State.lean: what each update of one unit leaves in each field of State: one lemma per field and
update, true by unfolding, so that no later proof unfolds a record update. -/

namespace Sys2Proof.Machine

/-! ## modDv -/

@[simp] theorem State.pending_modDv (s : State) (f : Dv → Dv) : (s.modDv f).pending = s.pending := rfl
@[simp] theorem State.supply_modDv (s : State) (f : Dv → Dv) : (s.modDv f).supply = s.supply := rfl
@[simp] theorem State.supv_modDv (s : State) (f : Dv → Dv) : (s.modDv f).supv = s.supv := rfl
@[simp] theorem State.fresh_modDv (s : State) (f : Dv → Dv) : (s.modDv f).fresh = s.fresh := rfl
@[simp] theorem State.dv_modDv (s : State) (f : Dv → Dv) : (s.modDv f).dv = f s.dv := rfl
@[simp] theorem State.ck_modDv (s : State) (f : Dv → Dv) : (s.modDv f).ck = s.ck := rfl
@[simp] theorem State.dt_modDv (s : State) (f : Dv → Dv) : (s.modDv f).dt = s.dt := rfl
@[simp] theorem State.cp_modDv (s : State) (f : Dv → Dv) : (s.modDv f).cp = s.cp := rfl
@[simp] theorem State.bays_modDv (s : State) (f : Dv → Dv) : (s.modDv f).bays = s.bays := rfl
@[simp] theorem State.ts_modDv (s : State) (f : Dv → Dv) : (s.modDv f).ts = s.ts := rfl
@[simp] theorem State.dl_modDv (s : State) (f : Dv → Dv) : (s.modDv f).dl = s.dl := rfl
@[simp] theorem State.st_modDv (s : State) (f : Dv → Dv) : (s.modDv f).st = s.st := rfl

/-! ## modCk -/

@[simp] theorem State.pending_modCk (s : State) (f : Ck → Ck) : (s.modCk f).pending = s.pending := rfl
@[simp] theorem State.supply_modCk (s : State) (f : Ck → Ck) : (s.modCk f).supply = s.supply := rfl
@[simp] theorem State.supv_modCk (s : State) (f : Ck → Ck) : (s.modCk f).supv = s.supv := rfl
@[simp] theorem State.fresh_modCk (s : State) (f : Ck → Ck) : (s.modCk f).fresh = s.fresh := rfl
@[simp] theorem State.dv_modCk (s : State) (f : Ck → Ck) : (s.modCk f).dv = s.dv := rfl
@[simp] theorem State.ck_modCk (s : State) (f : Ck → Ck) : (s.modCk f).ck = f s.ck := rfl
@[simp] theorem State.dt_modCk (s : State) (f : Ck → Ck) : (s.modCk f).dt = s.dt := rfl
@[simp] theorem State.cp_modCk (s : State) (f : Ck → Ck) : (s.modCk f).cp = s.cp := rfl
@[simp] theorem State.bays_modCk (s : State) (f : Ck → Ck) : (s.modCk f).bays = s.bays := rfl
@[simp] theorem State.ts_modCk (s : State) (f : Ck → Ck) : (s.modCk f).ts = s.ts := rfl
@[simp] theorem State.dl_modCk (s : State) (f : Ck → Ck) : (s.modCk f).dl = s.dl := rfl
@[simp] theorem State.st_modCk (s : State) (f : Ck → Ck) : (s.modCk f).st = s.st := rfl

/-! ## modDt -/

@[simp] theorem State.pending_modDt (s : State) (f : Dt → Dt) : (s.modDt f).pending = s.pending := rfl
@[simp] theorem State.supply_modDt (s : State) (f : Dt → Dt) : (s.modDt f).supply = s.supply := rfl
@[simp] theorem State.supv_modDt (s : State) (f : Dt → Dt) : (s.modDt f).supv = s.supv := rfl
@[simp] theorem State.fresh_modDt (s : State) (f : Dt → Dt) : (s.modDt f).fresh = s.fresh := rfl
@[simp] theorem State.dv_modDt (s : State) (f : Dt → Dt) : (s.modDt f).dv = s.dv := rfl
@[simp] theorem State.ck_modDt (s : State) (f : Dt → Dt) : (s.modDt f).ck = s.ck := rfl
@[simp] theorem State.dt_modDt (s : State) (f : Dt → Dt) : (s.modDt f).dt = f s.dt := rfl
@[simp] theorem State.cp_modDt (s : State) (f : Dt → Dt) : (s.modDt f).cp = s.cp := rfl
@[simp] theorem State.bays_modDt (s : State) (f : Dt → Dt) : (s.modDt f).bays = s.bays := rfl
@[simp] theorem State.ts_modDt (s : State) (f : Dt → Dt) : (s.modDt f).ts = s.ts := rfl
@[simp] theorem State.dl_modDt (s : State) (f : Dt → Dt) : (s.modDt f).dl = s.dl := rfl
@[simp] theorem State.st_modDt (s : State) (f : Dt → Dt) : (s.modDt f).st = s.st := rfl

/-! ## modCp -/

@[simp] theorem State.pending_modCp (s : State) (f : Cp → Cp) : (s.modCp f).pending = s.pending := rfl
@[simp] theorem State.supply_modCp (s : State) (f : Cp → Cp) : (s.modCp f).supply = s.supply := rfl
@[simp] theorem State.supv_modCp (s : State) (f : Cp → Cp) : (s.modCp f).supv = s.supv := rfl
@[simp] theorem State.fresh_modCp (s : State) (f : Cp → Cp) : (s.modCp f).fresh = s.fresh := rfl
@[simp] theorem State.dv_modCp (s : State) (f : Cp → Cp) : (s.modCp f).dv = s.dv := rfl
@[simp] theorem State.ck_modCp (s : State) (f : Cp → Cp) : (s.modCp f).ck = s.ck := rfl
@[simp] theorem State.dt_modCp (s : State) (f : Cp → Cp) : (s.modCp f).dt = s.dt := rfl
@[simp] theorem State.cp_modCp (s : State) (f : Cp → Cp) : (s.modCp f).cp = f s.cp := rfl
@[simp] theorem State.bays_modCp (s : State) (f : Cp → Cp) : (s.modCp f).bays = s.bays := rfl
@[simp] theorem State.ts_modCp (s : State) (f : Cp → Cp) : (s.modCp f).ts = s.ts := rfl
@[simp] theorem State.dl_modCp (s : State) (f : Cp → Cp) : (s.modCp f).dl = s.dl := rfl
@[simp] theorem State.st_modCp (s : State) (f : Cp → Cp) : (s.modCp f).st = s.st := rfl

/-! ## modTs -/

@[simp] theorem State.pending_modTs (s : State) (f : Ts → Ts) : (s.modTs f).pending = s.pending := rfl
@[simp] theorem State.supply_modTs (s : State) (f : Ts → Ts) : (s.modTs f).supply = s.supply := rfl
@[simp] theorem State.supv_modTs (s : State) (f : Ts → Ts) : (s.modTs f).supv = s.supv := rfl
@[simp] theorem State.fresh_modTs (s : State) (f : Ts → Ts) : (s.modTs f).fresh = s.fresh := rfl
@[simp] theorem State.dv_modTs (s : State) (f : Ts → Ts) : (s.modTs f).dv = s.dv := rfl
@[simp] theorem State.ck_modTs (s : State) (f : Ts → Ts) : (s.modTs f).ck = s.ck := rfl
@[simp] theorem State.dt_modTs (s : State) (f : Ts → Ts) : (s.modTs f).dt = s.dt := rfl
@[simp] theorem State.cp_modTs (s : State) (f : Ts → Ts) : (s.modTs f).cp = s.cp := rfl
@[simp] theorem State.bays_modTs (s : State) (f : Ts → Ts) : (s.modTs f).bays = s.bays := rfl
@[simp] theorem State.ts_modTs (s : State) (f : Ts → Ts) : (s.modTs f).ts = f s.ts := rfl
@[simp] theorem State.dl_modTs (s : State) (f : Ts → Ts) : (s.modTs f).dl = s.dl := rfl
@[simp] theorem State.st_modTs (s : State) (f : Ts → Ts) : (s.modTs f).st = s.st := rfl

/-! ## modDl -/

@[simp] theorem State.pending_modDl (s : State) (f : Dl → Dl) : (s.modDl f).pending = s.pending := rfl
@[simp] theorem State.supply_modDl (s : State) (f : Dl → Dl) : (s.modDl f).supply = s.supply := rfl
@[simp] theorem State.supv_modDl (s : State) (f : Dl → Dl) : (s.modDl f).supv = s.supv := rfl
@[simp] theorem State.fresh_modDl (s : State) (f : Dl → Dl) : (s.modDl f).fresh = s.fresh := rfl
@[simp] theorem State.dv_modDl (s : State) (f : Dl → Dl) : (s.modDl f).dv = s.dv := rfl
@[simp] theorem State.ck_modDl (s : State) (f : Dl → Dl) : (s.modDl f).ck = s.ck := rfl
@[simp] theorem State.dt_modDl (s : State) (f : Dl → Dl) : (s.modDl f).dt = s.dt := rfl
@[simp] theorem State.cp_modDl (s : State) (f : Dl → Dl) : (s.modDl f).cp = s.cp := rfl
@[simp] theorem State.bays_modDl (s : State) (f : Dl → Dl) : (s.modDl f).bays = s.bays := rfl
@[simp] theorem State.ts_modDl (s : State) (f : Dl → Dl) : (s.modDl f).ts = s.ts := rfl
@[simp] theorem State.dl_modDl (s : State) (f : Dl → Dl) : (s.modDl f).dl = f s.dl := rfl
@[simp] theorem State.st_modDl (s : State) (f : Dl → Dl) : (s.modDl f).st = s.st := rfl

/-! ## modSt -/

@[simp] theorem State.pending_modSt (s : State) (f : St → St) : (s.modSt f).pending = s.pending := rfl
@[simp] theorem State.supply_modSt (s : State) (f : St → St) : (s.modSt f).supply = s.supply := rfl
@[simp] theorem State.supv_modSt (s : State) (f : St → St) : (s.modSt f).supv = s.supv := rfl
@[simp] theorem State.fresh_modSt (s : State) (f : St → St) : (s.modSt f).fresh = s.fresh := rfl
@[simp] theorem State.dv_modSt (s : State) (f : St → St) : (s.modSt f).dv = s.dv := rfl
@[simp] theorem State.ck_modSt (s : State) (f : St → St) : (s.modSt f).ck = s.ck := rfl
@[simp] theorem State.dt_modSt (s : State) (f : St → St) : (s.modSt f).dt = s.dt := rfl
@[simp] theorem State.cp_modSt (s : State) (f : St → St) : (s.modSt f).cp = s.cp := rfl
@[simp] theorem State.bays_modSt (s : State) (f : St → St) : (s.modSt f).bays = s.bays := rfl
@[simp] theorem State.ts_modSt (s : State) (f : St → St) : (s.modSt f).ts = s.ts := rfl
@[simp] theorem State.dl_modSt (s : State) (f : St → St) : (s.modSt f).dl = s.dl := rfl
@[simp] theorem State.st_modSt (s : State) (f : St → St) : (s.modSt f).st = f s.st := rfl

/-! ## setBay and modBay -/

@[simp] theorem State.pending_setBay (s : State) (b : Bay) (u : BayUnit) : (s.setBay b u).pending = s.pending := rfl
@[simp] theorem State.supply_setBay (s : State) (b : Bay) (u : BayUnit) : (s.setBay b u).supply = s.supply := rfl
@[simp] theorem State.supv_setBay (s : State) (b : Bay) (u : BayUnit) : (s.setBay b u).supv = s.supv := rfl
@[simp] theorem State.fresh_setBay (s : State) (b : Bay) (u : BayUnit) : (s.setBay b u).fresh = s.fresh := rfl
@[simp] theorem State.dv_setBay (s : State) (b : Bay) (u : BayUnit) : (s.setBay b u).dv = s.dv := rfl
@[simp] theorem State.ck_setBay (s : State) (b : Bay) (u : BayUnit) : (s.setBay b u).ck = s.ck := rfl
@[simp] theorem State.dt_setBay (s : State) (b : Bay) (u : BayUnit) : (s.setBay b u).dt = s.dt := rfl
@[simp] theorem State.cp_setBay (s : State) (b : Bay) (u : BayUnit) : (s.setBay b u).cp = s.cp := rfl
@[simp] theorem State.ts_setBay (s : State) (b : Bay) (u : BayUnit) : (s.setBay b u).ts = s.ts := rfl
@[simp] theorem State.dl_setBay (s : State) (b : Bay) (u : BayUnit) : (s.setBay b u).dl = s.dl := rfl
@[simp] theorem State.st_setBay (s : State) (b : Bay) (u : BayUnit) : (s.setBay b u).st = s.st := rfl

@[simp] theorem State.pending_modBay (s : State) (b : Bay) (f : BayUnit → BayUnit) : (s.modBay b f).pending = s.pending := rfl
@[simp] theorem State.supply_modBay (s : State) (b : Bay) (f : BayUnit → BayUnit) : (s.modBay b f).supply = s.supply := rfl
@[simp] theorem State.supv_modBay (s : State) (b : Bay) (f : BayUnit → BayUnit) : (s.modBay b f).supv = s.supv := rfl
@[simp] theorem State.fresh_modBay (s : State) (b : Bay) (f : BayUnit → BayUnit) : (s.modBay b f).fresh = s.fresh := rfl
@[simp] theorem State.dv_modBay (s : State) (b : Bay) (f : BayUnit → BayUnit) : (s.modBay b f).dv = s.dv := rfl
@[simp] theorem State.ck_modBay (s : State) (b : Bay) (f : BayUnit → BayUnit) : (s.modBay b f).ck = s.ck := rfl
@[simp] theorem State.dt_modBay (s : State) (b : Bay) (f : BayUnit → BayUnit) : (s.modBay b f).dt = s.dt := rfl
@[simp] theorem State.cp_modBay (s : State) (b : Bay) (f : BayUnit → BayUnit) : (s.modBay b f).cp = s.cp := rfl
@[simp] theorem State.ts_modBay (s : State) (b : Bay) (f : BayUnit → BayUnit) : (s.modBay b f).ts = s.ts := rfl
@[simp] theorem State.dl_modBay (s : State) (b : Bay) (f : BayUnit → BayUnit) : (s.modBay b f).dl = s.dl := rfl
@[simp] theorem State.st_modBay (s : State) (b : Bay) (f : BayUnit → BayUnit) : (s.modBay b f).st = s.st := rfl

@[simp] theorem State.bays_setBay (s : State) (b : Bay) (u : BayUnit) : (s.setBay b u).bays = s.bays.set b u := rfl

/-- A bay that was set reads as set. -/
@[simp] theorem State.bay_setBay_self (s : State) (b : Bay) (u : BayUnit) : (s.setBay b u).bay b = u := by
  simp [State.bay]

/-- Every other bay reads as before. -/
theorem State.bay_setBay_ne (s : State) (b c : Bay) (u : BayUnit) (h : b ≠ c) : (s.setBay b u).bay c = s.bay c := by
  have : (b : Nat) ≠ c := fun e => h (Fin.ext e)
  simp [State.bay, Vector.getElem_set_ne, this]

@[simp] theorem State.bay_modBay_self (s : State) (b : Bay) (f : BayUnit → BayUnit) :
    (s.modBay b f).bay b = f (s.bay b) := by
  simp [State.modBay]

theorem State.bay_modBay_ne (s : State) (b c : Bay) (f : BayUnit → BayUnit) (h : b ≠ c) :
    (s.modBay b f).bay c = s.bay c := State.bay_setBay_ne s b c _ h

/-! ## Bays under updates of other units -/

@[simp] theorem State.bay_modDv (s : State) (f : Dv → Dv) (b : Bay) : (s.modDv f).bay b = s.bay b := rfl
@[simp] theorem State.bay_modCk (s : State) (f : Ck → Ck) (b : Bay) : (s.modCk f).bay b = s.bay b := rfl
@[simp] theorem State.bay_modDt (s : State) (f : Dt → Dt) (b : Bay) : (s.modDt f).bay b = s.bay b := rfl
@[simp] theorem State.bay_modCp (s : State) (f : Cp → Cp) (b : Bay) : (s.modCp f).bay b = s.bay b := rfl
@[simp] theorem State.bay_modTs (s : State) (f : Ts → Ts) (b : Bay) : (s.modTs f).bay b = s.bay b := rfl
@[simp] theorem State.bay_modDl (s : State) (f : Dl → Dl) (b : Bay) : (s.modDl f).bay b = s.bay b := rfl
@[simp] theorem State.bay_modSt (s : State) (f : St → St) (b : Bay) : (s.modSt f).bay b = s.bay b := rfl

/-! ## Updates of the four fields that are no unit -/

@[simp] theorem State.pending_with_supv (s : State) (x : Bool) : State.pending { s with supv := x } = s.pending := rfl
@[simp] theorem State.supply_with_supv (s : State) (x : Bool) : State.supply { s with supv := x } = s.supply := rfl
@[simp] theorem State.fresh_with_supv (s : State) (x : Bool) : State.fresh { s with supv := x } = s.fresh := rfl
@[simp] theorem State.dv_with_supv (s : State) (x : Bool) : State.dv { s with supv := x } = s.dv := rfl
@[simp] theorem State.ck_with_supv (s : State) (x : Bool) : State.ck { s with supv := x } = s.ck := rfl
@[simp] theorem State.dt_with_supv (s : State) (x : Bool) : State.dt { s with supv := x } = s.dt := rfl
@[simp] theorem State.cp_with_supv (s : State) (x : Bool) : State.cp { s with supv := x } = s.cp := rfl
@[simp] theorem State.bays_with_supv (s : State) (x : Bool) : State.bays { s with supv := x } = s.bays := rfl
@[simp] theorem State.ts_with_supv (s : State) (x : Bool) : State.ts { s with supv := x } = s.ts := rfl
@[simp] theorem State.dl_with_supv (s : State) (x : Bool) : State.dl { s with supv := x } = s.dl := rfl
@[simp] theorem State.st_with_supv (s : State) (x : Bool) : State.st { s with supv := x } = s.st := rfl

@[simp] theorem State.supply_with_pending (s : State) (x : List Instr) : State.supply { s with pending := x } = s.supply := rfl
@[simp] theorem State.supv_with_pending (s : State) (x : List Instr) : State.supv { s with pending := x } = s.supv := rfl
@[simp] theorem State.fresh_with_pending (s : State) (x : List Instr) : State.fresh { s with pending := x } = s.fresh := rfl
@[simp] theorem State.dv_with_pending (s : State) (x : List Instr) : State.dv { s with pending := x } = s.dv := rfl
@[simp] theorem State.ck_with_pending (s : State) (x : List Instr) : State.ck { s with pending := x } = s.ck := rfl
@[simp] theorem State.dt_with_pending (s : State) (x : List Instr) : State.dt { s with pending := x } = s.dt := rfl
@[simp] theorem State.cp_with_pending (s : State) (x : List Instr) : State.cp { s with pending := x } = s.cp := rfl
@[simp] theorem State.bays_with_pending (s : State) (x : List Instr) : State.bays { s with pending := x } = s.bays := rfl
@[simp] theorem State.ts_with_pending (s : State) (x : List Instr) : State.ts { s with pending := x } = s.ts := rfl
@[simp] theorem State.dl_with_pending (s : State) (x : List Instr) : State.dl { s with pending := x } = s.dl := rfl
@[simp] theorem State.st_with_pending (s : State) (x : List Instr) : State.st { s with pending := x } = s.st := rfl

end Sys2Proof.Machine
end

