-- ==== Sys2Proof/Laws/Basic.lean ====
section
/-! SUPPORT. Laws/Basic.lean: what the shared operations can do: counts, notices, the transmitter, the append queue and
the changes of a bay, each said once. -/

namespace Sys2Proof.Laws.Basic

open Sys2Proof Sys2Proof.Machine

/-! ## Arithmetic -/

/-- Handing on a number in evaluated form changes nothing. -/
theorem strict_eq {α : Type} (n : Nat) (k : Nat → α) : strict n k = k n := by cases n <;> rfl

theorem satAdd_le (cap n k : Nat) : satAdd cap n k ≤ cap := Nat.min_le_left _ _

theorem clamp_mem (lo hi n : Nat) (h : lo ≤ hi) : lo ≤ clamp lo hi n ∧ clamp lo hi n ≤ hi := by
  unfold clamp; omega

/-! ## Notices (R8) -/

theorem pairs_putNotice_pending (n : Notice) (l : List Notice) (h : Notice.pair n ∈ l.map Notice.pair) :
    (putNotice n l).map Notice.pair = l.map Notice.pair := by
  induction l with
  | nil => simp at h
  | cons m ms ih =>
    by_cases e : m.unit = n.unit ∧ m.kind = n.kind
    · simp [putNotice, e, Notice.pair]
    · have hn : Notice.pair n ≠ Notice.pair m := fun q => e ⟨(congrArg Prod.fst q).symm, (congrArg Prod.snd q).symm⟩
      have hm : Notice.pair n ∈ ms.map Notice.pair := by
        rw [List.map_cons] at h
        exact (List.mem_cons.1 h).resolve_left hn
      simp [putNotice, e, ih hm]

theorem putNotice_new (n : Notice) (l : List Notice) (h : Notice.pair n ∉ l.map Notice.pair) : putNotice n l = l ++ [n] := by
  induction l with
  | nil => rfl
  | cons m ms ih =>
    have e : ¬(m.unit = n.unit ∧ m.kind = n.kind) := fun q => h (by simp [Notice.pair, q.1, q.2])
    have hm : Notice.pair n ∉ ms.map Notice.pair := fun q => h (by simp at q ⊢; exact Or.inr q)
    simp [putNotice, e, ih hm]

/-- A raise keeps one notice for each pair of unit and kind (R8). -/
theorem putNotice_nodup (n : Notice) (l : List Notice) (h : (l.map Notice.pair).Nodup) : ((putNotice n l).map Notice.pair).Nodup := by
  by_cases e : Notice.pair n ∈ l.map Notice.pair
  · rw [pairs_putNotice_pending n l e]; exact h
  · rw [putNotice_new n l e, List.map_append]
    refine List.nodup_append.2 ⟨h, by simp, ?_⟩
    intro a ha b hb
    simp only [List.map_cons, List.map_nil, List.mem_singleton] at hb
    intro q; exact e (hb ▸ q ▸ ha)

/-- A raised notice is pending with its new content. -/
theorem mem_putNotice (n : Notice) (l : List Notice) : n ∈ putNotice n l := by
  induction l with
  | nil => simp [putNotice]
  | cons m ms ih =>
    unfold putNotice
    split <;> simp [ih]

/-! ## Raising: only the notices and the pulse of ATTN change -/

section
variable (u : UnitName) (k : NKind) (fs : List Fld) (c : Bool) (s : State)

@[simp] theorem pending_raise : (raise u k fs s).pending = s.pending := rfl
@[simp] theorem supply_raise : (raise u k fs s).supply = s.supply := rfl
@[simp] theorem supv_raise : (raise u k fs s).supv = s.supv := rfl
@[simp] theorem fresh_raise : (raise u k fs s).fresh = s.fresh := rfl
@[simp] theorem ck_raise : (raise u k fs s).ck = s.ck := rfl
@[simp] theorem dt_raise : (raise u k fs s).dt = s.dt := rfl
@[simp] theorem cp_raise : (raise u k fs s).cp = s.cp := rfl
@[simp] theorem bays_raise : (raise u k fs s).bays = s.bays := rfl
@[simp] theorem ts_raise : (raise u k fs s).ts = s.ts := rfl
@[simp] theorem dl_raise : (raise u k fs s).dl = s.dl := rfl
@[simp] theorem st_raise : (raise u k fs s).st = s.st := rfl

@[simp] theorem pending_raiseIf : (raiseIf c u k fs s).pending = s.pending := by unfold raiseIf; split <;> rfl
@[simp] theorem supply_raiseIf : (raiseIf c u k fs s).supply = s.supply := by unfold raiseIf; split <;> rfl
@[simp] theorem supv_raiseIf : (raiseIf c u k fs s).supv = s.supv := by unfold raiseIf; split <;> rfl
@[simp] theorem fresh_raiseIf : (raiseIf c u k fs s).fresh = s.fresh := by unfold raiseIf; split <;> rfl
@[simp] theorem ck_raiseIf : (raiseIf c u k fs s).ck = s.ck := by unfold raiseIf; split <;> rfl
@[simp] theorem dt_raiseIf : (raiseIf c u k fs s).dt = s.dt := by unfold raiseIf; split <;> rfl
@[simp] theorem cp_raiseIf : (raiseIf c u k fs s).cp = s.cp := by unfold raiseIf; split <;> rfl
@[simp] theorem bays_raiseIf : (raiseIf c u k fs s).bays = s.bays := by unfold raiseIf; split <;> rfl
@[simp] theorem ts_raiseIf : (raiseIf c u k fs s).ts = s.ts := by unfold raiseIf; split <;> rfl
@[simp] theorem dl_raiseIf : (raiseIf c u k fs s).dl = s.dl := by unfold raiseIf; split <;> rfl
@[simp] theorem st_raiseIf : (raiseIf c u k fs s).st = s.st := by unfold raiseIf; split <;> rfl
@[simp] theorem bay_raise (b : Bay) : (raise u k fs s).bay b = s.bay b := rfl
@[simp] theorem bay_raiseIf (b : Bay) : (raiseIf c u k fs s).bay b = s.bay b := by unfold raiseIf; split <;> rfl
end

/-- A raise replaces the link's notices and its pulse, and nothing else of the link. -/
theorem dv_raise (u : UnitName) (k : NKind) (fs : List Fld) (s : State) :
    (raise u k fs s).dv = { s.dv with notices := putNotice ⟨u, k, fs⟩ s.dv.notices,
                                      attnPulse := s.dv.attnPulse || s.st.applied.attn == .PULSE } := rfl

/-! ## The transmitter (R7) -/

/-- The transmitter moves a line to the wire, or does nothing. -/
theorem pump_cases (s : State) :
    pump s = s ∨
    (∃ r rs, s.dv.wire = none ∧ s.dv.replies = r :: rs ∧
      pump s = s.modDv fun d => { d with wire := some (.reply r), replies := rs }) ∨
    (∃ n ns, s.dv.wire = none ∧ s.dv.replies = [] ∧ s.dv.mode = .PUSH ∧ s.dv.resetWait = false ∧ s.dv.notices = n :: ns ∧
      pump s = s.modDv fun d => { d with wire := some (.notice n), notices := ns }) := by
  unfold pump
  split
  · exact Or.inl rfl
  · rename_i hw
    split
    · rename_i r rs hr
      exact Or.inr (Or.inl ⟨r, rs, hw, hr, rfl⟩)
    · rename_i hr
      split
      · rename_i hm
        split
        · rename_i n ns hn
          exact Or.inr (Or.inr ⟨n, ns, hw, hr, hm.1, hm.2, hn, rfl⟩)
        · exact Or.inl rfl
      · exact Or.inl rfl

/-- While a line is on the wire the transmitter does nothing. -/
theorem pump_busy (s : State) (l : TxLine) (h : s.dv.wire = some l) : pump s = s := by simp [pump, h]

section
variable (s : State)
@[simp] theorem pending_pump : (pump s).pending = s.pending := by
  rcases pump_cases s with h | ⟨_, _, _, _, h⟩ | ⟨_, _, _, _, _, _, _, h⟩ <;> simp [h]
@[simp] theorem supply_pump : (pump s).supply = s.supply := by
  rcases pump_cases s with h | ⟨_, _, _, _, h⟩ | ⟨_, _, _, _, _, _, _, h⟩ <;> simp [h]
@[simp] theorem supv_pump : (pump s).supv = s.supv := by
  rcases pump_cases s with h | ⟨_, _, _, _, h⟩ | ⟨_, _, _, _, _, _, _, h⟩ <;> simp [h]
@[simp] theorem fresh_pump : (pump s).fresh = s.fresh := by
  rcases pump_cases s with h | ⟨_, _, _, _, h⟩ | ⟨_, _, _, _, _, _, _, h⟩ <;> simp [h]
@[simp] theorem ck_pump : (pump s).ck = s.ck := by
  rcases pump_cases s with h | ⟨_, _, _, _, h⟩ | ⟨_, _, _, _, _, _, _, h⟩ <;> simp [h]
@[simp] theorem dt_pump : (pump s).dt = s.dt := by
  rcases pump_cases s with h | ⟨_, _, _, _, h⟩ | ⟨_, _, _, _, _, _, _, h⟩ <;> simp [h]
@[simp] theorem cp_pump : (pump s).cp = s.cp := by
  rcases pump_cases s with h | ⟨_, _, _, _, h⟩ | ⟨_, _, _, _, _, _, _, h⟩ <;> simp [h]
@[simp] theorem bays_pump : (pump s).bays = s.bays := by
  rcases pump_cases s with h | ⟨_, _, _, _, h⟩ | ⟨_, _, _, _, _, _, _, h⟩ <;> simp [h]
@[simp] theorem ts_pump : (pump s).ts = s.ts := by
  rcases pump_cases s with h | ⟨_, _, _, _, h⟩ | ⟨_, _, _, _, _, _, _, h⟩ <;> simp [h]
@[simp] theorem dl_pump : (pump s).dl = s.dl := by
  rcases pump_cases s with h | ⟨_, _, _, _, h⟩ | ⟨_, _, _, _, _, _, _, h⟩ <;> simp [h]
@[simp] theorem st_pump : (pump s).st = s.st := by
  rcases pump_cases s with h | ⟨_, _, _, _, h⟩ | ⟨_, _, _, _, _, _, _, h⟩ <;> simp [h]
@[simp] theorem bay_pump (b : Bay) : (pump s).bay b = s.bay b := by simp [State.bay]
end

/-! ## Fault components (R13): the link alone changes -/

section
variable (g : Dv → Dv) (s : State)
@[simp] theorem ck_setComponents : (setComponents g s).ck = s.ck := by simp [setComponents]
@[simp] theorem dt_setComponents : (setComponents g s).dt = s.dt := by simp [setComponents]
@[simp] theorem cp_setComponents : (setComponents g s).cp = s.cp := by simp [setComponents]
@[simp] theorem bays_setComponents : (setComponents g s).bays = s.bays := by simp [setComponents]
@[simp] theorem ts_setComponents : (setComponents g s).ts = s.ts := by simp [setComponents]
@[simp] theorem dl_setComponents : (setComponents g s).dl = s.dl := by simp [setComponents]
@[simp] theorem st_setComponents : (setComponents g s).st = s.st := by simp [setComponents]
@[simp] theorem supply_setComponents : (setComponents g s).supply = s.supply := by simp [setComponents]
@[simp] theorem pending_setComponents : (setComponents g s).pending = s.pending := by simp [setComponents]
@[simp] theorem supv_setComponents : (setComponents g s).supv = s.supv := by simp [setComponents]
end

/-! ## Posts (R174): the append queue alone changes -/

/-- A post adds at most one append, at the tail, of a source that had none pending. -/
theorem postFrom_cases (src : LogSource) (s : State) :
    postFrom src s = s ∨
    (∃ r rs, s.dl.hasAppend src = false ∧ s.outbox src = r :: rs ∧
      postFrom src s = s.modDl fun d => { d with queue := d.queue ++ [⟨src, r⟩] }) := by
  unfold postFrom
  split
  · exact Or.inl rfl
  · rename_i h
    split
    · rename_i r rs hr
      exact Or.inr ⟨r, rs, by simpa using h, hr, rfl⟩
    · exact Or.inl rfl

section
variable (src : LogSource) (s : State)
@[simp] theorem dv_postFrom : (postFrom src s).dv = s.dv := by
  rcases postFrom_cases src s with h | ⟨_, _, _, _, h⟩ <;> simp [h]
@[simp] theorem ck_postFrom : (postFrom src s).ck = s.ck := by
  rcases postFrom_cases src s with h | ⟨_, _, _, _, h⟩ <;> simp [h]
@[simp] theorem dt_postFrom : (postFrom src s).dt = s.dt := by
  rcases postFrom_cases src s with h | ⟨_, _, _, _, h⟩ <;> simp [h]
@[simp] theorem cp_postFrom : (postFrom src s).cp = s.cp := by
  rcases postFrom_cases src s with h | ⟨_, _, _, _, h⟩ <;> simp [h]
@[simp] theorem bays_postFrom : (postFrom src s).bays = s.bays := by
  rcases postFrom_cases src s with h | ⟨_, _, _, _, h⟩ <;> simp [h]
@[simp] theorem ts_postFrom : (postFrom src s).ts = s.ts := by
  rcases postFrom_cases src s with h | ⟨_, _, _, _, h⟩ <;> simp [h]
@[simp] theorem st_postFrom : (postFrom src s).st = s.st := by
  rcases postFrom_cases src s with h | ⟨_, _, _, _, h⟩ <;> simp [h]
@[simp] theorem supply_postFrom : (postFrom src s).supply = s.supply := by
  rcases postFrom_cases src s with h | ⟨_, _, _, _, h⟩ <;> simp [h]
@[simp] theorem supv_postFrom : (postFrom src s).supv = s.supv := by
  rcases postFrom_cases src s with h | ⟨_, _, _, _, h⟩ <;> simp [h]
@[simp] theorem pending_postFrom : (postFrom src s).pending = s.pending := by
  rcases postFrom_cases src s with h | ⟨_, _, _, _, h⟩ <;> simp [h]
end

/-! ## Changes of a bay (R112, R113) -/

/-- The bay becomes `f` of itself with RELEASE driven by its conditions; every other bay stays. -/
theorem bays_changeBay (b : Bay) (reason : String) (lines : Bool) (o : NoticeOrder) (f : BayUnit → BayUnit) (s : State) :
    (changeBay b reason lines o f s).bays = s.bays.set b (f (s.bay b)).drive := by
  cases o <;> simp [changeBay]

@[simp] theorem bay_changeBay_self (b : Bay) (reason : String) (lines : Bool) (o : NoticeOrder) (f : BayUnit → BayUnit)
    (s : State) : (changeBay b reason lines o f s).bay b = (f (s.bay b)).drive := by
  simp [State.bay, bays_changeBay]

theorem bay_changeBay_ne (b c : Bay) (reason : String) (lines : Bool) (o : NoticeOrder) (f : BayUnit → BayUnit) (s : State)
    (h : b ≠ c) : (changeBay b reason lines o f s).bay c = s.bay c := by
  have : (b : Nat) ≠ c := fun e => h (Fin.ext e)
  simp [State.bay, bays_changeBay, Vector.getElem_set_ne, this]

section
variable (b : Bay) (reason : String) (lines : Bool) (o : NoticeOrder) (f : BayUnit → BayUnit) (s : State)
@[simp] theorem ck_changeBay : (changeBay b reason lines o f s).ck = s.ck := by cases o <;> simp [changeBay]
@[simp] theorem dt_changeBay : (changeBay b reason lines o f s).dt = s.dt := by cases o <;> simp [changeBay]
@[simp] theorem cp_changeBay : (changeBay b reason lines o f s).cp = s.cp := by cases o <;> simp [changeBay]
@[simp] theorem ts_changeBay : (changeBay b reason lines o f s).ts = s.ts := by cases o <;> simp [changeBay]
@[simp] theorem dl_changeBay : (changeBay b reason lines o f s).dl = s.dl := by cases o <;> simp [changeBay]
@[simp] theorem st_changeBay : (changeBay b reason lines o f s).st = s.st := by cases o <;> simp [changeBay]
@[simp] theorem supply_changeBay : (changeBay b reason lines o f s).supply = s.supply := by cases o <;> simp [changeBay]
@[simp] theorem supv_changeBay : (changeBay b reason lines o f s).supv = s.supv := by cases o <;> simp [changeBay]
@[simp] theorem pending_changeBay : (changeBay b reason lines o f s).pending = s.pending := by cases o <;> simp [changeBay]
end

@[simp] theorem fresh_changeBay (b : Bay) (reason : String) (lines : Bool) (o : NoticeOrder) (f : BayUnit → BayUnit)
    (s : State) : (changeBay b reason lines o f s).fresh = s.fresh := by cases o <;> simp [changeBay]

@[simp] theorem fresh_postFrom (src : LogSource) (s : State) : (postFrom src s).fresh = s.fresh := by
  rcases postFrom_cases src s with h | ⟨_, _, _, _, h⟩ <;> simp [h]

/-- A raise, made or not, leaves the link but for its notices and its pulse. -/
theorem dv_raiseIf (c : Bool) (u : UnitName) (k : NKind) (fs : List Fld) (s : State) :
    (raiseIf c u k fs s).dv = { s.dv with notices := (raiseIf c u k fs s).dv.notices,
                                          attnPulse := (raiseIf c u k fs s).dv.attnPulse } := by
  cases c <;> rfl

@[simp] theorem notices_raise (u : UnitName) (k : NKind) (fs : List Fld) (s : State) :
    (raise u k fs s).dv.notices = putNotice ⟨u, k, fs⟩ s.dv.notices := rfl

@[simp] theorem notices_raiseIf (c : Bool) (u : UnitName) (k : NKind) (fs : List Fld) (s : State) :
    (raiseIf c u k fs s).dv.notices = if c then putNotice ⟨u, k, fs⟩ s.dv.notices else s.dv.notices := by
  cases c <;> rfl

/-- A change of a bay leaves the link but for its notices and its pulse. -/
theorem dv_changeBay (b : Bay) (reason : String) (lines : Bool) (o : NoticeOrder) (f : BayUnit → BayUnit) (s : State) :
    (changeBay b reason lines o f s).dv =
      { s.dv with notices := (changeBay b reason lines o f s).dv.notices,
                  attnPulse := (changeBay b reason lines o f s).dv.attnPulse } := by
  cases o <;>
    (simp only [changeBay]; rw [dv_raiseIf, dv_raiseIf (s := raiseIf _ _ _ _ _), dv_raiseIf (s := State.setBay _ _ _)]; rfl)

/-- The notices of a change of a bay, STATE first. -/
theorem notices_changeBay_first (b : Bay) (reason : String) (lines : Bool) (f : BayUnit → BayUnit) (s : State) :
    (changeBay b reason lines .stateFirst f s).dv.notices =
      let v := (f (s.bay b)).drive
      let n1 := if (s.bay b).state != v.state then putNotice ⟨.B b, .STATE, stateFields v reason⟩ s.dv.notices
        else s.dv.notices
      let n2 := if lines then putNotice ⟨.B b, .LINES, linesFields v⟩ n1 else n1
      if (s.bay b).holds != v.holds then putNotice ⟨.B b, .HOLD, holdFields v⟩ n2 else n2 := by
  simp [changeBay]

/-- The notices of a change of a bay, STATE last. -/
theorem notices_changeBay_last (b : Bay) (reason : String) (lines : Bool) (f : BayUnit → BayUnit) (s : State) :
    (changeBay b reason lines .stateLast f s).dv.notices =
      let v := (f (s.bay b)).drive
      let n1 := if lines then putNotice ⟨.B b, .LINES, linesFields v⟩ s.dv.notices else s.dv.notices
      let n2 := if (s.bay b).holds != v.holds then putNotice ⟨.B b, .HOLD, holdFields v⟩ n1 else n1
      if (s.bay b).state != v.state then putNotice ⟨.B b, .STATE, stateFields v reason⟩ n2 else n2 := by
  simp [changeBay]

/-- RELEASE is driven active only when it may be (R112). -/
theorem drive_release (u : BayUnit) : u.drive.release = u.drive.mayRelease := by
  simp [BayUnit.drive, BayUnit.mayRelease]

end Sys2Proof.Laws.Basic
end

