-- ==== Sys2Proof/Laws/Log.lean ====
section
/-! SUPPORT. Laws/Log.lean: what a start that cuts off a write or a scan leaves of the log, and the bound of the number
that a RECLAIM counts as taken. -/

namespace Sys2Proof.Laws.Log

open Sys2Proof Sys2Proof.Machine

/-- One segment changes. -/
theorem segs_modSeg (i j : SegNo) (f : Segment → Segment) (d : Dl) :
    (modSeg i f d).segs[j] = if i = j then f d.segs[i] else d.segs[j] := by
  simp [modSeg, Vector.getElem_set, Fin.ext_iff]

/-- Nothing but the segments changes. -/
theorem modSeg_frame (i : SegNo) (f : Segment → Segment) (d : Dl) :
    modSeg i f d = { d with segs := (modSeg i f d).segs } := rfl

/-- A write that is cut off leaves its mark in the segments alone, and is over. -/
theorem cutAppend_frame (cut : CutPoint) (d : Dl) :
    cutAppend cut d = { d with segs := (cutAppend cut d).segs, writing := none } := by
  rcases hw : d.writing with _ | w
  · simp only [cutAppend, hw]; rw [← hw]
  · cases cut <;> simp only [cutAppend, hw, placeRecord, modSeg]
    split <;> rfl

theorem cutAppend_idle (cut : CutPoint) (d : Dl) (h : d.writing = none) : cutAppend cut d = d := by simp [cutAppend, h]

/-- A second scan of a segment finds what the first left. -/
theorem scanSegment_idem (g : Segment) : scanSegment (scanSegment g) = scanSegment g := by
  rcases h : g.state <;> simp only [scanSegment, h]
  by_cases hd : g.endsDay = true <;> simp [hd, h, closeSeg]

/-- The segments written are scanned, the others stand. -/
theorem segs_scanFold (w : List SegNo) (d : Dl) (i : SegNo) :
    (w.foldl (fun e j => modSeg j scanSegment e) d).segs[i] = if i ∈ w then scanSegment d.segs[i] else d.segs[i] := by
  induction w generalizing d with
  | nil => simp
  | cons j w ih =>
    rw [List.foldl_cons, ih, segs_modSeg]
    by_cases hj : j = i
    · subst hj; by_cases hw : j ∈ w <;> simp [hw, scanSegment_idem]
    · by_cases hw : i ∈ w <;> simp [hw, hj, Ne.symm hj]

theorem cutScan_idle (w : List SegNo) (d : Dl) (h : d.scan = false) : cutScan w d = d := by simp [cutScan, h]

/-- Of a running scan that is cut off, the segments it had written stand as the scan sets them (R187, R188). -/
theorem segs_cutScan (w : List SegNo) (d : Dl) (i : SegNo) (h : d.scan = true) :
    (cutScan w d).segs[i] = if i ∈ w then scanSegment d.segs[i] else d.segs[i] := by
  simp only [cutScan, h, if_true, segs_scanFold]

/-- A cut-off scan leaves everything but the segments and where the day counts come from. -/
theorem cutScan_frame (w : List SegNo) (d : Dl) :
    cutScan w d = { d with segs := (cutScan w d).segs, countsFromStore := (cutScan w d).countsFromStore } := by
  have fold (w : List SegNo) (d : Dl) : w.foldl (fun e j => modSeg j scanSegment e) d =
      { d with segs := (w.foldl (fun e j => modSeg j scanSegment e) d).segs } := by
    induction w generalizing d with
    | nil => rfl
    | cons j w ih => rw [List.foldl_cons, ih]; rfl
  unfold cutScan
  split
  · rw [fold]
  · rfl

/-- The number a RECLAIM counts as the last taken is below the next to be given. -/
theorem lastTaken_lt (d : Dl) (h : 0 < d.nextSeq) : d.lastTaken < d.nextSeq := by
  unfold Dl.lastTaken; omega

end Sys2Proof.Laws.Log
end

