-- ==== Sys2Proof/Laws/PerInstr.lean ====
section
/-! SUPPORT. Laws/PerInstr.lean: one law of every command, made per constructor. -/

namespace Sys2Proof.Laws.Family

open Sys2Proof

/-- A well-formed command whose head carries the tag FF is the row that refuses it (R4, R5). -/
def Statement (i : Instr) : Prop :=
  i.wf = true → ∀ h : Hdr, i.head = some h → h.tag = 0xFF#8 → ∃ t : String, i = .unknownRequest h (.tagReserved t)

/-- A head that passes its own check does not carry FF. -/
theorem tag_of_wf {h : Hdr} (w : h.wf = true) : h.tag ≠ 0xFF#8 := by
  intro e; simp [Hdr.wf, e] at w

/-- The law of a row whose only check is its head's. -/
theorem of_head {h g : Hdr} {P : Prop} (w : h.wf = true) (e : some h = some g) (t : g.tag = 0xFF#8) : P :=
  absurd (Option.some.inj e ▸ t) (tag_of_wf w)

/-- The law of a row that checks its head and its fields. -/
theorem of_and {h g : Hdr} {x : Bool} {P : Prop} (w : (h.wf && x) = true) (e : some h = some g) (t : g.tag = 0xFF#8) : P :=
  of_head (Bool.and_eq_true_iff.1 w).1 e t

theorem rxCharacter (c : RxChar) (supv : Bool) : Statement (.rxCharacter c supv) := fun _ _ hg _ => nomatch hg

theorem lineSilence : Statement .lineSilence := fun _ _ hg _ => nomatch hg

theorem unknownRequest (h : Hdr) (u : BadRequest) : Statement (.unknownRequest h u) := by
  intro w g hg e
  cases u with
  | tagReserved t => exact ⟨t, by simp [Instr.head] at hg; rw [hg]⟩
  | unknownUnit t => simp [Instr.head] at hg; subst hg; simp [Instr.wf, BadRequest.wf, e] at w
  | badVerb t => simp [Instr.head] at hg; subst hg; simp [Instr.wf, BadRequest.wf, e] at w
  | unknownVerb t => simp [Instr.head] at hg; subst hg; simp [Instr.wf, BadRequest.wf, e] at w

theorem transmitLineEnd (supv : Bool) : Statement (.transmitLineEnd supv) := fun _ _ hg _ => nomatch hg

theorem attnPulseEnd : Statement .attnPulseEnd := fun _ _ hg _ => nomatch hg

theorem dvStatus (h : Hdr) (f : NoFields) : Statement (.dvStatus h f) := fun w _ hg e => of_head w hg e

theorem dvClear (h : Hdr) (f : NoFields) : Statement (.dvClear h f) := fun w _ hg e => of_head w hg e

theorem dvMode (h : Hdr) (a : Parsed (Option NoticeMode)) : Statement (.dvMode h a) := fun w _ hg e => of_head w hg e

theorem dvNext (h : Hdr) (f : NoFields) : Statement (.dvNext h f) := fun w _ hg e => of_head w hg e

theorem dvReset (h : Hdr) (f : NoFields) : Statement (.dvReset h f) := fun w _ hg e => of_head w hg e

theorem deviceReset (e : StartEnv) : Statement (.deviceReset e) := fun _ _ hg _ => nomatch hg

theorem coldStart (e : StartEnv) : Statement (.coldStart e) := fun _ _ hg _ => nomatch hg

theorem warmStart (e : StartEnv) : Statement (.warmStart e) := fun _ _ hg _ => nomatch hg

theorem resetLine (e : StartEnv) : Statement (.resetLine e) := fun _ _ hg _ => nomatch hg

theorem mainSupplyLoss : Statement .mainSupplyLoss := fun _ _ hg _ => nomatch hg

theorem clockTick : Statement .clockTick := fun _ _ hg _ => nomatch hg

theorem minuteReached : Statement .minuteReached := fun _ _ hg _ => nomatch hg

theorem dstInstant : Statement .dstInstant := fun _ _ hg _ => nomatch hg

theorem ckStatus (h : Hdr) (f : NoFields) : Statement (.ckStatus h f) := fun w _ hg e => of_head w hg e

theorem ckSet (h : Hdr) (a : Parsed CkSetArgs) : Statement (.ckSet h a) := fun w _ hg e => of_and w hg e

theorem ckDstrule (h : Hdr) (a : Parsed RuleArgs) : Statement (.ckDstrule h a) := fun w _ hg e => of_and w hg e

theorem ckDstruleOff (h : Hdr) (f : NoFields) : Statement (.ckDstruleOff h f) := fun w _ hg e => of_head w hg e

theorem ckRules (h : Hdr) (f : NoFields) : Statement (.ckRules h f) := fun w _ hg e => of_head w hg e

theorem ckDayclose (h : Hdr) (a : Parsed DaycloseArgs) : Statement (.ckDayclose h a) := fun w _ hg e => of_and w hg e

theorem ckClearstamp (h : Hdr) (f : NoFields) : Statement (.ckClearstamp h f) := fun w _ hg e => of_head w hg e

theorem dtStatus (h : Hdr) (f : NoFields) : Statement (.dtStatus h f) := fun w _ hg e => of_head w hg e

theorem dtEnrol (h : Hdr) (drv : Parsed Nat) : Statement (.dtEnrol h drv) := fun w _ hg e => of_and w hg e

theorem dtRemove (h : Hdr) (drv : Parsed Nat) : Statement (.dtRemove h drv) := fun w _ hg e => of_and w hg e

theorem dtImport (h : Hdr) (a : Parsed ImportArgs) : Statement (.dtImport h a) := fun w _ hg e => of_and w hg e

theorem dtArrive (h : Hdr) (drv : Parsed Nat) : Statement (.dtArrive h drv) := fun w _ hg e => of_and w hg e

theorem dtDepart (h : Hdr) (drv : Parsed Nat) : Statement (.dtDepart h drv) := fun w _ hg e => of_and w hg e

theorem dtClosetrip (h : Hdr) (a : Parsed ClosetripArgs) : Statement (.dtClosetrip h a) := fun w _ hg e => of_and w hg e

theorem dtQuery (h : Hdr) (drv : Parsed Nat) : Statement (.dtQuery h drv) := fun w _ hg e => of_and w hg e

theorem dtQueryPlan (h : Hdr) (a : Parsed QueryPlanArgs) : Statement (.dtQueryPlan h a) := fun w _ hg e => of_and w hg e

theorem dtList (h : Hdr) (a : Parsed DtListArgs) : Statement (.dtList h a) := fun w _ hg e => of_and w hg e

theorem cpStatus (h : Hdr) (f : NoFields) : Statement (.cpStatus h f) := fun w _ hg e => of_head w hg e

theorem cpOpen (h : Hdr) (a : Parsed OpenArgs) : Statement (.cpOpen h a) := fun w _ hg e => of_and w hg e

theorem cpLine (h : Hdr) (a : Parsed LineArgs) : Statement (.cpLine h a) := fun w _ hg e => of_and w hg e

theorem cpConfirm (h : Hdr) (f : NoFields) : Statement (.cpConfirm h f) := fun w _ hg e => of_head w hg e

theorem cpAbort (h : Hdr) (f : NoFields) : Statement (.cpAbort h f) := fun w _ hg e => of_head w hg e

theorem cpVoid (h : Hdr) (doc : Parsed String) : Statement (.cpVoid h doc) := fun w _ hg e => of_and w hg e

theorem cpShow (h : Hdr) (doc : Parsed String) : Statement (.cpShow h doc) := fun w _ hg e => of_and w hg e

theorem cpShowLine (h : Hdr) (a : Parsed ShowLineArgs) : Statement (.cpShowLine h a) := fun w _ hg e => of_and w hg e

theorem cpList (h : Hdr) (start : Parsed Nat) : Statement (.cpList h start) := fun w _ hg e => of_and w hg e

theorem cpAmendQty (h : Hdr) (a : Parsed AmendQtyArgs) : Statement (.cpAmendQty h a) := fun w _ hg e => of_and w hg e

theorem cpAmendProd (h : Hdr) (a : Parsed AmendProdArgs) : Statement (.cpAmendProd h a) := fun w _ hg e => of_and w hg e

theorem cpAmendRemove (h : Hdr) (a : Parsed AmendRemoveArgs) : Statement (.cpAmendRemove h a) := fun w _ hg e => of_and w hg e

theorem cpWithdraw (h : Hdr) (doc : Parsed String) : Statement (.cpWithdraw h doc) := fun w _ hg e => of_and w hg e

theorem bStatus (h : Hdr) (b : Bay) (f : NoFields) : Statement (.bStatus h b f) := fun w _ hg e => of_head w hg e

theorem bStatusLine (h : Hdr) (b : Bay) (comp : Parsed Nat) : Statement (.bStatusLine h b comp) := fun w _ hg e => of_and w hg e

theorem bAssign (h : Hdr) (b : Bay) (a : Parsed AssignArgs) : Statement (.bAssign h b a) := fun w _ hg e => of_and w hg e

theorem bStart (h : Hdr) (b : Bay) (a : Parsed StartArgs) : Statement (.bStart h b a) := fun w _ hg e => of_and w hg e

theorem bStop (h : Hdr) (b : Bay) (f : NoFields) : Statement (.bStop h b f) := fun w _ hg e => of_head w hg e

theorem bResume (h : Hdr) (b : Bay) (f : NoFields) : Statement (.bResume h b f) := fun w _ hg e => of_head w hg e

theorem bAckstray (h : Hdr) (b : Bay) (f : NoFields) : Statement (.bAckstray h b f) := fun w _ hg e => of_head w hg e

theorem bTemp (h : Hdr) (b : Bay) (a : Parsed TempArgs) : Statement (.bTemp h b a) := fun w _ hg e => of_and w hg e

theorem bDriver (h : Hdr) (b : Bay) (drv : Parsed Nat) : Statement (.bDriver h b drv) := fun w _ hg e => of_and w hg e

theorem bAckrestart (h : Hdr) (b : Bay) (f : NoFields) : Statement (.bAckrestart h b f) := fun w _ hg e => of_head w hg e

theorem bDispatch (h : Hdr) (b : Bay) (f : NoFields) : Statement (.bDispatch h b f) := fun w _ hg e => of_head w hg e

theorem bCancel (h : Hdr) (b : Bay) (f : NoFields) : Statement (.bCancel h b f) := fun w _ hg e => of_head w hg e

theorem bClear (h : Hdr) (b : Bay) (f : NoFields) : Statement (.bClear h b f) := fun w _ hg e => of_head w hg e

theorem bReset (h : Hdr) (b : Bay) (f : NoFields) : Statement (.bReset h b f) := fun w _ hg e => of_head w hg e

theorem pulseEdge (b : Bay) : Statement (.pulseEdge b) := fun _ _ hg _ => nomatch hg

theorem haltEdge (b : Bay) (active : Bool) : Statement (.haltEdge b active) := fun _ _ hg _ => nomatch hg

theorem bondEdge (b : Bay) (good : Bool) : Statement (.bondEdge b good) := fun _ _ hg _ => nomatch hg

theorem pauseLimit (b : Bay) : Statement (.pauseLimit b) := fun _ _ hg _ => nomatch hg

theorem settleEnd (b : Bay) : Statement (.settleEnd b) := fun _ _ hg _ => nomatch hg

theorem tsStatus (h : Hdr) (f : NoFields) : Statement (.tsStatus h f) := fun w _ hg e => of_head w hg e

theorem tsCalibrate (h : Hdr) (f : NoFields) : Statement (.tsCalibrate h f) := fun w _ hg e => of_head w hg e

theorem sampleComplete (c1 c2 : Adc) : Statement (.sampleComplete c1 c2) := fun _ _ hg _ => nomatch hg

theorem calibrationComplete (l1 l2 h1 h2 : Adc) : Statement (.calibrationComplete l1 l2 h1 h2) := fun _ _ hg _ => nomatch hg

theorem calibrationPeriod : Statement .calibrationPeriod := fun _ _ hg _ => nomatch hg

theorem dlStatus (h : Hdr) (f : NoFields) : Statement (.dlStatus h f) := fun w _ hg e => of_head w hg e

theorem dlStatusSeg (h : Hdr) (seg : Parsed Nat) : Statement (.dlStatusSeg h seg) := fun w _ hg e => of_and w hg e

theorem dlOpenSeg (h : Hdr) (seg : Parsed Nat) : Statement (.dlOpenSeg h seg) := fun w _ hg e => of_and w hg e

theorem dlOpenSeq (h : Hdr) (seq : Parsed Nat) : Statement (.dlOpenSeq h seq) := fun w _ hg e => of_and w hg e

theorem dlRead (h : Hdr) (f : NoFields) : Statement (.dlRead h f) := fun w _ hg e => of_head w hg e

theorem dlExported (h : Hdr) (seg : Parsed Nat) : Statement (.dlExported h seg) := fun w _ hg e => of_and w hg e

theorem dlReclaim (h : Hdr) (seg : Parsed Nat) : Statement (.dlReclaim h seg) := fun w _ hg e => of_and w hg e

theorem appendServe : Statement .appendServe := fun _ _ hg _ => nomatch hg

theorem appendWriteComplete : Statement .appendWriteComplete := fun _ _ hg _ => nomatch hg

theorem storeAccessEnd : Statement .storeAccessEnd := fun _ _ hg _ => nomatch hg

theorem reclaimComplete : Statement .reclaimComplete := fun _ _ hg _ => nomatch hg

theorem scanEnd : Statement .scanEnd := fun _ _ hg _ => nomatch hg

theorem stStatus (h : Hdr) (f : NoFields) : Statement (.stStatus h f) := fun w _ hg e => of_head w hg e

theorem stShow (h : Hdr) (a : Parsed ShowArgs) : Statement (.stShow h a) := fun w _ hg e => of_and w hg e

theorem stDiscard (h : Hdr) (f : NoFields) : Statement (.stDiscard h f) := fun w _ hg e => of_head w hg e

theorem stSetProduct (h : Hdr) (a : Parsed ProductArgs) : Statement (.stSetProduct h a) := fun w _ hg e => of_and w hg e

theorem stSetProductDelete (h : Hdr) (code : Parsed String) : Statement (.stSetProductDelete h code) := fun w _ hg e => of_and w hg e

theorem stSetSegregation (h : Hdr) (a : Parsed PairArgs) : Statement (.stSetSegregation h a) := fun w _ hg e => of_head w hg e

theorem stSetBay (h : Hdr) (a : Parsed BayArgs) : Statement (.stSetBay h a) := fun w _ hg e => of_and w hg e

theorem stSetHours (h : Hdr) (a : Parsed HoursArgs) : Statement (.stSetHours h a) := fun w _ hg e => of_and w hg e

theorem stSetTolerance (h : Hdr) (a : Parsed ToleranceArgs) : Statement (.stSetTolerance h a) := fun w _ hg e => of_and w hg e

theorem stSetCalendar (h : Hdr) (wday : Parsed Nat) : Statement (.stSetCalendar h wday) := fun w _ hg e => of_and w hg e

theorem stSetSampler (h : Hdr) (period : Parsed Nat) : Statement (.stSetSampler h period) := fun w _ hg e => of_and w hg e

theorem stSetLink (h : Hdr) (attn : Parsed (Option AttnMode)) : Statement (.stSetLink h attn) := fun w _ hg e => of_head w hg e

theorem stApply (h : Hdr) (f : NoFields) : Statement (.stApply h f) := fun w _ hg e => of_head w hg e

theorem applyComplete : Statement .applyComplete := fun _ _ hg _ => nomatch hg

end Sys2Proof.Laws.Family
end

