-- ==== Sys2Proof/Laws/Requests.lean ====
section
/-! SUPPORT. Laws/Requests.lean: how a request row reaches its unit's act. -/

namespace Sys2Proof.Laws.Requests

open Sys2Proof Sys2Proof.Machine Sys2Proof.Laws.Basic

/-- With the supply, an event row acts and a free transmitter starts. -/
theorem event_on (f : State → State) {s : State} (h : s.supply = true) : event f s = .next (pump (f s)) := by
  simp only [event, h]; rfl

/-- Without the supply an event row does nothing. -/
theorem event_off (f : State → State) {s : State} (h : s.supply = false) : event f s = .next s := by
  simp only [event, h]; rfl

/-- With the supply, a request row's line is accepted or rejected. -/
theorem request_on (c : Instr) (v : Bool) {s : State} (h : s.supply = true) :
    request c v s = .next (acceptLine c { s with supv := v }) := by
  simp only [request, h]; rfl

/-- A transmitter that has chosen has nothing more to choose. -/
theorem pump_pump (s : State) : pump (pump s) = pump s := by
  rcases hw : s.dv.wire with _ | l
  · rcases pump_cases s with h | ⟨_, _, _, _, h⟩ | ⟨_, _, _, _, _, _, _, h⟩
    · rw [h, h]
    · rw [h]; exact pump_busy _ _ rfl
    · rw [h]; exact pump_busy _ _ rfl
  · rw [pump_busy s l hw, pump_busy s l hw]

/-- A request row that is taken at once leaves what its act leaves, with the act's answer queued. -/
theorem request_ready {c : Instr} {r : Request} {s : State} (he : effect c = some r) (h : Ready r.hdr s) :
    request c r.hdr.supv s = Answers r.hdr r.token (r.act (underKey r.hdr s)).2 (r.act (underKey r.hdr s)).1 := by
  obtain ⟨h1, h2, h3, h4, h5⟩ := h
  obtain ⟨pending, supply, supv, fresh, dv, ck, dt, cp, bays, ts, dl, st⟩ := s
  obtain ⟨rx, overlong, buffer, replies, wire, notices, mode, marks, full, long, check, addr, sampler, log, settings,
    startKind, resetWait, attnPulse⟩ := dv
  dsimp only at h1 h2 h3 h4
  subst h1 h2 h4
  simp [request, acceptLine, Config.bufferSize, State.modDv, takeWaiting, canTake, h3, takeRequest, he, Request.run, h5]

/-- A request row runs as a request of its own head. -/
theorem exec_effect {c : Instr} {r : Request} (he : effect c = some r) (s : State) : exec c s = request c r.hdr.supv s := by
  cases c <;> first | (cases he; rfl) | exact nomatch he

/-- The result of a request row that is taken at once. -/
theorem exec_ready {c : Instr} {r : Request} {s : State} (he : effect c = some r) (h : Ready r.hdr s) :
    exec c s = Answers r.hdr r.token (r.act (underKey r.hdr s)).2 (r.act (underKey r.hdr s)).1 :=
  (exec_effect he s).trans (request_ready he h)

/-- The heads of the requests are those of the rows. -/
theorem effect_hdr {c : Instr} {r : Request} (he : effect c = some r) : c.head = some r.hdr := by
  cases c <;> first | (cases he; rfl) | exact nomatch he

/-- A row with a head is a request. -/
theorem effect_of_head {c : Instr} {h : Hdr} (e : c.head = some h) : ∃ r, effect c = some r ∧ r.hdr = h := by
  cases c <;> first | (cases e; exact ⟨_, rfl, rfl⟩) | exact nomatch e

/-! ## A staging discarded by a request (R84, R90) -/

theorem discardStaging_underKey (reason : String) (h : Hdr) (s : State) :
    discardStaging reason (underKey h s) = stagingDiscarded reason h s := by
  unfold discardStaging stagingDiscarded
  rcases hs : s.cp.staging with _ | g <;> simp only

theorem interrupted_underKey (h : Hdr) (s : State) : interrupted (underKey h s) = stagingDiscarded "INTERRUPTED" h s :=
  discardStaging_underKey _ h s

/-- The staging is empty after it, the documents and every other unit stand, and of the link its notices and its pulse
alone may have changed. -/
theorem stagingDiscarded_frame (reason : String) (h : Hdr) (s : State) :
    let u := stagingDiscarded reason h s
    u.cp = { s.cp with staging := none } ∧ u.ck = s.ck ∧ u.dt = s.dt ∧ u.bays = s.bays ∧ u.ts = s.ts ∧ u.dl = s.dl ∧
      u.st = s.st ∧ LinkKept s u := by
  unfold stagingDiscarded
  rcases hs : s.cp.staging with _ | g
  · have hc : { s.cp with staging := none } = s.cp := by rw [← hs]
    exact ⟨hc.symm, rfl, rfl, rfl, rfl, rfl, rfl, rfl, rfl, rfl, rfl⟩
  · exact ⟨rfl, rfl, rfl, rfl, rfl, rfl, rfl, rfl, rfl, rfl, rfl⟩

end Sys2Proof.Laws.Requests
end

