-- ==== Sys2Proof/Laws/Tables.lean ====
section
/-! SUPPORT. Laws/Tables.lean: what the updates of one record leave of the duty table, the document table and the bays:
the lemmas that the statements about drivers, documents and bays rest on. -/

namespace Sys2Proof.Laws.Tables

open Sys2Proof Sys2Proof.Machine Sys2Proof.Laws.Basic

/-! ## The duty table -/

/-- A driver found under a number has it. -/
theorem driverOf_num {s : State} {n : Nat} {x : Driver} (h : s.driverOf n = some x) : x.num = n := by
  have := List.find?_some h; simpa using this

/-- An update that keeps the number changes the one record. -/
theorem driverOf_modDriver (n m : Nat) (f : Driver → Driver) (hf : ∀ x, (f x).num = x.num) (s : State) :
    (modDriver n f s).driverOf m = (s.driverOf m).map fun x => if x.num == n then f x else x := by
  simp only [modDriver, State.driverOf, State.dt_modDt]
  rw [List.find?_map]
  congr 1
  apply congrArg (fun p => List.find? p _)
  funext x; simp only [Function.comp]; split <;> simp [hf]

theorem driverOf_modDriver_self (n : Nat) (f : Driver → Driver) (hf : ∀ x, (f x).num = x.num) (s : State) {x : Driver}
    (hx : s.driverOf n = some x) : (modDriver n f s).driverOf n = some (f x) := by
  rw [driverOf_modDriver n n f hf, hx]; simp [driverOf_num hx]

theorem driverOf_modDriver_ne (n m : Nat) (f : Driver → Driver) (hf : ∀ x, (f x).num = x.num) (s : State) (h : m ≠ n) :
    (modDriver n f s).driverOf m = s.driverOf m := by
  rw [driverOf_modDriver n m f hf]
  cases q : s.driverOf m with
  | none => rfl
  | some y => simp [driverOf_num q, h]

/-! ## The document table -/

/-- A document found under a number has it. -/
theorem docOf_num {s : State} {d : String} {x : Doc} (h : s.docOf d = some x) : x.num = d := by
  have := List.find?_some h; simpa using this

/-- An update that keeps the number changes the one record. -/
theorem docOf_modDoc (d e : String) (f : Doc → Doc) (hf : ∀ x, (f x).num = x.num) (s : State) :
    (modDoc d f s).docOf e = (s.docOf e).map fun x => if x.num == d then f x else x := by
  simp only [modDoc, State.docOf, State.cp_modCp]
  rw [List.find?_map]
  congr 1
  apply congrArg (fun p => List.find? p _)
  funext x; simp only [Function.comp]; split <;> simp [hf]

theorem docOf_modDoc_self (d : String) (f : Doc → Doc) (hf : ∀ x, (f x).num = x.num) (s : State) {x : Doc}
    (hx : s.docOf d = some x) : (modDoc d f s).docOf d = some (f x) := by
  rw [docOf_modDoc d d f hf, hx]; simp [docOf_num hx]

theorem docOf_modDoc_ne (d e : String) (f : Doc → Doc) (hf : ∀ x, (f x).num = x.num) (s : State) (h : e ≠ d) :
    (modDoc d f s).docOf e = s.docOf e := by
  rw [docOf_modDoc d e f hf]
  cases q : s.docOf e with
  | none => rfl
  | some y => simp [docOf_num q, h]

/-! ## The bays -/

/-- Some hold reason stands exactly when the set is not empty. -/
theorem any_holds (h : Holds) : h.any = !decide (h = Holds.none) := by
  obtain ⟨a, b, c, d, e⟩ := h; revert a b c d e; decide

/-- The state that follows a change of the hold reasons (R110). -/
theorem adjust_eq (u : BayUnit) :
    u.adjust = { u with state :=
      match u.state with
      | .HELD => if u.holds = Holds.none then .ASSIGNED else .HELD
      | .ASSIGNED => if u.holds = Holds.none then .ASSIGNED else .HELD
      | x => x } := by
  obtain ⟨st, hs, _⟩ := u
  unfold BayUnit.adjust
  rw [any_holds]
  by_cases e : hs = Holds.none <;> cases st <;> simp [e]

/-- A change of a bay leaves the other bays, the clock, the settings and the link but for its notices. -/
theorem otherBaysKept_changeBay (b : Bay) (r : String) (l : Bool) (o : NoticeOrder) (f : BayUnit → BayUnit) (s : State)
    (v : Bool) : OtherBaysKept b s (changeBay b r l o f { s with supv := v }) := by
  refine ⟨fun b' h => ?_, ?_, ?_, ?_, ?_, ?_, ?_⟩
  · rw [bay_changeBay_ne _ _ _ _ _ _ _ (Ne.symm h)]; rfl
  all_goals first | simp; done | exact dv_changeBay ..

theorem bayAlone_changeBay (b : Bay) (r : String) (l : Bool) (o : NoticeOrder) (f : BayUnit → BayUnit) (s : State)
    (v : Bool) : BayAlone b s (changeBay b r l o f { s with supv := v }) := by
  refine ⟨otherBaysKept_changeBay .., ?_, ?_, ?_, ?_⟩ <;> simp

end Sys2Proof.Laws.Tables
end

