-- ==== Sys2Proof/Tests/Slice0.lean ====
section
/-! SUPPORT. Tests/Slice0.lean: the model's own tests. The checks of WellFormed refuse an ill-formed term each, worked
cases of the manual come out as it gives them, and for each statement with premises a state meets them. -/

namespace Sys2Proof.Machine.Tests

open Sys2Proof Sys2Proof.Machine

/-! ## WellFormed: each check refuses a term that fails it alone -/

/-- Nothing is stated of this type and of `Pause2` and so on below: Lean declares a type only when all theorems before it
are checked, so fewer proofs wait at once, each on a thread of its own, and the file checks in less memory. -/
inductive Pause1 | done

def hd (key : Bool) : Hdr := ⟨0x10#8, key⟩
def bad (c : Instr) : Bool := !c.wf
def t5 : DateHm := ⟨2030, 1, 7, 5, 0⟩
def plan1 : Plan := ⟨80, 150, 1⟩
def big : Nat := 4294967296

theorem test_wf_head : bad (.dvStatus ⟨0xFF#8, false⟩ (some ())) ∧ (Instr.dvStatus (hd false) (some ())).wf := by decide

theorem test_wf_routing :
    bad (.unknownRequest (hd false) (.tagReserved "DV")) ∧ bad (.unknownRequest ⟨0xFF#8, false⟩ (.tagReserved "D V")) ∧
    bad (.unknownRequest ⟨0xFF#8, false⟩ (.unknownUnit "QQ")) ∧ bad (.unknownRequest (hd false) (.unknownUnit "DV")) ∧
    bad (.unknownRequest (hd false) (.unknownUnit "Q Q")) ∧ bad (.unknownRequest ⟨0xFF#8, false⟩ (.badVerb .DV)) ∧
    bad (.unknownRequest ⟨0xFF#8, false⟩ (.unknownVerb .DV)) := by decide +kernel

theorem test_wf_forms :
    bad (.cpList (hd false) (some big)) ∧ bad (.dtEnrol (hd false) (some 100000000)) ∧
    bad (.cpVoid (hd false) (some "")) ∧ bad (.cpVoid (hd false) (some "1234567890ABC")) ∧
    bad (.cpVoid (hd false) (some "td1")) ∧ bad (.stSetProductDelete (hd false) (some "DS")) ∧
    bad (.bTemp (hd false) 0 (some ⟨1, -4294967296⟩)) ∧
    bad (.stSetProduct (hd false) (some ⟨"DSL", 10000, some .c3, some .II, some 0, 0, 0, 0, 0⟩)) := by decide +kernel

theorem test_wf_times :
    bad (.ckSet (hd false) (some ⟨{ t5 with year := 10000 }, 0⟩)) ∧
    bad (.ckSet (hd false) (some ⟨{ t5 with month := 100 }, 0⟩)) ∧
    bad (.ckSet (hd false) (some ⟨{ t5 with day := 100 }, 0⟩)) ∧
    bad (.ckSet (hd false) (some ⟨{ t5 with hour := 100 }, 0⟩)) ∧
    bad (.ckSet (hd false) (some ⟨{ t5 with minute := 100 }, 0⟩)) ∧ bad (.ckSet (hd false) (some ⟨t5, 100⟩)) ∧
    bad (.ckDstrule (hd false) (some ⟨some .FWD, 3, some (.DATE big), 2⟩)) ∧
    bad (.ckDstrule (hd false) (some ⟨some .FWD, 3, some (.WEEKDAY big 0), 2⟩)) ∧
    bad (.ckDstrule (hd false) (some ⟨some .FWD, big, none, 2⟩)) ∧
    bad (.ckDayclose (hd false) (some ⟨some none, some (some big), some none⟩)) := by decide

theorem test_wf_duty :
    bad (.dtImport (hd false) (some ⟨100000000, some .REST, t5, t5⟩)) ∧
    bad (.dtClosetrip (hd false) (some ⟨1, t5, []⟩)) ∧
    bad (.dtClosetrip (hd false) (some ⟨1, t5, List.replicate 9 ⟨some .REST, 1⟩⟩)) ∧
    bad (.dtClosetrip (hd false) (some ⟨1, t5, [⟨some .REST, big⟩]⟩)) ∧
    bad (.dtQueryPlan (hd false) (some ⟨1, ⟨big, 1, 1⟩⟩)) ∧ bad (.dtList (hd false) (some ⟨1, big⟩)) := by decide

theorem test_wf_papers :
    bad (.cpOpen (hd false) (some ⟨"D1", 1, "", plan1, none, none⟩)) ∧
    bad (.cpOpen (hd false) (some ⟨"D1", 1, "T1", plan1, some "CARRIER", none⟩)) ∧
    bad (.cpOpen (hd false) (some ⟨"D1", 1, "T1", plan1, none, some 100000000⟩)) ∧
    bad (.cpLine (hd false) (some ⟨1, "DSL", 1202, some .c3, some .II, big, 1⟩)) ∧
    bad (.cpShowLine (hd false) (some ⟨"D1", big⟩)) ∧ bad (.cpAmendQty (hd false) (some ⟨"D1", 1, big⟩)) ∧
    bad (.cpAmendProd (hd false) (some ⟨"D1", 1, "D"⟩)) ∧ bad (.cpAmendRemove (hd false) (some ⟨"", 1⟩)) ∧
    bad (.bAssign (hd false) 0 (some ⟨"d1", 1⟩)) ∧ bad (.bStart (hd false) 0 (some ⟨1, big⟩)) := by decide +kernel

theorem test_wf_settings :
    bad (.stSetBay (hd false) (some ⟨1, none, none, none, none⟩)) ∧
    bad (.stSetHours (hd false) (some ⟨none, none, none, none, none, none, none⟩)) ∧
    bad (.stSetTolerance (hd false) (some ⟨none, none⟩)) ∧ bad (.stSetTolerance (hd false) (some ⟨some big, none⟩)) ∧
    bad (.stShow (hd false) (some ⟨.PRODUCT, false, .whole⟩)) ∧ bad (.stShow (hd false) (some ⟨.BAY, false, .row none⟩)) ∧
    bad (.stShow (hd false) (some ⟨.HOURS, false, .bay 1⟩)) ∧
    bad (.stShow (hd false) (some ⟨.SEGREGATION, true, .start 1⟩)) ∧
    bad (.stShow (hd false) (some ⟨.PRODUCT, false, .code "D"⟩)) := by decide +kernel

/-- No row spells a word (the table gives no bits). -/
theorem test_no_words : decodeTableWord 8 0 = none := rfl

/-! ## Worked cases of the manual -/

inductive Pause2 | done

/-- The reference values of R204. -/
theorem test_crc8 :
    crc8 "A".toList = 0xC0#8 ∧ crc8 "AB".toList = 0x87#8 ∧ crc8 "00 DV NEXT ".toList = 0xD1#8 := by decide +kernel

def dsl : Product := ⟨"DSL", 1202, .c3, .III, 1, 8290, 20, 8290, 20⟩
def ulp : Product := ⟨"ULP", 1203, .c3, .II, 0, 12000, 40, 12000, 40⟩
def line0 (c : Nat) (st : LineState) : LineRec := { openLine c with state := st }

/-- 08_quantity_reconciliation.md, "Worked case: a full reconciliation". -/
theorem test_full_reconciliation :
    reconcile true 10250 ulp ⟨10, 5⟩ 6800
      { line0 2 .FINISHING with pulses := 6700, sampleSum := 17620075, weightSum := 68675, taken := 4 } =
    { line0 2 .VERIFIED with pulses := 6700, vo := 68675, sampleSum := 17620075, weightSum := 68675, taken := 4,
                             figs := some ⟨257, 986936, 67778, -222⟩, marks := ⟨true, false, false, false⟩ } := by decide +kernel

/-- "Worked case: the clamp on a manual temperature". -/
theorem test_clamp :
    stages3to6 ⟨"ADX", 1993, .c3, .III, 1, 20000, 10, 20000, 10⟩ ⟨10, 5⟩ 440 (-400)
      { line0 3 .PROBE_FAULT with pulses := 400, vo := 4000 } =
    { line0 3 .VERIFIED with pulses := 400, vo := 4000, figs := some ⟨-400, 1100000, 4400, 0⟩,
                             marks := ⟨false, true, true, false⟩ } := by decide +kernel

/-- "Worked case: an over-delivered line amended". -/
theorem test_amended_line :
    (reReconcile ⟨10, 5⟩ 7560 { line0 1 .OVER with figs := some ⟨236, 992799, 75620, 620⟩ }).state = .VERIFIED ∧
    (reReconcile ⟨10, 5⟩ 7600 { line0 1 .OVER with figs := some ⟨236, 992799, 75620, 620⟩ }).state = .VERIFIED ∧
    (reReconcile ⟨10, 5⟩ 7500 { line0 1 .OVER with figs := some ⟨236, 992799, 75620, 620⟩ }).state = .OVER := by decide +kernel

/-- Minutes of a date. -/
def mi (y m d hh mm : Nat) : Nat := (dateMinutes ⟨y, m, d, hh, mm⟩).toNat

def list40117285 : List Entry :=
  [⟨mi 2030 1 6 17 0, some (mi 2030 1 7 5 0), .REST, .IMPORT⟩, ⟨mi 2030 1 7 5 0, some (mi 2030 1 7 5 30), .WORK, .TERMINAL⟩,
   ⟨mi 2030 1 7 5 30, some (mi 2030 1 7 9 30), .DRIVE, .TRIP⟩, ⟨mi 2030 1 7 9 30, some (mi 2030 1 7 10 15), .REST, .TRIP⟩,
   ⟨mi 2030 1 7 10 15, some (mi 2030 1 7 13 45), .DRIVE, .TRIP⟩, ⟨mi 2030 1 7 14 0, none, .WORK, .TERMINAL⟩]

def verdict40117285 (hh mm breaks : Nat) : VerdictRec :=
  computeVerdict Settings.factory.hours (mi 2030 1 7 0 0) (mi 2030 1 7 hh mm) list40117285 ⟨80, 150, breaks⟩

/-- 04_hours_allowance.md, "Worked case: a tight assignment that runs out at dispatch". -/
theorem test_tight_assignment :
    ((verdict40117285 14 50 1).verdict = .TIGHT ∧ (verdict40117285 14 50 1).least = 10 ∧
      (verdict40117285 14 50 1).test = .DAY ∧ (verdict40117285 14 50 1).capacity = 330) ∧
    ((verdict40117285 15 30 1).least = 0 ∧ (verdict40117285 15 30 1).test = .SPAN) ∧
    ((verdict40117285 15 31 1).verdict = .LIMIT ∧ (verdict40117285 15 31 1).least = -1 ∧
      (verdict40117285 15 31 1).marks = [.SPAN]) ∧
    ((verdict40117285 14 50 0).verdict = .LIMIT ∧ (verdict40117285 14 50 0).least = -20 ∧
      (verdict40117285 14 50 0).test = .CONT) := by decide +kernel

def fwd30 : DstRule := ⟨3, .WEEKDAY 7 0, 2⟩
def rev30 : DstRule := ⟨10, .WEEKDAY 7 0, 3⟩

/-- 02_clock_calendar_and_terminal_day.md, "Worked example: a year with DST". -/
theorem test_dst_2030 :
    forwardInstant fwd30 2030 = 60 * mi 2030 3 31 2 0 ∧ reverseInstant rev30 2030 = 60 * mi 2030 10 27 2 0 ∧
    Machine.weekStart (some fwd30) (some rev30) true 1 (60 * mi 2030 3 31 10 0) = 60 * mi 2030 3 25 0 0 ∧
    Machine.weekStart (some fwd30) (some rev30) true 1 (60 * mi 2030 4 2 10 0) = 60 * mi 2030 3 31 23 0 := by decide +kernel

/-- 03_duty_table.md, "Worked example: trip layouts". -/
theorem test_trip_layouts :
    layTrip 825 330 [⟨.DRIVE, 240⟩, ⟨.REST, 45⟩, ⟨.DRIVE, 180⟩] =
      [⟨330, some 570, .DRIVE, .TRIP⟩, ⟨570, some 615, .REST, .TRIP⟩, ⟨615, some 795, .DRIVE, .TRIP⟩,
       ⟨795, some 825, .WORK, .TRIP⟩] ∧
    (layTrip 825 330 [⟨.DRIVE, 240⟩, ⟨.REST, 60⟩, ⟨.DRIVE, 240⟩]).getLast? = some ⟨630, some 825, .DRIVE, .TRIP⟩ ∧
    (layTrip 615 330 [⟨.DRIVE, 240⟩, ⟨.REST, 45⟩, ⟨.DRIVE, 210⟩]).length = 2 ∧ layTrip 330 330 [⟨.DRIVE, 240⟩] = [] := by
  decide

/-- 07_temperature_sampler.md, the worked sequences. -/
theorem test_samples :
    probeResult 410 3686 2081 = some 255 ∧ probeResult 412 3690 2049 = some 250 ∧ probeResult 412 3690 2106 = some 258 ∧
    probeResult 412 3690 15 = none ∧ probeResult 412 3690 4080 = none ∧ spanOk 411 1200 = false ∧
    spanOk 409 3688 = true := by decide

/-! ## Lines received (R1, R2, R5, R205) -/

inductive Pause3 | done

def chars (t : String) : List RxChar := t.toList.map fun c => ⟨BitVec.ofNat 8 c.toNat, false⟩
/-- The characters of a request line before its LF. -/
def lineOf (t : String) : List RxChar := chars (t ++ " *" ++ hex2 (crc8 (t ++ " ").toList) ++ "\r")

theorem test_line_checked :
    passCheck (lineOf "41 CK STATUS") = some "41 CK STATUS ".toList ∧ passCheck (chars "41 CK STATUS *00\r") = none ∧
    passAddr "41 CK STATUS ".toList = true ∧ passAddr "4 CK STATUS ".toList = false := by decide +kernel

theorem test_line_read :
    commandOf true "41 B3 START C=2 PRESET=6800".toList = .bStart ⟨0x41#8, true⟩ 2 (some ⟨2, 6800⟩) ∧
    commandOf false "42 CK STAUS".toList = .unknownRequest ⟨0x42#8, false⟩ (.unknownVerb .CK) ∧
    commandOf false "43 B9 STATUS".toList = .unknownRequest ⟨0x43#8, false⟩ (.unknownUnit "B9") ∧
    commandOf false "FF QQ XX".toList = .unknownRequest ⟨0xFF#8, false⟩ (.tagReserved "QQ") ∧
    commandOf false "44 DV status".toList = .unknownRequest ⟨0x44#8, false⟩ (.badVerb .DV) ∧
    commandOf false "45 CK SET T=2030-01-07 05:00".toList = .ckSet ⟨0x45#8, false⟩ (some ⟨t5, 0⟩) ∧
    commandOf false "46 DT REMOVE DRV=123".toList = .dtRemove ⟨0x46#8, false⟩ none ∧
    commandOf false "48 CK DAYCLOSE MIN=ON HOUR=OFF WDAY=6".toList =
      .ckDayclose ⟨0x48#8, false⟩ (some ⟨none, some none, some (some 6)⟩) ∧
    commandOf false "49 CK DAYCLOSE MIN=on HOUR=OFF WDAY=6".toList = .ckDayclose ⟨0x49#8, false⟩ none ∧
    commandOf false "47 ST SET BAY N=3 ENABLE=YES STEP=2000".toList =
      .stSetBay ⟨0x47#8, false⟩ (some ⟨3, some (some true), none, some 2000, none⟩) := by decide +kernel

/-! ## A small state -/

def clear1 : VerdictRec := ⟨.CLEAR, 100, .DAY, [], 100, 200, 300, 400, 500, plan1, 0⟩
def limit1 : VerdictRec := { clear1 with verdict := .LIMIT, least := -1 }
def cfg : Settings :=
  { Settings.factory with products := [dsl, ulp], bays := Settings.factory.bays.set 0 ⟨true, 10000, 1000, 15⟩ }
def atWork : Entry := ⟨mi 2030 1 7 14 0, none, .WORK, .TERMINAL⟩
def onRoad : Entry := ⟨mi 2030 1 7 14 0, none, .DRIVE, .TERMINAL⟩
def dline (c : Nat) (p : Product) : DocLine := ⟨c, p.code, p.un, p.cls, p.pg, 900, 1000⟩
def doc1 : Doc := ⟨"D1", .DRAFT, "T1", none, none, plan1, [dline 1 dsl], 0, []⟩
def doc2 : Doc := ⟨"D2", .BOUND 0, "T2", none, none, plan1, [dline 1 dsl, dline 2 ulp], 0, []⟩
def doc3 : Doc := ⟨"D3", .RELEASED, "T3", none, none, plan1, [dline 1 dsl], 0, []⟩
def drv1 : Driver := ⟨1, .ABSENT, [], none, none, false⟩
def drv2 : Driver := ⟨2, .AT_BAY 0, [atWork], none, some clear1, false⟩
def drv3 : Driver := ⟨3, .ON_SITE, [atWork], none, none, false⟩
def drv4 : Driver := ⟨4, .ON_TRIP, [onRoad], some "D3", none, false⟩

/-- Mon 2030-01-07 15:00, the supply on, the link quiet, bay 1 IDLE, four drivers and three documents. -/
def base : State := { State.reset with
  dv := { Dv.reset with wire := none, notices := [], settings := false }
  ck := { Ck.reset with count := 60 * mi 2030 1 7 15 0, isSet := true }
  dt := ⟨[drv1, drv2, drv3, drv4], [], 0, 0, none⟩
  cp := ⟨[doc1, doc2, doc3], none⟩
  ts := { Ts.reset with conv := .FREE, due := false }
  dl := { Dl.reset with scan := false, queue := [], countsFromStore := false }
  st := ⟨cfg, true, cfg, cfg, none, false, none⟩
  bays := (Vector.replicate 8 BayUnit.reset).set 0 { BayUnit.reset with state := .IDLE } }

def link (f : Dv → Dv) : State := base.modDv f
def clock (f : Ck → Ck) : State := base.modCk f
def ok1 : Reply := ⟨0x01#8, "DV", ok []⟩
def req1 : Instr := .dvNext (hd false) (some ())
def env : StartEnv := ⟨true, .torn, [], []⟩
/-- The settings store fails its check. -/
def badEnv : StartEnv := { env with settingsGood := false }
/-- The state an outcome leaves. -/
def after (o : Host.Outcome State Fault Refusal) : State :=
  match o with
  | .next t => t
  | _ => State.reset

/-! ## The premises can be met: the queue and the link -/

inductive Pause4 | done

abbrev hyps_StepRunsTheFrontCommand : Prop :=
    ({ base with pending := [.attnPulseEnd, .clockTick] } : State).pending = .attnPulseEnd :: [.clockTick] ∧
    (base.pending = [] ∧ base.supply = true) ∧
    ({ base with supply := false } : State).pending = [] ∧ ({ base with supply := false } : State).supply = false

abbrev hyps_MalformedRequestsGetSyntax : Prop :=
    ((Instr.dvStatus (hd false) none).malformed = true ∧ (Instr.dvStatus (hd false) none).head = some (hd false) ∧
      Ready (hd false) (link fun d => { d with replies := List.replicate 3 ok1 })) ∧
    (Instr.cpVoid (hd true) none).malformed = true ∧ (Instr.cpVoid (hd true) none).head = some (hd true) ∧
      interruptsStaging (.cpVoid (hd true) none) = true ∧ Ready (hd true) base

def fullLink (waiting : Nat) : State :=
  link fun d => { d with replies := List.replicate 4 ok1, buffer := List.replicate waiting req1 }

abbrev hyps_LinesWaitAndOverflow : Prop :=
    req1.head = some (hd false) ∧
    ((fullLink 3).supply = true ∧ 4 ≤ (fullLink 3).dv.replies.length ∧ (fullLink 3).dv.buffer.length < 4) ∧
    ((fullLink 4).supply = true ∧ 4 ≤ (fullLink 4).dv.replies.length ∧ 4 ≤ (fullLink 4).dv.buffer.length) ∧
    (link fun d => { d with resetWait := true }).dv.resetWait = true

abbrev hyps_RoutingRefusals : Prop :=
    Ready (hd false) base ∧ base.supply = true ∧ base.dv.buffer = [] ∧ base.dv.replies.length < 4 ∧
    base.dv.resetWait = false ∧ (⟨0xFF#8, false⟩ : Hdr).tag = 0xFF#8 ∧
    splitAtChar ' ' "FF B9 status".toList = ['F', 'F'] :: "B9".toList :: ["status".toList] ∧
    BitVec.ofNat 8 (16 * hexVal 'F' + hexVal 'F') = 0xFF#8 ∧ BitVec.ofNat 8 (16 * hexVal '4' + hexVal '4') ≠ 0xFF#8 ∧
    splitAtChar ' ' "44 DV".toList = ['4', '4'] :: "DV".toList :: [] ∧ unitOf "B9".toList = none ∧
    unitOf "DV".toList = some .DV ∧
    splitAtChar ' ' "44 DV status".toList = ['4', '4'] :: "DV".toList :: "status".toList :: [] ∧
    ((1 ≤ "STATUS".toList.length ∧ "STATUS".toList.length ≤ 12) ∧ ¬"ABCDEFGHIJKLM".toList.length ≤ 12)

theorem test_hyps_RoutingVerbs :
    (¬∀ x ∈ "status".toList, isCapital x = true) ∧ (∀ x ∈ "STATUS".toList, isCapital x = true) ∧
    unitVerbs .DV "STAUS" = none ∧ ∃ cmd, unitVerbs .DV "STATUS" = some cmd := by
  simp [isCapital, unitVerbs, dvVerbs]

abbrev hyps_DvStatusReadsTheLink : Prop := Ready (hd true) base

def fault1 : Notice := ⟨.DV, .FAULT, []⟩

abbrev hyps_DvClearModeAndNext : Prop :=
    Ready (hd false) base ∧ base.dv.notices = [] ∧
    Ready (hd false) (link fun d => { d with marks := [.CK], notices := [fault1] }) ∧
    (link fun d => { d with marks := [.CK], notices := [fault1] }).dv.pending .DV .FAULT = true ∧
    (link fun d => { d with marks := [.CK], notices := [fault1] }).dv.notices = fault1 :: []

abbrev hyps_ResetRequestThenDeviceReset : Prop :=
    Ready (hd false) base ∧ (link fun d => { d with resetWait := true }).supply = true ∧
    (link fun d => { d with resetWait := true }).dv.resetWait = true ∧
    (link fun d => { d with resetWait := true }).dv.replies = [] ∧
    (link fun d => { d with resetWait := true }).dv.wire = none ∧
    (link fun d => { d with resetWait := true, wire := some (.reply ok1) }).dv.resetWait = true ∧
    (link fun d => { d with resetWait := true, wire := some (.reply ok1) }).dv.wire ≠ none

def rx (cs : List RxChar) : State := link fun d => { d with rx := cs }
def letterA : RxChar := ⟨0x41#8, false⟩
def lf : RxChar := ⟨0x0A#8, false⟩

abbrev hyps_ReceiverAssemblesLines : Prop :=
    (base.supply = true ∧ rxIsLf letterA = false ∧ rxIsLf lf = true ∧ rxIsLf ⟨0x0A#8, true⟩ = false) ∧
    ((rx (List.replicate 239 letterA)).dv.rx.length < 240 ∧ 240 ≤ (rx (List.replicate 240 letterA)).dv.rx.length) ∧
    (link fun d => { d with overlong := true }).dv.overlong = true ∧
    (rx (List.replicate 240 letterA)).dv.overlong = false ∧
    (base.dv.overlong = false ∧ (rx [⟨0x0D#8, false⟩]).dv.rx = [⟨0x0D#8, false⟩]) ∧
    (passCheck (rx (List.replicate 239 letterA)).dv.rx = none ∧ (rx []).dv.rx ≠ [⟨0x0D#8, false⟩]) ∧
    (passCheck (rx (lineOf "4 CK STATUS")).dv.rx = some "4 CK STATUS ".toList ∧
      passAddr "4 CK STATUS ".toList = false) ∧
    (passCheck (rx (lineOf "41 CK STATUS")).dv.rx = some "41 CK STATUS ".toList ∧
      passAddr "41 CK STATUS ".toList = true)

def sending (f : Dv → Dv) : State := link fun d => f { d with wire := some (.reply ok1) }

abbrev hyps_TransmitterChoosesTheNextLine : Prop :=
    ((sending id).supply = true ∧ (sending id).dv.wire ≠ none ∧ (sending id).dv.buffer = [] ∧
      (sending id).dv.replies = [] ∧ (sending id).dv.notices = []) ∧
    (sending fun d => { d with replies := [ok1] }).dv.replies = ok1 :: [] ∧
    ((sending fun d => { d with notices := [fault1] }).dv.mode = .PUSH ∧
      (sending fun d => { d with notices := [fault1] }).dv.resetWait = false ∧
      (sending fun d => { d with notices := [fault1] }).dv.notices = fault1 :: []) ∧
    (sending fun d => { d with mode := .POLL, notices := [fault1] }).dv.mode = .POLL ∧
    (sending fun d => { d with buffer := [req1], replies := List.replicate 4 ok1 }).dv.buffer = [req1] ∧
    (sending fun d => { d with buffer := [req1], replies := List.replicate 4 ok1 }).dv.replies = ok1 :: List.replicate 3 ok1 ∧
    (sending fun d => { d with buffer := [req1], replies := List.replicate 4 ok1 }).dv.replies.length = 4 ∧
    (sending fun d => { d with buffer := [req1], replies := List.replicate 4 ok1 }).dv.resetWait = false

abbrev hyps_AttnAndRaises : Prop :=
    (base.supply = true ∧ base.st.applied.attn = .LEVEL ∧ (base.dv.notices.map Notice.pair).Nodup ∧
      base.dv.pending .DV .FAULT = false) ∧
    ((base.modSt fun t => { t with applied := { t.applied with attn := .PULSE } }).st.applied.attn = .PULSE) ∧
    ((link fun d => { d with notices := [fault1] }).dv.notices.map Notice.pair).Nodup ∧
    (link fun d => { d with notices := [fault1] }).dv.pending .DV .FAULT = true

theorem test_premises_link :
    hyps_StepRunsTheFrontCommand ∧ hyps_MalformedRequestsGetSyntax ∧ hyps_LinesWaitAndOverflow ∧
    hyps_RoutingRefusals ∧ hyps_DvStatusReadsTheLink ∧ hyps_DvClearModeAndNext ∧
    hyps_ResetRequestThenDeviceReset ∧ hyps_ReceiverAssemblesLines ∧ hyps_TransmitterChoosesTheNextLine ∧
    hyps_AttnAndRaises := by
  refine ⟨?_, ?_, ?_, ?_, ?_, ?_, ?_, ?_, ?_, ?_⟩ <;> decide +kernel

theorem test_hyps_StepRunsTheFrontCommand : hyps_StepRunsTheFrontCommand := test_premises_link.1
theorem test_hyps_MalformedRequestsGetSyntax : hyps_MalformedRequestsGetSyntax := test_premises_link.2.1
theorem test_hyps_LinesWaitAndOverflow : hyps_LinesWaitAndOverflow := test_premises_link.2.2.1
theorem test_hyps_RoutingRefusals : hyps_RoutingRefusals := test_premises_link.2.2.2.1
theorem test_hyps_DvStatusReadsTheLink : hyps_DvStatusReadsTheLink := test_premises_link.2.2.2.2.1
theorem test_hyps_DvClearModeAndNext : hyps_DvClearModeAndNext := test_premises_link.2.2.2.2.2.1
theorem test_hyps_ResetRequestThenDeviceReset : hyps_ResetRequestThenDeviceReset := test_premises_link.2.2.2.2.2.2.1
theorem test_hyps_ReceiverAssemblesLines : hyps_ReceiverAssemblesLines := test_premises_link.2.2.2.2.2.2.2.1
theorem test_hyps_TransmitterChoosesTheNextLine : hyps_TransmitterChoosesTheNextLine := test_premises_link.2.2.2.2.2.2.2.2.1
theorem test_hyps_AttnAndRaises : hyps_AttnAndRaises := test_premises_link.2.2.2.2.2.2.2.2.2

/-! ## The clock -/

inductive Pause5 | done

/-- Midnight, the minute due; the match of reset is 00:00. -/
def midnight (last : Option Nat) : State :=
  clock fun c => { c with count := 60 * mi 2030 1 8 0 0, minuteDue := true, lastFired := last }

theorem test_hyps_MinuteReachedTestsTheMatch :
    ∀ s, s = midnight none ∨ s = midnight (some (mi 2030 1 7 0 0 / 1440)) ∨ s = midnight (some (mi 2030 1 8 0 0 / 1440)) →
      s.supply = true ∧ s.ck.isSet = true ∧ s.ck.minuteDue = true ∧ s.ck.dst = s.ck.inForce ∧
      s.ck.minuteMatches s.localMin = true ∧
      ((∀ d ∈ s.ck.lastFired, d < s.localMin / 1440) ↔ s.ck.lastFired ≠ some (mi 2030 1 8 0 0 / 1440)) := by
  rintro s (rfl | rfl | rfl) <;> decide +kernel

def spring : State :=
  clock fun c => { c with count := 60 * mi 2030 3 31 2 0, fwd := some fwd30, rev := some rev30 }

/-- `spring` with the match at 02:15, a minute it skips. -/
def skipping (last : Option Nat) : State :=
  spring.modCk fun c => { c with matchMin := some 15, matchHour := some 2, lastFired := last }

abbrev hyps_DstInstantChangesTheState : Prop :=
    spring.ck.isSet = true ∧ spring.ck.dst ≠ spring.ck.inForce ∧ spring.supply = true ∧
    ({ spring with supply := false } : State).supply = false ∧ spring.ck.inForce = true ∧
    (∀ k : Fin 60, spring.ck.minuteMatches (mi 2030 3 31 2 0 + k) = false) ∧
    ∀ s, s = skipping none ∨ s = skipping (some (mi 2030 3 30 0 0 / 1440)) ∨ s = skipping (some (mi 2030 3 31 0 0 / 1440)) →
      s.ck.isSet = true ∧ s.ck.dst ≠ s.ck.inForce ∧ s.supply = true ∧ s.ck.inForce = true ∧
      reachedInstant s.ck.fwd s.ck.rev s.ck.count = 60 * mi 2030 3 31 2 0 ∧
      (∃ k : Fin 60, s.ck.minuteMatches (mi 2030 3 31 2 0 + k) = true) ∧
      ((∀ d ∈ s.ck.lastFired, d < mi 2030 3 31 2 0 / 1440) ↔ s.ck.lastFired ≠ some (mi 2030 3 31 0 0 / 1440))

abbrev hyps_SupplyLossStampsTheTime : Prop := base.supply = true

def setAt (hh mm : Nat) : CkSetArgs := ⟨⟨2030, 1, 7, hh, mm⟩, 0⟩

abbrev hyps_ClockSetTakesTheTime : Prop :=
    Ready (hd false) base ∧ setTime ⟨⟨1999, 12, 31, 23, 59⟩, 0⟩ = none ∧
    setTime (setAt 14 0) = some (60 * mi 2030 1 7 14 0) ∧ setTime (setAt 13 59) = some (60 * mi 2030 1 7 13 59) ∧
    (base.anyBayBusy = false ∧ base.dl.scan = false ∧ base.ck.outbox.length < 2) ∧
    historyPoint base = some (60 * mi 2030 1 7 14 0) ∧
    (clock fun c => { c with outbox := List.replicate 1 ⟨none, .CLOCK_SET none 0⟩ }).ck.outbox.length < 2 ∧
    2 ≤ (clock fun c => { c with outbox := List.replicate 2 ⟨none, .CLOCK_SET none 0⟩ }).ck.outbox.length

def load (st : BayState) : BayUnit := { BayUnit.reset with
  state := st, doc := some "D2", driver := some 2, plan := some plan1, verdict := some clear1,
  lines := [line0 1 .OPEN, line0 2 .OPEN], bond := true }
/-- The small state with another bay 1. -/
def bay1 (u : BayUnit) : State := base.setBay 0 u

abbrev hyps_RulesAndMatchAreWritten : Prop :=
    Ready (hd false) base ∧ ruleInRange base.ck ⟨some .FWD, 3, some (.WEEKDAY 7 0), 2⟩ = some (.FWD, fwd30) ∧
    base.anyBayBusy = false ∧ Ready (hd false) (bay1 (load .ASSIGNED)) ∧ (bay1 (load .ASSIGNED)).anyBayBusy = true ∧
    (ruleInRange (bay1 (load .ASSIGNED)).ck ⟨some .FWD, 3, some (.WEEKDAY 7 0), 2⟩).isSome = true ∧
    ((∀ m ∈ some 59, m ≤ 59) ∧ (∀ m ∈ some 23, m ≤ 23) ∧ ∀ d ∈ some 6, d ≤ 6) ∧ (¬∀ m ∈ some 60, m ≤ 59) ∧
    (⟨none, some none, some (some 6)⟩ : DaycloseArgs).minute = none

abbrev hyps_ClearstampClearsTheFirstLoss : Prop :=
    Ready (hd false) base ∧ base.supply = true ∧ base.ck.isSet = true ∧ base.ck.firstLoss = none

theorem test_premises_clock :
    hyps_DstInstantChangesTheState ∧ hyps_SupplyLossStampsTheTime ∧ hyps_ClockSetTakesTheTime ∧
    hyps_RulesAndMatchAreWritten ∧ hyps_ClearstampClearsTheFirstLoss := by
  refine ⟨⟨?_, ?_, ?_, ?_, ?_, ?_, ?_⟩, ?_, ?_, ?_, ?_⟩
  case refine_7 => rintro s (rfl | rfl | rfl) <;> decide +kernel
  all_goals decide +kernel

theorem test_hyps_DstInstantChangesTheState : hyps_DstInstantChangesTheState := test_premises_clock.1
theorem test_hyps_SupplyLossStampsTheTime : hyps_SupplyLossStampsTheTime := test_premises_clock.2.1
theorem test_hyps_ClockSetTakesTheTime : hyps_ClockSetTakesTheTime := test_premises_clock.2.2.1
theorem test_hyps_RulesAndMatchAreWritten : hyps_RulesAndMatchAreWritten := test_premises_clock.2.2.2.1
theorem test_hyps_ClearstampClearsTheFirstLoss : hyps_ClearstampClearsTheFirstLoss := test_premises_clock.2.2.2.2

/-! ## The starts and the readouts -/

inductive Pause6 | done

def held : State := bay1 (load .HELD)

/-- CK has a record in its outbox. -/
def owing : State := clock fun c => { c with outbox := [⟨none, .CLOCK_SET none 0⟩] }

abbrev hyps_EveryStartLeavesTheseStates : Prop :=
    ((after (exec (.warmStart env) owing)).outbox .CK).head?.isSome = true ∧ base.supply = true ∧ (link fun d => { d with resetWait := true }).supply = true ∧
    (link fun d => { d with resetWait := true }).dv.resetWait = true ∧
    (link fun d => { d with resetWait := true }).dv.replies = [] ∧
    (link fun d => { d with resetWait := true }).dv.wire = none

def pulsed (c : Nat) (st : LineState) : LineRec := { line0 c st with pulses := 400, vo := 4000 }

/-- The supply was lost on 2030-01-d at 00:00, the match's minute, and it is now five minutes past midnight two dates
later; the date before the loss has fired. -/
def lost (d : Nat) (due : Bool) : State :=
  { clock fun c => { c with count := 60 * mi 2030 1 (d + 2) 0 5, latestLoss := some (60 * mi 2030 1 d 0 0),
                            minuteDue := due, lastFired := some (mi 2030 1 d 0 0 / 1440 - 1) } with supply := false }

/-- Of the minutes at which the match comes, the one of the loss passed untested if it was still due, and the one of the
next date passed; the date before the loss was fired. -/
theorem test_day_missed :
    DayMissed (lost 7 true).ck (lost 7 true).nowMin (mi 2030 1 7 0 0 / 1440) ∧
    DayMissed (lost 7 false).ck (lost 7 false).nowMin (mi 2030 1 8 0 0 / 1440) ∧
    ¬DayMissed (lost 7 true).ck (lost 7 true).nowMin (mi 2030 1 6 0 0 / 1440) := by
  refine ⟨⟨by decide +kernel, 0, by decide +kernel, ?_⟩, ⟨by decide +kernel, 0, by decide +kernel, ?_⟩, fun h => ?_⟩
  · exact ⟨_, rfl, .inl ⟨by decide +kernel, .inr ⟨rfl, by decide +kernel⟩, by decide +kernel⟩⟩
  · exact ⟨_, rfl, .inl ⟨by decide +kernel, .inl (by decide +kernel), by decide +kernel⟩⟩
  · exact absurd (h.1 _ rfl) (by decide +kernel)

/-- The late day close finds the same dates: with the present date's match in its turn, then where only the loss's own
minute, still due at the loss, matches, and none once that minute had been tested. -/
theorem test_late_date :
    let late := fun (s : State) (now : Nat) => s.ck.latestLoss.bind fun l => lateDate s.ck (s.ck.untested l) now
    late (lost 7 false) (lost 7 false).nowMin = some (mi 2030 1 9 0 0 / 1440) ∧
    late (lost 7 true) (mi 2030 1 7 5 0) = some (mi 2030 1 7 0 0 / 1440) ∧
    late (lost 7 false) (mi 2030 1 7 5 0) = none := by decide +kernel

def ctx1 : Ctx := ⟨1, 900, false, false, 0, 0, false, 0, false⟩
/-- Compartment 1 runs. -/
def flow (st : BayState) (ls : LineState) : BayUnit :=
  { load st with lines := [line0 1 ls, line0 2 .OPEN], ctx := some ctx1 }

/-- A held bay with a loaded line, at a start that finds the settings failed: the bay is CLOSED, its document a DRAFT, its
driver ON_SITE, and the CANCEL record is in its outbox and posted. -/
theorem test_start_with_failed_settings :
    let t := after (exec (.resetLine badEnv) (bay1 { load .HELD with lines := [pulsed 1 .OVER] }))
    (t.bay 0).state = .CLOSED ∧ (t.bay 0).lines = [] ∧ ((t.docOf "D2").map (·.state)) = some .DRAFT ∧
    (t.driverOf 2).map (·.status) = some .ON_SITE ∧ (t.bay 0).outbox.map (·.body) =
      [.CANCEL ⟨0, "D2", 2, .RESET, [⟨1, "DSL", 900, 400, 4000, .OVER, Marks.none, none⟩]⟩] ∧
    t.dl.queue.map (·.source) = [.DV, .B 0] ∧
    (noticesOut t).map Notice.pair = [(.DV, .FAULT), (.ST, .APPLIED), (.B 0, .HOLD), (.B 0, .STATE), (.B 0, .LINES)] := by
  decide +kernel

/-- At a start with good settings a running compartment that counted no good sample comes to HELD with NO_TEMP. -/
theorem test_start_ends_a_compartment :
    let t := after (exec (.resetLine env) (bay1 (flow .LOADING .LOADING)))
    (t.bay 0).state = .HELD ∧ (t.bay 0).ctx = none ∧ (t.bay 0).lines.map (·.state) = [.NO_TEMP, .OPEN] ∧
    (t.bay 0).holds = { Holds.none with temperature := true, restart := true } := by decide +kernel

abbrev hyps_WarmStartsKeepBaysAndRecordTheLoss : Prop :=
    base.supply = true ∧ (base.st.storeGood && env.settingsGood) = true ∧
    (base.st.storeGood && badEnv.settingsGood) = false ∧ base.dl.writing = none ∧ base.dl.scan = false ∧
    (((bay1 (flow .PAUSED .LOADING)).bay 0).ctx = some ctx1 ∧
      lineRead (bay1 (flow .PAUSED .LOADING)) (some "D2") 0 1 = some (dline 1 dsl)) ∧
    ((held.bay 0).doc = some "D2" ∧ (held.bay 0).driver = some 2) ∧
    ((bay1 { load .ASSIGNED with lines := [pulsed 1 .VERIFIED] }).bay 0).anyLoaded = true ∧
    ((bay1 (load .HELD)).bay 0).anyLoaded = false ∧ ({ base with supply := false } : State).supply = false ∧
    (lost 7 true).supply = false ∧ (lost 7 true).ck.isSet = true ∧ MatchLegal (lost 7 true).ck

abbrev hyps_ReadoutsChangeNothing : Prop :=
    Ready (hd true) base ∧ base.ck.isSet = true ∧ base.driverOf 2 = some drv2 ∧ planInRange plan1 = true ∧
    base.dl.scan = false ∧ Ready (hd true) (bay1 (load .HELD)) ∧
    ((bay1 (load .HELD)).bay 0).lineOf 2 = some (line0 2 .OPEN)

def staged (n : Nat) : Staging := ⟨"D9", 2, "T9", none, none, plan1, List.replicate n (dline 1 dsl)⟩
def staging (n : Nat) : State := base.modCp fun c => { c with staging := some (staged n) }

abbrev hyps_TableStatusCountsRecords : Prop :=
    Ready (hd false) base ∧ base.cp.staging = none ∧ Ready (hd false) (staging 1) ∧
    (staging 1).cp.staging = some (staged 1)

theorem test_premises_readouts :
    hyps_EveryStartLeavesTheseStates ∧ hyps_WarmStartsKeepBaysAndRecordTheLoss ∧ hyps_ReadoutsChangeNothing ∧
    hyps_TableStatusCountsRecords := by
  refine ⟨?_, ?_, ?_, ?_⟩ <;> decide +kernel

theorem test_hyps_EveryStartLeavesTheseStates : hyps_EveryStartLeavesTheseStates := test_premises_readouts.1
theorem test_hyps_WarmStartsKeepBaysAndRecordTheLoss : hyps_WarmStartsKeepBaysAndRecordTheLoss := test_premises_readouts.2.1
theorem test_hyps_ReadoutsChangeNothing : hyps_ReadoutsChangeNothing := test_premises_readouts.2.2.1
theorem test_hyps_TableStatusCountsRecords : hyps_TableStatusCountsRecords := test_premises_readouts.2.2.2

/-! ## The duty table and the papers -/

inductive Pause7 | done

def drivers (l : List Driver) : State := base.modDt fun d => { d with drivers := l }
def many (n : Nat) : List Driver := (List.range n).map fun i => { drv1 with num := 100 + i }
/-- One minute of work every other minute from Mon 05:00. -/
def busyList (n : Nat) : List Entry :=
  (List.range n).map fun i => ⟨mi 2030 1 7 5 0 + 2 * i, some (mi 2030 1 7 5 0 + 2 * i + 1), .WORK, .IMPORT⟩
def crowded (n : Nat) : State := drivers [{ drv1 with list := busyList n }]

abbrev hyps_DriversAreEnrolledAndComeAndGo : Prop :=
    (Ready (hd false) (drivers (many 95)) ∧ (drivers (many 95)).driverOf 9 = none ∧
      (drivers (many 95)).dt.drivers.length < 96) ∧
    ((drivers (many 96)).driverOf 9 = none ∧ 96 ≤ (drivers (many 96)).dt.drivers.length) ∧
    (Ready (hd false) base ∧ base.driverOf 1 = some drv1 ∧ drv1.status = .ABSENT ∧ base.driverOf 3 = some drv3 ∧
      drv3.status = .ON_SITE ∧ base.driverOf 4 = some drv4 ∧ drv4.status = .ON_TRIP) ∧
    (base.driverOf 2 = some drv2 ∧ ∃ b, drv2.status = .AT_BAY b) ∧ base.driverOf 99999999 = none ∧
    (base.ck.isSet = true ∧ (clock fun c => { c with isSet := false }).ck.isSet = false) ∧
    ((crowded 31).pruned (busyList 31 ++ [⟨base.nowMin, none, .WORK, .TERMINAL⟩])).length ≤ 32 ∧
    32 < ((crowded 32).pruned (busyList 32 ++ [⟨base.nowMin, none, .WORK, .TERMINAL⟩])).length

def imported (h1 h2 : Nat) : ImportArgs := ⟨1, some .REST, ⟨2030, 1, 7, h1, 0⟩, ⟨2030, 1, 7, h2, 0⟩⟩
def importedEntry (h1 h2 : Nat) : Entry := ⟨mi 2030 1 7 h1 0, some (mi 2030 1 7 h2 0), .REST, .IMPORT⟩

abbrev hyps_ImportInsertsAnEntry : Prop :=
    Ready (hd false) (crowded 31) ∧ importEntry (imported 3 3) = none ∧
    importEntry (imported 3 5) = some (importedEntry 3 5) ∧ importEntry (imported 3 16) = some (importedEntry 3 16) ∧
    (crowded 31).driverOf 1 = some { drv1 with list := busyList 31 } ∧ (crowded 31).ck.isSet = true ∧
    (clock fun c => { c with isSet := false }).ck.isSet = false ∧ (drivers []).driverOf 1 = none ∧
    (crowded 31).nowMin < (importedEntry 3 16).till 0 ∧ (importedEntry 3 5).till 0 ≤ (crowded 31).nowMin ∧
    (importedEntry 3 15).till 0 ≤ (crowded 31).nowMin ∧
    (∀ y ∈ busyList 31, overlaps (crowded 31).nowMin (importedEntry 3 5) y = false) ∧
    (∃ y ∈ busyList 31, overlaps (crowded 31).nowMin (importedEntry 3 6) y = true) ∧
    ((crowded 31).pruned (insertEntry (importedEntry 3 5) (busyList 31))).length ≤ 32 ∧
    32 < ((crowded 32).pruned (insertEntry (importedEntry 3 5) (busyList 32))).length ∧
    ({ drv1 with pend := true } : Driver).pend = true

def closing (hh : Nat) : ClosetripArgs := ⟨4, ⟨2030, 1, 7, hh, 0⟩, [⟨some .DRIVE, 30⟩]⟩

abbrev hyps_ClosetripClosesTheTrip : Prop :=
    (tripItems [⟨none, 5⟩] = none ∧ tripItems [⟨some .REST, 0⟩] = none ∧ tripItems [⟨some .REST, 1441⟩] = none ∧
      dateValid ⟨2030, 13, 1, 0, 0⟩ = false) ∧
    ((clock fun c => { c with isSet := false }).ck.isSet = false ∧ (drivers []).driverOf 4 = none) ∧
    Ready (hd false) base ∧ (closing 14).drv ≠ 0 ∧ dateValid (closing 14).stop = true ∧
    tripItems (closing 14).segs = some [⟨.DRIVE, 30⟩] ∧ base.ck.isSet = true ∧ base.driverOf 4 = some drv4 ∧
    drv4.status = .ON_TRIP ∧ departureOf drv4.list = some (mi 2030 1 7 14 0) ∧
    (base.nowMin : Int) < dateMinutes (closing 16).stop ∧ dateMinutes (closing 15).stop ≤ base.nowMin ∧
    dateMinutes (closing 13).stop < mi 2030 1 7 14 0 ∧ (mi 2030 1 7 14 0 : Int) ≤ dateMinutes (closing 14).stop ∧
    base.dt.outbox.length < 4 ∧ (base.pruned (closeTrip (mi 2030 1 7 14 0) [⟨.DRIVE, 30⟩] drv4.list)).length ≤ 32 ∧
    32 < (base.pruned (closeTrip (mi 2030 1 7 15 0) [⟨.DRIVE, 30⟩] (busyList 31 ++ [onRoad]))).length

theorem test_hyps_TripLayoutRunsAndPruning :
    (∀ i ∈ [(⟨.DRIVE, 1⟩ : TripItem), ⟨.REST, 1440⟩], 1 ≤ i.minutes) ∧ 330 ≤ 330 ∧ 330 < 331 ∧
    [(⟨.DRIVE, 1⟩ : TripItem), ⟨.REST, 1440⟩][1]? = some ⟨.REST, 1440⟩ ∧
    (let now := mi 2030 1 7 14 50
     let runs := offRuns now list40117285
     DutyOrdered now list40117285 ∧
     runs = [⟨mi 2030 1 6 17 0, mi 2030 1 7 5 0⟩, ⟨mi 2030 1 7 9 30, mi 2030 1 7 10 15⟩,
       ⟨mi 2030 1 7 13 45, mi 2030 1 7 14 0⟩] ∧
     (∀ q ∈ runs, 660 ≤ q.stop - q.start → q.stop ≤ mi 2030 1 7 5 0) ∧
     (∀ q ∈ runs, 45 ≤ q.stop - q.start → q.stop ≤ mi 2030 1 7 10 15) ∧
     (∀ q ∈ runs, q.stop - q.start < 721) ∧ DutyOrdered now [] ∧ offRuns now [atWork] = []) := by decide +kernel

abbrev hyps_OpenAndLineStageADocument : Prop :=
    Ready (hd false) base ∧ base.cp.staging = none ∧ (staging 1).cp.staging = some (staged 1) ∧
    (staged 1).lines.length < (staged 1).expected ∧ (staged 2).expected ≤ (staged 2).lines.length ∧
    Ready (hd false) (staging 2) ∧ (staging 2).cp.staging = some (staged 2) ∧
    lineInRange ⟨0, "DSL", 1202, some .c3, some .II, 900, 1000⟩ = none ∧
    lineInRange ⟨8, "DSL", 1202, some .c3, some .III, 900, 1000⟩ = some ⟨8, "DSL", 1202, .c3, .III, 900, 1000⟩ ∧
    1 ≤ 1 ∧ 8 ≤ 8 ∧ ¬(1 ≤ 0) ∧ ¬(9 ≤ 8)

def staged2 : Staging := { staged 0 with lines := [dline 1 dsl, dline 2 ulp] }

/-- The groups A and B with another entry for their pair. -/
def mixed (e : SegEntry) : Settings :=
  { cfg with matrix := (cfg.matrix.set 0 (cfg.matrix[0].set 1 e)).set 1 (cfg.matrix[1].set 0 e) }

/-- NEVER fails at any distance, APART between neighbours alone, and the first bad pair is found by its first line. -/
theorem test_hyps_FirstBadPair :
    [dline 1 dsl, dline 2 ulp].Pairwise (PairAllowed (mixed .ALLOW)) ∧
    [dline 1 dsl, dline 3 ulp].Pairwise (PairAllowed (mixed .APART)) ∧
    FirstBadPair (mixed .APART) [dline 1 dsl, dline 3 ulp, dline 2 dsl] (dline 3 ulp) (dline 2 dsl) ∧
    FirstBadPair (mixed .NEVER) [dline 1 dsl, dline 8 ulp] (dline 1 dsl) (dline 8 ulp) := by
  have allow (c : Settings) (i j : DocLine) (h : pairPasses c i j = true) : PairAllowed c i j := by
    unfold pairPasses Settings.segEntry at h; unfold PairAllowed; split at h <;> simp_all
  have bad (c : Settings) (i j : DocLine) (h : pairPasses c i j = false) : ¬PairAllowed c i j := by
    unfold pairPasses Settings.segEntry at h; unfold PairAllowed; split at h <;> simp_all
  refine ⟨?_, ?_, ⟨[dline 1 dsl], [], [], rfl, bad _ _ _ (by decide +kernel), nofun, ?_⟩,
    ⟨[], [], [], rfl, bad _ _ _ (by decide +kernel), nofun, by simp⟩⟩
  · exact List.pairwise_pair.2 (allow _ _ _ (by decide +kernel))
  · exact List.pairwise_pair.2 (allow _ _ _ (by decide +kernel))
  · intro p1 x p2 h y hy
    obtain ⟨rfl, rfl⟩ : x = dline 1 dsl ∧ p2 = [] := by cases p1 <;> simp_all
    simp only [List.nil_append, List.mem_cons, List.not_mem_nil, or_false] at hy
    rcases hy with rfl | rfl <;> exact allow _ _ _ (by decide +kernel)

abbrev hyps_ConfirmEntersADraft : Prop :=
    Ready (hd false) base ∧ base.cp.staging = none ∧ Ready (hd false) (staging 1) ∧
    (staging 1).cp.staging = some (staged 1) ∧ (staged 1).lines.length < (staged 1).expected ∧
    validation base (staged 2) = some (.LINE_CONFLICT, [fld "C" "1"]) ∧ (staged 2).expected ≤ (staged 2).lines.length ∧
    validation base staged2 = none ∧ staged2.expected ≤ staged2.lines.length ∧
    (∃ x ∈ base.cp.docs, x.num = "D1") ∧ (∀ x ∈ base.cp.docs, x.num ≠ staged2.num) ∧
    64 ≤ (base.modCp fun c => { c with docs := List.replicate 64 doc1 }).cp.docs.length ∧ base.cp.docs.length < 64 ∧
    planInRange plan1 = true ∧ planInRange ⟨0, 150, 1⟩ = false ∧ planInRange ⟨151, 150, 1⟩ = false ∧
    ((staged 2).lines = [dline 1 dsl] ++ dline 1 dsl :: [] ∧ ([dline 1 dsl].map (·.comp)).Nodup ∧
      ∃ m ∈ [dline 1 dsl], m.comp = (dline 1 dsl).comp) ∧
    (staged2.lines.map (·.comp)).Nodup ∧ (∀ l ∈ staged2.lines, l.qty ≤ l.cap) ∧
    { dline 1 dsl with qty := 1001 }.cap < { dline 1 dsl with qty := 1001 }.qty ∧
    (∀ l ∈ staged2.lines, ∃ y ∈ base.st.applied.products, y.code = l.product) ∧
    (¬∃ y ∈ base.st.applied.products, y.code = "KER") ∧
    (base.st.applied.products.find? (fun y => y.code == "DSL") = some dsl ∧ (dline 1 dsl).un = dsl.un ∧
      { dline 1 dsl with un := 1203 }.un ≠ dsl.un)

abbrev hyps_PapersReadVoidAndAbort : Prop :=
    Ready (hd false) (staging 1) ∧ (staging 1).docOf "D9" = none ∧ (staging 1).docOf "D2" = some doc2 ∧
    doc2.state ≠ .DRAFT ∧ (staging 1).docOf "D1" = some doc1 ∧ doc1.state = .DRAFT ∧ doc1.lineOf 1 = some (dline 1 dsl) ∧
    1 ≤ 64 ∧ 64 ≤ 64

def over2 : LineRec := { line0 2 .OVER with pulses := 950, vo := 9500, figs := some ⟨150, 1000000, 9500, 500⟩ }
/-- A bay held for the quantity of its second line. -/
def overHeld : State := bay1 { load .HELD with
  lines := [line0 1 .OPEN, over2], holds := { Holds.none with quantity := true } }

/-- A document of one line with n entries on its stack, bound to the held bay. -/
def lone (n : Nat) : Doc := { doc2 with lines := [dline 2 ulp], stack := List.replicate n ⟨.QTY, dline 2 ulp⟩ }
def oneLine (n : Nat) : State := held.modCp fun c => { c with docs := [doc1, lone n] }
def neverHeld : State := held.modSt fun t => { t with applied := mixed .NEVER }

/-- The line in tolerance again, QUANTITY leaves the holds and the bay returns to ASSIGNED. -/
theorem test_amend_reaches_the_bay :
    (match exec (.cpAmendQty (hd false) (some ⟨"D2", 2, 950⟩)) overHeld with
     | .next t => ((t.bay 0).state, (t.bay 0).holds.quantity, t.dv.notices.map Notice.pair)
     | _ => (.CLOSED, true, [])) = (.ASSIGNED, false, [(.B 0, .LINES), (.B 0, .HOLD), (.B 0, .STATE)]) := by
  decide +kernel

abbrev hyps_AmendmentsAreStacked : Prop :=
    Ready (hd false) held ∧ held.cp.staging = none ∧ held.docOf "D2" = some doc2 ∧ doc2.state = .BOUND 0 ∧
    (held.bay 0).state ≠ .DISPATCHING ∧ doc2.lineOf 2 = some (dline 2 ulp) ∧ doc2.stack.length < 4 ∧
    1 ≤ (dline 2 ulp).cap ∧ (dline 2 ulp).cap ≤ 20000 ∧
    (held.st.applied.products.find? fun y => y.code == dsl.code) = some dsl ∧
    firstFailingPair held.st.applied [dline 1 dsl, dline 2 dsl] = none ∧ doc2.lines.length ≠ 1 ∧
    (held.bay 0).lineOf 2 = some (line0 2 .OPEN) ∧
    (Ready (hd false) overHeld ∧ overHeld.docOf "D2" = some doc2 ∧ (overHeld.bay 0).lineOf 2 = some over2 ∧
      over2.state = .OVER ∧ (overHeld.bay 0).doc = some "D2" ∧ QuantityOpen (some over2.state) ∧
      (reReconcile ⟨10, 5⟩ 950 over2).state = .VERIFIED ∧ (reReconcile ⟨10, 5⟩ 901 over2).state = .OVER)

abbrev hyps_AmendmentRefusals : Prop :=
    (Ready (hd false) (staging 1) ∧ (staging 1).cp.staging = some (staged 1) ∧ (staging 1).docOf "D9" = none ∧
      (staging 1).docOf "D1" = some doc1 ∧ (∀ b, doc1.state ≠ .BOUND b)) ∧
    ((bay1 (load .DISPATCHING)).docOf "D2" = some doc2 ∧ ((bay1 (load .DISPATCHING)).bay 0).state = .DISPATCHING ∧
      doc2.lineOf 3 = none) ∧
    (¬QuantityOpen (some .VERIFIED) ∧ ¬QuantityOpen none ∧ QuantityOpen (some .OPEN)) ∧
    ((oneLine 0).docOf "D2" = some (lone 0) ∧ (lone 0).lines.length = 1 ∧ (lone 0).lineOf 2 = some (dline 2 ulp) ∧
      ((oneLine 0).bay 0).lineOf 2 = some (line0 2 .OPEN) ∧ (oneLine 4).docOf "D2" = some (lone 4) ∧
      4 ≤ (lone 4).stack.length ∧ (lone 3).stack.length < 4) ∧
    ((dline 2 ulp).cap < 1001 ∧ held.st.applied.products.find? (fun y => y.code == "KER") = none ∧
      firstFailingPair neverHeld.st.applied [dline 1 dsl, { dline 2 ulp with qty := 1 }] = some (1, 2) ∧
      neverHeld.st.applied.products.find? (fun y => y.code == "ULP") = some ulp)

def stacked (k : AmendKind) : Doc := { doc2 with stack := [⟨.QTY, dline 1 dsl⟩, ⟨k, dline 2 ulp⟩], count := 2 }
def amended (k : AmendKind) : State := held.modCp fun c => { c with docs := [doc1, stacked k, doc3] }

def amendedOver (k : AmendKind) : State := (amended k).setBay 0 { load .HELD with
  lines := [line0 1 .OPEN, over2], holds := { Holds.none with quantity := true } }

def neverAmended : State := (amended .PROD).modSt fun t => { t with applied := mixed .NEVER }

/-- A withdrawal that would leave a forbidden pair names its two compartments (R89). -/
theorem test_withdraw_names_the_pair :
    (match exec (.cpWithdraw (hd false) (some "D2")) neverAmended with
     | .next t => t.dv.wire
     | _ => none) = some (.reply ⟨0x10#8, "CP", er .SEGREGATION [fld "C" "1,2"]⟩) := by decide +kernel

abbrev hyps_WithdrawTakesTheNewestBack : Prop :=
    Ready (hd false) held ∧ held.docOf "D2" = some doc2 ∧ doc2.stack = [] ∧
    (bay1 (load .DISPATCHING)).docOf "D2" = some doc2 ∧ ((bay1 (load .DISPATCHING)).bay 0).state = .DISPATCHING ∧
    Ready (hd false) (amended .PROD) ∧ (amended .PROD).docOf "D2" = some (stacked .PROD) ∧
    (stacked .PROD).state = .BOUND 0 ∧ (stacked .PROD).stack = [⟨.QTY, dline 1 dsl⟩] ++ [⟨.PROD, dline 2 ulp⟩] ∧
    ((amended .PROD).bay 0).lineOf 2 = some (line0 2 .OPEN) ∧
    firstFailingPair (amended .PROD).st.applied (restoredLines ⟨.PROD, dline 2 ulp⟩ doc2.lines) = none ∧
    (({ load .ASSIGNED with lines := [line0 1 .OPEN, line0 2 .VERIFIED] } : BayUnit).lineOf 2).map (·.state) ≠ some .OPEN ∧
    ((amended .PROD).st.applied.products.find? (fun y => y.code == "ULP") = some ulp ∧
      [dsl].find? (fun y => y.code == "ULP") = none ∧ (dline 2 ulp).un ≠ { ulp with un := 1202 }.un ∧
      Ready (hd false) neverAmended ∧ neverAmended.docOf "D2" = some (stacked .PROD) ∧
      (neverAmended.bay 0).lineOf 2 = some (line0 2 .OPEN) ∧
      firstFailingPair neverAmended.st.applied (restoredLines ⟨.PROD, dline 2 ulp⟩ doc2.lines) = some (1, 2))

abbrev hyps_WithdrawAtTheBay : Prop :=
    ((amendedOver .QTY).docOf "D2" = some (stacked .QTY) ∧ ((amendedOver .QTY).bay 0).lineOf 2 = some over2 ∧
      ((amendedOver .QTY).bay 0).doc = some "D2" ∧ (stacked .QTY).lineOf 2 ≠ none) ∧
    ((amended (.REMOVE 1)).docOf "D2" = some (stacked (.REMOVE 1)) ∧ (amended (.REMOVE 1)).cp.staging = none)

abbrev hyps_WithdrawalUndoesTheAmendment : Prop :=
    (doc2.lines.map (·.comp)).Nodup ∧ dline 2 ulp ∈ doc2.lines ∧ (dline 2 dsl).comp = (dline 2 ulp).comp

theorem test_premises_papers :
    hyps_DriversAreEnrolledAndComeAndGo ∧ hyps_ImportInsertsAnEntry ∧ hyps_ClosetripClosesTheTrip ∧
    hyps_OpenAndLineStageADocument ∧ hyps_ConfirmEntersADraft ∧ hyps_PapersReadVoidAndAbort ∧
    hyps_AmendmentsAreStacked ∧ hyps_WithdrawTakesTheNewestBack ∧ hyps_WithdrawalUndoesTheAmendment ∧
    hyps_AmendmentRefusals ∧ hyps_WithdrawAtTheBay := by
  refine ⟨?_, ?_, ?_, ?_, ?_, ?_, ?_, ?_, ?_, ?_, ?_⟩ <;> decide +kernel

theorem test_hyps_DriversAreEnrolledAndComeAndGo : hyps_DriversAreEnrolledAndComeAndGo := test_premises_papers.1
theorem test_hyps_ImportInsertsAnEntry : hyps_ImportInsertsAnEntry := test_premises_papers.2.1
theorem test_hyps_ClosetripClosesTheTrip : hyps_ClosetripClosesTheTrip := test_premises_papers.2.2.1
theorem test_hyps_OpenAndLineStageADocument : hyps_OpenAndLineStageADocument := test_premises_papers.2.2.2.1
theorem test_hyps_ConfirmEntersADraft : hyps_ConfirmEntersADraft := test_premises_papers.2.2.2.2.1
theorem test_hyps_PapersReadVoidAndAbort : hyps_PapersReadVoidAndAbort := test_premises_papers.2.2.2.2.2.1
theorem test_hyps_AmendmentsAreStacked : hyps_AmendmentsAreStacked := test_premises_papers.2.2.2.2.2.2.1
theorem test_hyps_WithdrawTakesTheNewestBack : hyps_WithdrawTakesTheNewestBack := test_premises_papers.2.2.2.2.2.2.2.1
theorem test_hyps_WithdrawalUndoesTheAmendment : hyps_WithdrawalUndoesTheAmendment := test_premises_papers.2.2.2.2.2.2.2.2.1
theorem test_hyps_AmendmentRefusals : hyps_AmendmentRefusals := test_premises_papers.2.2.2.2.2.2.2.2.2.1
theorem test_hyps_WithdrawAtTheBay : hyps_WithdrawAtTheBay := test_premises_papers.2.2.2.2.2.2.2.2.2.2

/-! ## The bays -/

inductive Pause8 | done

/-- A sample of bay 1 runs. -/
def sampling (final : Bool) (s : State) : State :=
  s.modTs fun t => { t with conv := .SAMPLE 0 false, reqs := t.reqs.set 0 (some ⟨1000, final⟩), lastServed := 0 }
abbrev hyps_AssignBindsDocumentAndDriver : Prop :=
    Ready (hd false) base ∧ (base.bay 1).state ≠ .IDLE ∧ (base.bay 0).state = .IDLE ∧ (base.bay 0).outbox = [] ∧
    ((bay1 { BayUnit.reset with state := .IDLE, outbox := [⟨none, .RESTART .COLD⟩] }).bay 0).outbox ≠ [] ∧
    (base.ck.isSet = true ∧ (clock fun c => { c with isSet := false }).ck.isSet = false) ∧
    cpBindRefusal base "D2" 3 = some .DOC_BUSY ∧ cpBindRefusal base "D3" 3 = some .STATE ∧
    (base.docOf "D1" = some doc1 ∧ doc1.state = .DRAFT ∧ doc1.matchesDriver 3 = true) ∧
    dtBindRefusal base 1 = some .DRIVER_ABSENT ∧ dtBindRefusal base 2 = some .DRIVER_BUSY ∧
    base.driverOf 3 = some drv3 ∧ drv3.status = .ON_SITE

abbrev hyps_LoadingStartsStopsAndResumes : Prop :=
    (Ready (hd false) (bay1 (load .ASSIGNED)) ∧ ((bay1 (load .ASSIGNED)).bay 0).state = .ASSIGNED ∧
      ((bay1 (load .ASSIGNED)).bay 0).lineOf 1 = some (line0 1 .OPEN) ∧
      ((bay1 (load .ASSIGNED)).bay 0).lineOf 8 = none ∧ ((bay1 (load .ASSIGNED)).bay 0).bond = true ∧
      ((bay1 (load .ASSIGNED)).bay 0).halt = false ∧
      lineRead (bay1 (load .ASSIGNED)) (some "D2") 0 1 = some (dline 1 dsl)) ∧
    (¬(1 ≤ 0 ∧ 0 ≤ 8 ∧ 1 ≠ 0) ∧ ¬(1 ≤ 9 ∧ 9 ≤ 8 ∧ 1 ≠ 0) ∧ ¬(1 ≤ 8 ∧ 8 ≤ 8 ∧ 0 ≠ 0)) ∧
    ((bay1 { load .ASSIGNED with lines := [line0 1 .OVER] }).bay 0).lineOf 1 = some (line0 1 .OVER) ∧
    ((bay1 { load .ASSIGNED with bond := false }).bay 0).bond = false ∧
    ((bay1 { load .ASSIGNED with halt := true }).bay 0).halt = true ∧
    (base.bay 0).state ≠ .ASSIGNED ∧ (base.bay 0).state ≠ .HELD ∧ (base.bay 0).state ≠ .LOADING ∧
    (base.bay 0).state ≠ .PAUSED ∧ (held.bay 0).state = .HELD ∧
    (Ready (hd false) (bay1 (flow .LOADING .LOADING)) ∧ ((bay1 (flow .LOADING .LOADING)).bay 0).state = .LOADING ∧
      ((bay1 (flow .LOADING .LOADING)).bay 0).ctx = some ctx1) ∧
    (Ready (hd false) (bay1 (flow .PAUSED .LOADING)) ∧ ((bay1 (flow .PAUSED .LOADING)).bay 0).state = .PAUSED ∧
      ((bay1 (flow .PAUSED .LOADING)).bay 0).ctx = some ctx1 ∧ ((bay1 (flow .PAUSED .LOADING)).bay 0).halt = false ∧
      ((bay1 (flow .PAUSED .LOADING)).bay 0).bond = true) ∧
    ((bay1 { flow .PAUSED .LOADING with halt := true }).bay 0).halt = true ∧
    ((bay1 { flow .PAUSED .LOADING with bond := false }).bay 0).bond = false

def noTemp : LineRec := { line0 1 .NO_TEMP with pulses := 400, vo := 4000 }

abbrev hyps_HoldsAreLifted : Prop :=
    (base.bay 1).state = .CLOSED ∧ (base.bay 0).state ≠ .CLOSED ∧ (hd true).supv = true ∧ (hd false).supv = false ∧
    (held.bay 0).holds.restart = false ∧
    ((bay1 { load .HELD with holds := { Holds.none with restart := true } }).bay 0).holds.restart = true ∧
    Ready (hd true) (bay1 { load .HELD with lines := [noTemp] }) ∧
    (-400 : Int) ≤ -400 ∧ (700 : Int) ≤ 700 ∧ ((bay1 { load .HELD with lines := [noTemp] }).bay 0).state = .HELD ∧
    ((bay1 { load .HELD with lines := [noTemp] }).bay 0).lineOf 1 = some noTemp ∧ noTemp.state = .NO_TEMP ∧
    lineRead (bay1 { load .HELD with lines := [noTemp] }) (some "D2") 0 1 = some (dline 1 dsl) ∧
    (held.bay 0).lineOf 1 = some (line0 1 .OPEN) ∧
    (¬(-400 ≤ (-401 : Int)) ∧ ¬((701 : Int) ≤ 700) ∧ (base.bay 0).state ≠ .ASSIGNED ∧ (base.bay 0).state ≠ .HELD ∧
      (held.bay 0).lineOf 8 = none)

abbrev hyps_DriverSwapReplacesTheDriver : Prop :=
    Ready (hd false) held ∧ (base.bay 0).state ≠ .ASSIGNED ∧ (base.bay 0).state ≠ .HELD ∧ (held.bay 0).state = .HELD ∧
    (held.bay 0).doc.bind held.docOf = some doc2 ∧ (held.bay 0).driver = some 2 ∧ (held.bay 0).plan = some plan1 ∧
    doc2.matchesDriver 3 = true ∧ ({ doc2 with driver := some 2 } : Doc).matchesDriver 3 = false ∧
    dtBindRefusal held 1 = some .DRIVER_ABSENT ∧ held.driverOf 3 = some drv3 ∧ drv3.status = .ON_SITE ∧
    held.driverOf 2 = some drv2 ∧ drv2.status = .AT_BAY 0

/-- A swap from one CLEAR driver to another raises HOLD, and no STATE (R127); an IDLE bay's STATUS has no L (R206). -/
theorem test_swap_and_empty_bay :
    (match exec (.bDriver (hd false) 0 (some 3)) (bay1 (load .ASSIGNED)) with
     | .next t => t.dv.notices.map Notice.pair
     | _ => []) = [(.B 0, .HOLD)] ∧
    ((bayStatusFields base 0).all fun f => f.name != "L") = true ∧
    ((bayStatusFields held 0).any fun f => f.name == "L") = true := by decide +kernel

def verified (l : List Entry) : State :=
  (drivers [{ drv2 with list := l }]).setBay 0 { load .ASSIGNED with lines := [line0 1 .VERIFIED, line0 2 .VERIFIED] }

/-- The verdict of bay 1's driver with the plan of its document: CLEAR, LIMIT in the evening, and a full list. -/
abbrev hyps_DispatchMakesTheRecord : Prop :=
    (base.bay 0).state ≠ .ASSIGNED ∧ (base.bay 0).state ≠ .HELD ∧ (held.bay 0).state = .HELD ∧
    (((bay1 (load .ASSIGNED)).bay 0).state = .ASSIGNED ∧
      ((bay1 (load .ASSIGNED)).bay 0).lines.find? (fun m => m.state != .VERIFIED) = some (line0 1 .OPEN)) ∧
    (Ready (hd false) (verified [atWork]) ∧ ((verified [atWork]).bay 0).state = .ASSIGNED ∧
      (∀ l ∈ ((verified [atWork]).bay 0).lines, l.state = .VERIFIED) ∧
      ((verified [atWork]).bay 0).doc.bind (verified [atWork]).docOf = some doc2 ∧
      ((verified [atWork]).bay 0).driver = some 2 ∧ ((verified [atWork]).bay 0).plan = some plan1 ∧
      (verified [atWork]).driverOf 2 = some drv2 ∧ drv2.status = .AT_BAY 0) ∧
    ((verified [atWork]).verdict [atWork] plan1).verdict ≠ .LIMIT ∧
    ((verified [atWork]).verdict [⟨mi 2030 1 7 1 0, none, .WORK, .TERMINAL⟩] plan1).verdict = .LIMIT ∧
    ¬32 < ((verified [atWork]).pruned (openEntry base.nowMin .DRIVE (closeOpen base.nowMin (busyList 30 ++ [atWork])))).length ∧
    32 < ((verified [atWork]).pruned (openEntry base.nowMin .DRIVE (closeOpen base.nowMin (busyList 31 ++ [atWork])))).length ∧
    ((verified (busyList 31 ++ [atWork])).verdict (busyList 31 ++ [atWork]) plan1).verdict ≠ .LIMIT ∧
    (verified [atWork]).dl.hasAppend (.B 0) = false ∧
    ((verified [atWork]).modDl fun d => { d with queue := [⟨.B 0, ⟨none, .RESTART .COLD⟩⟩] }).dl.hasAppend (.B 0) = true

abbrev hyps_CancelClearAndReset : Prop :=
    Ready (hd false) held ∧ Ready (hd true) held ∧ (base.bay 0).state ≠ .ASSIGNED ∧ (base.bay 0).state ≠ .HELD ∧
    (base.bay 0).state ≠ .DISPATCHED ∧ (base.bay 1).state = .CLOSED ∧
    ((held.bay 0).state = .HELD ∧ (held.bay 0).anyLoaded = false) ∧
    ((bay1 { load .HELD with lines := [pulsed 1 .OVER] }).bay 0).anyLoaded = true ∧
    (held.docOf "D2" = some doc2 ∧ held.driverOf 2 = some drv2 ∧ (held.bay 0).doc = some "D2" ∧ (held.bay 0).driver = some 2) ∧
    ((bay1 (load .DISPATCHED)).bay 0).state = .DISPATCHED ∧ (base.bay 0).state = .IDLE ∧
    (base.bay 0).anyLoaded = false ∧ ((bay1 (flow .FINISHING .FINISHING)).bay 0).state = .FINISHING ∧
    (let s := sampling false (bay1 (flow .LOADING .LOADING))
     Ready (hd true) s ∧ (s.bay 0).state = .LOADING ∧ s.ts.reqs[(0 : Bay)] ≠ none ∧ s.ts.conv = .SAMPLE 0 false) ∧
    (base.ts.reqs[(0 : Bay)] = none ∧ base.ts.conv ≠ .SAMPLE 0 false)

def strays (st : BayState) (n : Nat) : State := bay1 { load st with stray := n }
def atFault (s : State) : State := s.modTs fun t => { t with fault := true }

abbrev hyps_PulsesAreCounted : Prop :=
    base.supply = true ∧ (base.bay 1).state = .CLOSED ∧
    (((bay1 (flow .LOADING .LOADING)).bay 0).state = .LOADING ∧ ((bay1 (flow .LOADING .LOADING)).bay 0).ctx = some ctx1 ∧
      ((bay1 (flow .LOADING .LOADING)).bay 0).lineOf 1 = some (line0 1 .LOADING)) ∧
    (((bay1 (flow .FINISHING .FINISHING)).bay 0).state = .FINISHING ∧ ctx1.settled = false) ∧
    (((strays .ASSIGNED 19).bay 0).state = .ASSIGNED ∧ ((strays .ASSIGNED 19).bay 0).stray = 19) ∧
    (((strays .DISPATCHED 18).bay 0).state = .DISPATCHED ∧ ((strays .DISPATCHED 18).bay 0).stray ≠ 19) ∧
    (base.ts.fault = false ∧ (atFault base).ts.fault = true) ∧
    (let w := 10 * base.st.applied.bays[0].step
     w = 10000 ∧ w * (ctx1.crossings + 1) ≤ roundHalfUp (1000 * base.st.applied.bays[0].factor) 1000 ∧
       ¬w * (ctx1.crossings + 1) ≤ roundHalfUp (999 * base.st.applied.bays[0].factor) 1000)

/-- A pulse that crosses no step leaves the sampler as it was, and one that crosses posts its weight. -/
theorem test_crossing :
    let at_ (p : Nat) : State := bay1 { flow .LOADING .LOADING with
      lines := [{ line0 1 .LOADING with pulses := p, vo := 10 * p }], ctx := some { ctx1 with preset := 2000 } }
    ((pulse 0 (at_ 998)).ts = (at_ 998).ts) ∧ (pulse 0 (at_ 999)).ts.reqs[(0 : Bay)] = some ⟨10000, false⟩ ∧
    (pulse 0 (atFault (at_ 999))).ts = (atFault (at_ 999)).ts := by decide +kernel

abbrev hyps_EdgesPauseAndTheLimitEnds : Prop :=
    ({ base with supply := false } : State).supply = false ∧ base.supply = true ∧
    (((bay1 (flow .LOADING .LOADING)).bay 0).state = .LOADING ∧ ((bay1 (flow .LOADING .LOADING)).bay 0).ctx = some ctx1 ∧
      ((bay1 (flow .LOADING .LOADING)).bay 0).halt = false ∧ ((bay1 (flow .LOADING .LOADING)).bay 0).bond = true) ∧
    (((bay1 (flow .PAUSED .LOADING)).bay 0).state = .PAUSED ∧ ((bay1 (flow .PAUSED .LOADING)).bay 0).ctx = some ctx1 ∧
      ((bay1 (flow .PAUSED .LOADING)).bay 0).halt ≠ true ∧ ((bay1 (flow .PAUSED .LOADING)).bay 0).bond ≠ false) ∧
    (((bay1 (load .DISPATCHED)).bay 0).state = .DISPATCHED ∧ ((bay1 (load .DISPATCHED)).bay 0).bond = true) ∧
    (base.bay 0).state ≠ .LOADING ∧ (base.bay 0).state ≠ .PAUSED ∧ (base.bay 0).state ≠ .DISPATCHED

def settling : State := bay1 (flow .FINISHING .FINISHING)

abbrev hyps_SettlePostsTheFinalWeight : Prop :=
    settling.supply = true ∧ (settling.bay 0).state = .FINISHING ∧ (settling.bay 0).ctx = some ctx1 ∧
    (settling.bay 0).lineOf 1 = some (line0 1 .FINISHING) ∧ ctx1.settled = false ∧ settling.ts.fault = false ∧
    (atFault settling).ts.fault = true ∧ (∀ m ∈ (settling.bay 0).lines, m.comp = 1 → m = line0 1 .FINISHING) ∧
    lineRead (atFault settling) (settling.bay 0).doc 0 1 = some (dline 1 dsl) ∧
    ((bay1 { flow .FINISHING .FINISHING with ctx := some { ctx1 with settled := true } }).bay 0).ctx =
      some { ctx1 with settled := true }

theorem test_premises_bays :
    hyps_AssignBindsDocumentAndDriver ∧ hyps_LoadingStartsStopsAndResumes ∧ hyps_HoldsAreLifted ∧
    hyps_DriverSwapReplacesTheDriver ∧ hyps_DispatchMakesTheRecord ∧ hyps_CancelClearAndReset ∧
    hyps_PulsesAreCounted ∧ hyps_EdgesPauseAndTheLimitEnds ∧ hyps_SettlePostsTheFinalWeight := by
  refine ⟨?_, ?_, ?_, ?_, ?_, ?_, ?_, ?_, ?_⟩ <;> decide +kernel

theorem test_hyps_AssignBindsDocumentAndDriver : hyps_AssignBindsDocumentAndDriver := test_premises_bays.1
theorem test_hyps_LoadingStartsStopsAndResumes : hyps_LoadingStartsStopsAndResumes := test_premises_bays.2.1
theorem test_hyps_HoldsAreLifted : hyps_HoldsAreLifted := test_premises_bays.2.2.1
theorem test_hyps_DriverSwapReplacesTheDriver : hyps_DriverSwapReplacesTheDriver := test_premises_bays.2.2.2.1
theorem test_hyps_DispatchMakesTheRecord : hyps_DispatchMakesTheRecord := test_premises_bays.2.2.2.2.1
theorem test_hyps_CancelClearAndReset : hyps_CancelClearAndReset := test_premises_bays.2.2.2.2.2.1
theorem test_hyps_PulsesAreCounted : hyps_PulsesAreCounted := test_premises_bays.2.2.2.2.2.2.1
theorem test_hyps_EdgesPauseAndTheLimitEnds : hyps_EdgesPauseAndTheLimitEnds := test_premises_bays.2.2.2.2.2.2.2.1
theorem test_hyps_SettlePostsTheFinalWeight : hyps_SettlePostsTheFinalWeight := test_premises_bays.2.2.2.2.2.2.2.2

/-! ## The sampler -/

inductive Pause9 | done

abbrev hyps_SampleReachesItsBay : Prop :=
    base.ts.conv = .FREE ∧ nextBay (sampling true settling).ts = some 0 ∧ nextBay base.ts = none ∧
    (sampling false settling).supply = true ∧ (sampling false settling).ts.conv = .SAMPLE 0 false ∧
    (sampling false settling).ts.reqs[(0 : Bay)] = some ⟨1000, false⟩ ∧ (sampling false settling).ts.reqs[(0 : Bay)] ≠ none ∧
    ((sampling false settling).bay 0).ctx = some ctx1 ∧
    (sampling true settling).ts.reqs[(0 : Bay)] = some ⟨1000, true⟩ ∧ ((sampling true settling).bay 0).state = .FINISHING ∧
    lineRead (sampling true settling) ((sampling true settling).bay 0).doc 0 1 = some (dline 1 dsl) ∧
    (base.modTs fun t => { t with conv := .SAMPLE 0 true }).ts.conv = .SAMPLE 0 true

def calibrating (s : State) : State := s.modTs fun t => { t with conv := .CAL, due := true }

abbrev hyps_CalibrationDecidesHealth : Prop :=
    (calibrating base).supply = true ∧ (calibrating base).ts.conv = .CAL ∧ Ready (hd false) (calibrating base) ∧
    base.ts.conv = .FREE ∧ (sampling false settling).ts.conv = .SAMPLE 0 false ∧ Ready (hd false) (sampling false settling) ∧
    (200 + 1000 ≤ 1200 ∧ 1200 ≤ 200 + 4000 ∧ 200 ≤ 200 ∧ 200 ≤ 1800 ∧ sampleCode 200#12 200#12 = 200 ∧
      sampleCode 1200#12 1200#12 = 1200) ∧
    ¬(sampleCode 200#12 200#12 + 1000 ≤ sampleCode 1199#12 1199#12) ∧
    (atFault (calibrating base)).ts.fault = true ∧ base.ts.fault = false ∧
    (calibrating (settling.modTs fun t => { t with reqs := t.reqs.set 0 (some ⟨1000, true⟩) })).ts.reqs[(0 : Bay)] =
      some ⟨1000, true⟩ ∧
    lineRead (calibrating settling) ((calibrating settling).bay 0).doc 0 1 = some (dline 1 dsl)

theorem test_hyps_ReconciliationComputesTheFigures :
    0 < 1000 ∧ (line0 1 .FINISHING).faulted = 0 ∧ 0 < { line0 1 .FINISHING with weightSum := 1 }.weightSum ∧
    (line0 1 .FINISHING).weightSum = 0 ∧ (line0 1 .FINISHING).finalTemp = none ∧
    { line0 1 .FINISHING with finalTemp := some (-400) }.finalTemp = some (-400) ∧
    0 < { line0 1 .FINISHING with faulted := 1 }.faulted ∧
    { line0 1 .OVER with figs := some ⟨236, 992799, 75620, 620⟩ }.figs = some ⟨236, 992799, 75620, 620⟩ := by decide

theorem test_premises_sampler :
    hyps_SampleReachesItsBay ∧ hyps_CalibrationDecidesHealth := by
  refine ⟨?_, ?_⟩ <;> decide +kernel

theorem test_hyps_SampleReachesItsBay : hyps_SampleReachesItsBay := test_premises_sampler.1
theorem test_hyps_CalibrationDecidesHealth : hyps_CalibrationDecidesHealth := test_premises_sampler.2

/-! ## The log -/

inductive Pause10 | done

def power1 : LogRec := ⟨none, .POWER none none⟩
def stored (n : Nat) (check : Bool) : StoredRec := ⟨n, power1, if check then some (recordCheck n power1) else none⟩
def log (f : Dl → Dl) : State := base.modDl f
def segs (g h : Segment) (d : Dl) : Dl := { d with segs := (d.segs.set 0 g).set 1 h }
def seg (st : SegState) (rs : List StoredRec) : Segment := ⟨st, none, rs, none, false⟩

abbrev hyps_AppendsAreServed : Prop :=
    base.supply = true ∧ base.dl.queue = [] ∧ base.dl.scan = false ∧ base.dl.writing = none ∧
    (log fun d => { d with queue := [⟨.CK, power1⟩] }).dl.queue = ⟨.CK, power1⟩ :: [] ∧
    (∀ i, base.dl.active = some i → False) ∧
    (base.dl.segs[base.dl.lastOpened + 1 + 0].state = .ERASED ∧ base.dl.nextSeq ≤ 4294967295) ∧
    (log (segs (seg .ACTIVE []) Segment.erased)).dl.active = some 0 ∧
    power1.slots + (((List.replicate 255 (stored 1 true)).map fun x => x.record.slots).sum) ≤ 256 ∧
    ¬power1.slots + (((List.replicate 256 (stored 1 true)).map fun x => x.record.slots).sum) ≤ 256 ∧
    (∀ i : SegNo, (log fun d => { d with segs := Vector.replicate 32 (seg .DAMAGED []) }).dl.segs[i].state ≠ .ERASED) ∧
    4294967295 < (log fun d => { d with nextSeq := 4294967296 }).dl.nextSeq ∧
    (∀ x ∈ ([⟨.DT, power1⟩] : List Append), x.source ≠ .CK) ∧ (∃ x ∈ ([⟨.CK, power1⟩] : List Append), x.source = .CK)

/-- A source whose append is refused posts its next record (R176, R23). -/
theorem test_refused_posts_the_next :
    (serveAppend ((clock fun c => { c with outbox := [power1, power1] }).modDl fun d =>
      { d with queue := [⟨.CK, power1⟩, ⟨.DT, power1⟩], scan := false, nextSeq := 4294967296 })).dl.queue =
      [⟨.DT, power1⟩, ⟨.CK, power1⟩] := by decide +kernel

def dispatch1 : LogRec := ⟨none, .DISPATCH ⟨0, "D2", "T2", none, 2, .CLEAR, 100, .DAY, 0, []⟩⟩
/-- The number space is exhausted, and a record stands at the head of the queue. -/
def unserved (src : LogSource) (r : LogRec) (s : State) : State :=
  s.modDl fun d => { d with queue := [⟨src, r⟩], nextSeq := 4294967296 }

/-- What a refused append tells: the bay by STATE, ST by APPLIED, DL by SPACE, and by DAY of a DAY_CLOSE (R176). -/
theorem test_refused_tells :
    let told := fun s => (serveAppend s).dv.notices.map Notice.pair
    told (unserved (.B 0) dispatch1 (bay1 (load .DISPATCHING))) = [(.B 0, .STATE), (.DL, .SPACE)] ∧
    told (unserved .ST ⟨none, .SETTINGS [.BAY]⟩ base) = [(.ST, .APPLIED), (.DL, .SPACE)] ∧
    told (unserved .CK ⟨none, .DAY_CLOSE DayCounts.zero⟩ base) = [(.DL, .SPACE), (.DL, .DAY)] := by decide +kernel

def writing (src : LogSource) (r : LogRec) : State :=
  log fun d => segs (seg .ACTIVE []) Segment.erased { d with writing := some ⟨src, r, 1, 0, false⟩, nextSeq := 2 }

/-- The DISPATCH record of a bay that was reset is written: LATE_DISPATCH with the record's document (R131). -/
theorem test_late_dispatch :
    (writeDone (writing (.B 0) dispatch1)).dv.notices = [⟨.B 0, .STATE,
      [fld "STATE" "IDLE", fld "REASON" "LATE_DISPATCH", fld "DOC" "D2", fld "LOGFULL" "0"]⟩] := by decide +kernel

theorem test_hyps_WritesComplete :
    base.supply = true ∧ base.dl.writing = none ∧ (writing .CK power1).dl.writing = some ⟨.CK, power1, 1, 0, false⟩ ∧
    (∀ n, power1.body ≠ .DAY_CLOSE n) ∧
    (writing .CK ⟨none, .DAY_CLOSE DayCounts.zero⟩).dl.writing = some ⟨.CK, ⟨none, .DAY_CLOSE DayCounts.zero⟩, 1, 0, false⟩ ∧
    (writing (.B 0) dispatch1).dl.writing = some ⟨.B 0, dispatch1, 1, 0, false⟩ ∧
    isDispatch dispatch1 = true ∧ base.docOf "D2" = some doc2 ∧ doc2.state = .BOUND 0 ∧
    (drivers [{ drv2 with pend := true }]).driverOf 2 = some { drv2 with pend := true } ∧
    (∀ a ∈ (writing .CK power1).dl.queue, a.source ≠ .CK) ∧
    (∃ a ∈ ((writing .CK power1).modDl fun d => { d with queue := [⟨.CK, power1⟩] }).dl.queue, a.source = .CK) := by
  refine ⟨?_, ?_, ?_, (fun n h => nomatch h), ?_, ?_, ?_, ?_, ?_, ?_, ?_, ?_⟩ <;> decide +kernel

/-- A number that a write cut off before its first slot did not take is the next one given, a RECLAIM in between or not
(R173, log 42). -/
theorem test_cut_before_first_slot :
    let d := (writing .CK power1).dl
    let r := (beginReclaim 1 ((writing .CK power1).modDl (segs (seg .ACTIVE []) (seg .DAMAGED [])))).dl
    (scanned (cutAppend .beforeFirstSlot d)).nextSeq = 1 ∧ (scanned (cutAppend .beforeFirstSlot r)).nextSeq = 1 ∧
    (scanned (cutAppend .torn r)).nextSeq = 2 := by decide +kernel

/-- Cut off between the FILLED close and the opening, no segment is ACTIVE (R188). -/
theorem test_cut_before_opening :
    let full := { seg .CLOSED [stored 1 true] with reason := some .FILLED }
    let d := segs full (seg .ACTIVE [])
      { Dl.reset with writing := some ⟨.CK, power1, 2, 1, true⟩, nextSeq := 3, lastOpened := 1 }
    (cutAppend .beforeOpening d).active = none ∧ (cutAppend .beforeOpening d).segs[0] = full ∧
    (scanned (cutAppend .beforeOpening d)).nextSeq = 2 ∧ (scanned (cutAppend .beforeOpening d)).lastOpened = 0 := by
  decide +kernel

/-- What a cut-off scan had written stands, and the next scan still finds the day counts behind a close it made (R187,
R189). -/
theorem test_cut_scan :
    let closing : Segment := seg .ACTIVE [⟨1, ⟨none, .DAY_CLOSE DayCounts.zero⟩,
      some (recordCheck 1 ⟨none, .DAY_CLOSE DayCounts.zero⟩)⟩]
    let d := segs (seg .RECLAIMING []) closing { Dl.reset with scan := true, countsFromStore := false }
    (cutScan [] d = d) ∧ (cutScan [0] d).segs[0] = seg .DAMAGED [] ∧ (cutScan [0] d).segs[1] = closing ∧
    (cutScan [0] d).countsFromStore = false ∧ (cutScan [1] d).segs[1].state = .CLOSED ∧
    (cutScan [1] d).countsFromStore = true := by decide +kernel

def readLog (c : Option Cursor) : State :=
  log fun d => segs (seg .CLOSED [stored 3 true, stored 4 false]) (seg .ACTIVE []) { d with cursor := c, nextSeq := 5 }

abbrev hyps_TheCursorReadsTheLog : Prop :=
    Ready (hd false) (readLog none) ∧ (readLog none).dl.scan = false ∧ (readLog none).dl.cursor = none ∧
    (readLog none).dl.segs[(2 : SegNo)].state ≠ .ACTIVE ∧ (readLog none).dl.segs[(2 : SegNo)].state ≠ .CLOSED ∧
    (readLog none).dl.segs[(1 : SegNo)].state = .ACTIVE ∧ (readLog none).dl.segs[(1 : SegNo)].records = [] ∧
    (readLog none).dl.segs[(0 : SegNo)].records = stored 3 true :: [stored 4 false] ∧
    (∀ p ∈ (readLog none).dl.readable, p.2.seq ≠ 4294967295) ∧
    (readLog none).dl.readable.find? (fun p => p.2.seq == 3) = some (0, stored 3 true) ∧
    (readLog none).dl.readable.find? (fun p => p.2.seq == 4) = some (0, stored 4 false) ∧
    (stored 3 true).complete = true ∧ (stored 4 false).complete = false ∧ bodyCount power1.body ≤ 0 + 4 ∧
    0 + 4 < bodyCount (.CANCEL ⟨0, "D2", 2, .RESET, List.replicate 5 ⟨1, "DSL", 900, 0, 0, .OPEN, Marks.none, none⟩⟩) ∧
    (∀ p ∈ (readLog none).dl.readable, p.2.seq < 5) ∧
    ((∀ p ∈ (readLog none).dl.readable, p.2.seq ≠ 1) ∧ ((readLog none).dl.readable.map fun p => p.2.seq).Nodup ∧
      (0, stored 3 true) ∈ (readLog none).dl.readable ∧
      (∀ p ∈ (readLog none).dl.readable, 1 < p.2.seq → 3 ≤ p.2.seq))

def exported1 : Segment := { seg .CLOSED [stored 3 true] with exported := true }

abbrev hyps_ExportAndReclaim : Prop :=
    Ready (hd true) base ∧ Ready (hd false) base ∧ base.dl.scan = false ∧ base.dl.segs[(0 : SegNo)].state ≠ .CLOSED ∧
    base.dl.segs[(0 : SegNo)].state ≠ .DAMAGED ∧ (readLog none).dl.segs[(0 : SegNo)].state = .CLOSED ∧
    (readLog none).dl.segs[(0 : SegNo)].exported = false ∧
    ((log (segs exported1 (seg .RECLAIMING []))).dl.segs[(0 : SegNo)].state = .CLOSED ∧
      (log (segs exported1 (seg .RECLAIMING []))).dl.segs[(0 : SegNo)].exported = true ∧
      ∃ j : SegNo, (log (segs exported1 (seg .RECLAIMING []))).dl.segs[j].state = .RECLAIMING) ∧
    ((log (segs (seg .DAMAGED []) exported1)).dl.segs[(0 : SegNo)].state = .DAMAGED ∧
      ∀ j : SegNo, (log (segs (seg .DAMAGED []) exported1)).dl.segs[j].state ≠ .RECLAIMING) ∧
    (log fun d => { d with reclaim := some ⟨1, 0⟩ }).dl.reclaim = some ⟨1, 0⟩ ∧
    (log fun d => { d with reclaim := some ⟨1, 0⟩, accesses := 1 }).dl.accesses ≠ 0 ∧ base.dl.accesses = 0 ∧
    base.dl.writing = none ∧ (writing .CK power1).dl.writing ≠ none

abbrev hyps_TheScanFindsTheNextNumber : Prop :=
    base.supply = true ∧ base.dl.scan = false ∧ (log fun d => { d with scan := true }).dl.scan = true ∧
    (log fun d => { d with scan := true }).dl.countsFromStore = false ∧
    (∀ i : SegNo, (log fun d => { d with scan := true }).dl.segs[i].state = .ACTIVE →
      (log fun d => { d with scan := true }).dl.segs[i].endsDay = false)

theorem test_premises_log :
    hyps_AppendsAreServed ∧ hyps_TheCursorReadsTheLog ∧ hyps_ExportAndReclaim ∧ hyps_TheScanFindsTheNextNumber := by
  refine ⟨?_, ?_, ?_, ?_⟩ <;> decide +kernel

theorem test_hyps_AppendsAreServed : hyps_AppendsAreServed := test_premises_log.1
theorem test_hyps_TheCursorReadsTheLog : hyps_TheCursorReadsTheLog := test_premises_log.2.1
theorem test_hyps_ExportAndReclaim : hyps_ExportAndReclaim := test_premises_log.2.2.1
theorem test_hyps_TheScanFindsTheNextNumber : hyps_TheScanFindsTheNextNumber := test_premises_log.2.2.2

/-! ## Settings and invariants -/

inductive Pause11 | done

def settings (f : Settings → Settings) : State := base.modSt fun t => { t with staging := f t.staging }

abbrev hyps_SetsWriteTheStagingCopy : Prop :=
    Ready (hd false) base ∧ base.st.apply = none ∧ (base.modSt fun t => { t with apply := some 200 }).st.apply ≠ none ∧
    (1 ≤ 1203 ∧ 3599 ≤ 3599 ∧ ¬1 ≤ 0) ∧ (∃ y ∈ base.st.staging.products, y.code = "DSL") ∧
    (∀ y ∈ base.st.staging.products, y.code ≠ "ADC") ∧ base.st.staging.products.length < 24 ∧
    24 ≤ (settings fun g => { g with products := List.replicate 24 dsl }).st.staging.products.length ∧
    (∃ n ∈ some 4999, n < 5000 ∨ 20000 < n) ∧ (∀ n ∈ some 5000, 5000 ≤ n ∧ n ≤ 20000) ∧
    (∀ n ∈ some 240, 240 ≤ n ∧ n ≤ 720) ∧ (¬∀ n ∈ some 239, 240 ≤ n ∧ n ≤ 720) ∧ (∀ n ∈ some 20, n ≤ 20) ∧
    ¬∀ n ∈ some 21, n ≤ 20

def newStep (s : State) : State :=
  s.modSt fun t => { t with staging := { t.staging with bays := t.staging.bays.set 0 ⟨true, 10000, 2000, 15⟩ } }
def newClass (s : State) : State :=
  s.modSt fun t => { t with staging := { t.staging with products := [{ dsl with un := 1203 }, ulp] } }

abbrev hyps_ApplyCommitsTheStagingCopy : Prop :=
    Ready (hd true) base ∧ Ready (hd false) base ∧ base.st.apply = none ∧ base.st.outbox = none ∧
    (base.modSt fun t => { t with outbox := some power1 }).st.outbox ≠ none ∧
    activeBay (newStep held) = some 0 ∧ activeBay (newClass base) = none ∧ productInUse (newClass base) = some dsl ∧
    (activeBay (newStep base) = none ∧ productInUse (newStep base) = none) ∧
    ((newStep base).modSt fun t => { t with apply := some 0 }).st.apply ≠ none ∧
    applyRefusal (newStep held) = some (.BAY_ACTIVE, [fld "BAY" "1"]) ∧ applyRefusal (newStep base) = none

/-- A product whose identity changes is in use on a document; one that stays as it is is not. -/
theorem test_hyps_ProductBusy :
    (newClass base).st.applied.products = [] ++ dsl :: [ulp] ∧ ProductBusy (newClass base) dsl ∧
    ¬ProductBusy (newStep base) dsl := by
  have found (s : State) (x : Product) (h : s.st.staging.products.find? (fun y => y.code == dsl.code) = some x) (y : Product)
      (hy : s.st.staging.products.find? (fun y => y.code == dsl.code) = some y) : x = y := Option.some.inj (h.symm.trans hy)
  refine ⟨by decide +kernel, .inr ⟨fun x hx => ?_, doc1, by decide +kernel, dline 1 dsl, by decide +kernel, rfl⟩, ?_⟩
  · have := found (newClass base) { dsl with un := 1203 } (by decide +kernel) x hx
    subst this; exact .inl (by decide)
  · have same : (newStep base).st.staging.products.find? (fun y => y.code == dsl.code) = some dsl := by decide +kernel
    rintro (⟨h | ⟨x, hx, h⟩, -⟩ | ⟨h, -⟩)
    · simpa using h dsl same
    · have := found (newStep base) dsl same x hx; subst this; simp at h
    · simpa using h dsl same

/-- The invariants' premises can be met: they hold in the small state with a loaded bay. -/
theorem test_hyps_Invariants :
    LinkBounds held ∧ LinkLive held ∧ ReleaseDriven held ∧ CalibrationValid held.ts ∧ TablesBounded held ∧
    CountersInRange held ∧ LogNumbered held ∧ LogNumbered (writing .CK power1) ∧ MatchLegal held.ck ∧ Bindings held ∧
    step held = .next (elapse held) := by
  refine ⟨?_, ?_, ?_, ?_, ?_, ?_, ?_, ?_, ?_, ⟨?_, ?_, ?_, ⟨?_, ?_, ?_, ?_, ?_, ?_⟩⟩, rfl⟩ <;> decide +kernel

theorem test_hyps_SettingsStayLegal :
    SettingsLegal held.st.store ∧ SettingsLegal held.st.applied ∧ SettingsLegal held.st.staging := by
  refine ⟨?_, ?_, ?_⟩ <;> decide +kernel

theorem test_premises_invariants :
    hyps_SetsWriteTheStagingCopy ∧ hyps_ApplyCommitsTheStagingCopy := by
  refine ⟨?_, ?_⟩ <;> decide +kernel

theorem test_hyps_SetsWriteTheStagingCopy : hyps_SetsWriteTheStagingCopy := test_premises_invariants.1
theorem test_hyps_ApplyCommitsTheStagingCopy : hyps_ApplyCommitsTheStagingCopy := test_premises_invariants.2

/-! ## Whole answers of the manual -/

inductive Pause12 | done

/-- The line on TXD after an outcome. -/
def sent (o : Host.Outcome State Fault Refusal) : Option TxLine :=
  match o with
  | .next t => t.dv.wire
  | _ => none

/-- Driver 40117285 at 14:50, before the bind of 04_hours_allowance.md's worked case. -/
def at1450 : State :=
  { drivers [⟨40117285, .ON_SITE, list40117285, none, none, false⟩] with
    ck := { base.ck with count := 60 * mi 2030 1 7 14 50 } }

theorem test_query_answer :
    sent (exec (.dtQueryPlan ⟨0x62#8, false⟩ (some ⟨40117285, ⟨80, 150, 1⟩⟩)) at1450) =
      some (.reply ⟨0x62#8, "DT", ok [fld "DRV" "40117285", fld "STATUS" "ON_SITE", fld "NOW" "203001071450",
        fld "ALLOW" "90,2910,190,60", fld "C" "330", fld "SLACK" "10,2830,40,250", fld "VERDICT" "TIGHT",
        fld "LEAST" "10,DAY", fld "MARKS" "NONE"]⟩) := by decide +kernel

/-- 01_the_message_link.md, "Worked sequence: POLL mode", item 4; and the text of a line with its check. -/
theorem test_poll_answer :
    sent (exec (.dvNext ⟨0x52#8, false⟩ (some ())) base) = some (.reply ⟨0x52#8, "DV", ok [bare "EMPTY"]⟩) ∧
    closeLine "00 DV NEXT " = "00 DV NEXT *D1\r\n" := by decide +kernel

/-- One millisecond on an empty queue: a pause grows up to its limit, erase and apply work fall (log 4). -/
theorem test_idle_step :
    let s := { (bay1 (flow .PAUSED .LOADING)) with
      dl := { base.dl with reclaim := some ⟨1, 800⟩ }, st := { base.st with apply := some 1 } }
    let t := after (step s)
    ((t.bay 0).ctx.map (·.pauseMs)) = some 1 ∧ t.dl.reclaim = some ⟨1, 799⟩ ∧ t.st.apply = some 0 ∧
    (after (step { s with dl := { s.dl with accesses := 1 } })).dl.reclaim = some ⟨1, 800⟩ ∧
    after (step { s with supply := false }) = { s with supply := false } := by decide +kernel

end Sys2Proof.Machine.Tests
end

/-! PROOFS. What a loss of the main supply leaves of the clock, and CK CLEARSTAMP (R32, R34). -/

namespace Sys2Proof.Proofs.Clearstamp

open Sys2Proof Sys2Proof.Machine Sys2Proof.Laws.Requests

/-- A pass over the bays keeps whatever its action at each bay keeps. -/
theorem forBays_keeps {α : Type} (p : State → α) {f : Bay → State → State} (hf : ∀ b t, p (f b t) = p t) (s : State) :
    p (forBays f s) = p s :=
  List.foldlRecOn (motive := fun t => p t = p s) allBays _ rfl fun t ih b _ => (hf b t).trans ih

/-- A loss of the main supply writes the latest-loss time, sets the first-loss stamp where it is absent, and keeps the
DST state; the rest of the clock stands (R32, R33). -/
theorem ck_supplyLost (s : State) :
    (supplyLost s).ck =
      let now := if s.ck.isSet then some s.ck.count else none
      { s.ck with latestLoss := now, firstLoss := s.ck.firstLoss.or now, dstAtLoss := s.ck.dst } := by
  simp only [supplyLost, State.ck_modDv, forBays_keeps State.ck fun b t => State.ck_modBay t b _, State.ck_modCk]

/-- On a set clock whose first-loss stamp is absent, a loss stamps the present time (R32). -/
theorem firstLoss_supplyLost {s : State} (hset : s.ck.isSet = true) (habsent : s.ck.firstLoss = none) :
    (supplyLost s).ck.firstLoss = some s.ck.count := by
  simp [ck_supplyLost, hset, habsent]

/-- With the supply present, MAIN_SUPPLY_LOSS is its loss. -/
theorem exec_mainSupplyLoss_on {s : State} (h : s.supply = true) : exec .mainSupplyLoss s = .next (supplyLost s) :=
  congrArg Host.Outcome.next (if_pos h)

/-- Settles O18: the request is taken at once and its act makes the one stamp absent; the stamp that a loss finds absent
takes the present time. -/
theorem clearstampClearsTheFirstLoss : Obligations.ClearstampClearsTheFirstLoss := by
  refine ⟨fun h s hready => ?_, fun s hsupply hset habsent => ?_⟩
  · have heffect : effect (.ckClearstamp h (some ())) = some ⟨h, "CK", ckClearstamp (some ())⟩ := rfl
    exact exec_ready heffect hready
  · exact ⟨supplyLost s, exec_mainSupplyLoss_on hsupply, firstLoss_supplyLost hset habsent⟩

end Sys2Proof.Proofs.Clearstamp

/-! PROOFS. The counts of DT STATUS and CP STATUS (R56, R94). -/

namespace Sys2Proof.Proofs.TableStatus

open Sys2Proof Sys2Proof.Machine Sys2Proof.Laws.Requests

/-! ## A table's records by their status -/

/-- One for each member that passes a test sums to the count of the test. -/
theorem sum_map_ite_eq_countP {α : Type} (q : α → Bool) (l : List α) :
    (l.map fun a => if q a then 1 else 0).sum = l.countP q := by
  induction l with
  | nil => rfl
  | cons a l ih => rw [List.map_cons, List.sum_cons, ih, List.countP_cons, Nat.add_comm]

/-- Tests of which each record passes exactly one part a table: their counts sum to its length. -/
theorem sum_filter_length_eq_length {α : Type} {ps : List (α → Bool)} (hone : ∀ x, ps.countP (· x) = 1)
    (l : List α) : (ps.map fun p => (l.filter p).length).sum = l.length := by
  simp only [← List.countP_eq_length_filter]
  induction l with
  | nil => simp
  | cons x l ih => simp only [List.countP_cons, List.sum_map_add, ih, sum_map_ite_eq_countP, hone, List.length_cons]

/-! ## DT STATUS (R56) -/

/-- The status AT_BAY, of whichever bay. -/
def atBay : DriverStatus → Bool
  | .AT_BAY _ => true
  | _ => false

/-- What DT STATUS counts as ATBAY, every status but the other three, is AT_BAY. -/
theorem none_of_three_eq_atBay :
    (fun d : DriverStatus => d != .ABSENT && d != .ON_SITE && d != .ON_TRIP) = atBay := by
  funext d
  cases d <;> rfl

/-- A driver has exactly one of the four statuses. -/
theorem countP_status_eq_one (x : Driver) :
    [fun x : Driver => x.status == .ABSENT, fun x => x.status == .ON_SITE, fun x => atBay x.status,
      fun x => x.status == .ON_TRIP].countP (· x) = 1 := by
  cases hx : x.status <;> simp [hx, atBay]

/-- The drivers of the four statuses are the drivers of the table. -/
theorem driverCounts_sum (l : List Driver) :
    (l.filter fun x => x.status == .ABSENT).length + (l.filter fun x => x.status == .ON_SITE).length +
      (l.filter fun x => atBay x.status).length + (l.filter fun x => x.status == .ON_TRIP).length = l.length := by
  simpa [Nat.add_assoc] using sum_filter_length_eq_length countP_status_eq_one l

/-- DT STATUS leaves the state and gives the size of the table, of its parts and of the outbox, and the two counts. -/
theorem dtStatus_eq (s : State) :
    dtStatus (some ()) s = (s, ok [fld "DRIVERS" (dec s.dt.drivers.length),
      fld "ABSENT" (driverCount s (· == .ABSENT)), fld "ONSITE" (driverCount s (· == .ON_SITE)),
      fld "ATBAY" (driverCount s atBay), fld "ONTRIP" (driverCount s (· == .ON_TRIP)),
      fld "OUTBOX" (dec s.dt.outbox.length), fld "TRIPS" (dec s.dt.trips), fld "LOGFULL" (dec s.dt.logfull)]) := by
  simp only [dtStatus, none_of_three_eq_atBay]

/-- DT STATUS, taken at once, answers its readout and changes nothing. -/
theorem exec_dtStatus {h : Hdr} {s : State} (hready : Ready h s) :
    exec (.dtStatus h (some ())) s = Answers h "DT" (dtStatus (some ()) (underKey h s)).2 (underKey h s) := by
  have heffect : effect (.dtStatus h (some ())) = some ⟨h, "DT", dtStatus (some ())⟩ := rfl
  exact exec_ready heffect hready

/-! ## CP STATUS (R94) -/

/-- The state BOUND, to whichever bay. -/
def bound : DocState → Bool
  | .BOUND _ => true
  | _ => false

/-- What CP STATUS counts as BOUND, every state but the other two, is BOUND. -/
theorem neither_draft_nor_released_eq_bound : (fun d : DocState => d != .DRAFT && d != .RELEASED) = bound := by
  funext d
  cases d <;> rfl

/-- A document is in exactly one of the three states. -/
theorem countP_docState_eq_one (x : Doc) :
    [fun x : Doc => x.state == .DRAFT, fun x => bound x.state, fun x => x.state == .RELEASED].countP (· x) = 1 := by
  cases hx : x.state <;> simp [hx, bound]

/-- The documents of the three states are the documents of the table. -/
theorem docCounts_sum (l : List Doc) :
    (l.filter fun x => x.state == .DRAFT).length + (l.filter fun x => bound x.state).length +
      (l.filter fun x => x.state == .RELEASED).length = l.length := by
  simpa [Nat.add_assoc] using sum_filter_length_eq_length countP_docState_eq_one l

/-- The fields of CP STATUS about the staging. -/
def stagingStatus : Option Staging → List Fld
  | none => [fld "STAGING" "NONE"]
  | some g => [fld "STAGING" g.num, fld "GOT" (dec g.lines.length), fld "OF" (dec g.expected)]

/-- CP STATUS leaves the state and gives the staging, then the size of the table, of its parts and of its free room. -/
theorem cpStatus_eq (s : State) :
    cpStatus (some ()) s = (s, ok (stagingStatus s.cp.staging ++
      [fld "DOCS" (dec s.cp.docs.length), fld "DRAFT" (docCount s (· == .DRAFT)), fld "BOUND" (docCount s bound),
        fld "RELEASED" (docCount s (· == .RELEASED)), freeDocs s])) := by
  simp only [cpStatus, neither_draft_nor_released_eq_bound]
  cases s.cp.staging <;> rfl

/-- CP STATUS, taken at once, answers its readout and changes nothing. -/
theorem exec_cpStatus {h : Hdr} {s : State} (hready : Ready h s) :
    exec (.cpStatus h (some ())) s = Answers h "CP" (cpStatus (some ()) (underKey h s)).2 (underKey h s) := by
  have heffect : effect (.cpStatus h (some ())) = some ⟨h, "CP", cpStatus (some ())⟩ := rfl
  exact exec_ready heffect hready

/-- Settles O23: the fields are those of the two readouts, and the counts part the tables because a record has exactly
one status or state. -/
theorem tableStatusCountsRecords : Obligations.TableStatusCountsRecords := by
  intro h s hready
  have hdt := exec_dtStatus hready
  have hcp := exec_cpStatus hready
  rw [dtStatus_eq] at hdt
  rw [cpStatus_eq] at hcp
  refine ⟨⟨driverCounts_sum _, hdt⟩, docCounts_sum _, fun hnone => ?_, fun g hsome => ?_⟩
  · rw [hnone] at hcp
    exact hcp
  · rw [hsome] at hcp
    exact hcp

end Sys2Proof.Proofs.TableStatus

/-! PROOFS. The figures, the allowances and a verdict (R70 to R74). -/

namespace Sys2Proof.Proofs.HoursVerdict

open Sys2Proof Sys2Proof.Machine

/-! ## Figures and allowances (R70, R71) -/

/-- The minutes of DRIVE since a bound: the entries of another kind, which add 0, may be left out (R70). -/
theorem driveSince_eq_sum_filter (bound now : Nat) (l : List Entry) :
    driveSince bound now l =
      ((l.filter fun e => e.kind == .DRIVE).map fun e => e.stop.getD now - max e.start bound).sum := by
  simp only [driveSince, Entry.till]
  induction l with
  | nil => rfl
  | cons e es ih =>
    by_cases hkind : e.kind = .DRIVE <;> simp [hkind, ih]

/-- What a figure leaves of its limit, floored at 0 (R71). -/
theorem natCast_sub_eq_max_zero (limit figure : Nat) :
    ((limit - figure : Nat) : Int) = max 0 ((limit : Int) - figure) := by
  omega

/-! ## Slacks, least slack and named test (R73, R74) -/

/-- The slack that a verdict gives for a test (R73). -/
def slackOf (v : VerdictRec) : HoursTest → Int
  | .DAY => v.slackDay
  | .WEEK => v.slackWeek
  | .SPAN => v.slackSpan
  | .CONT => v.slackCont

/-- A filter, test by test: the form in which the model writes the marks. -/
theorem filter_cons_eq_append {α : Type} (q : α → Bool) (a : α) (l : List α) :
    (a :: l).filter q = (if q a then [a] else []) ++ l.filter q := by
  by_cases h : q a <;> simp [h]

section
variable {p : HoursParams} {f : HoursFigures} {plan : Plan} {now : Nat} {v : VerdictRec}
  (hv : verdictOf p f plan now = v)
include hv

theorem least_eq_min : v.least = min (min v.slackDay v.slackWeek) (min v.slackSpan v.slackCont) := by
  subst hv
  rfl

theorem least_le_slackOf (x : HoursTest) : v.least ≤ slackOf v x := by
  have hleast := least_eq_min hv
  cases x <;> simp only [slackOf] <;> omega

/-- The test that a verdict names gives the least slack, and every test before it gives another (R74). -/
theorem test_cases :
    (v.test = .DAY ∧ v.slackDay = v.least) ∨
    (v.test = .WEEK ∧ v.slackWeek = v.least ∧ v.slackDay ≠ v.least) ∨
    (v.test = .SPAN ∧ v.slackSpan = v.least ∧ v.slackDay ≠ v.least ∧ v.slackWeek ≠ v.least) ∨
    (v.test = .CONT ∧ v.slackCont = v.least ∧ v.slackDay ≠ v.least ∧ v.slackWeek ≠ v.least ∧
      v.slackSpan ≠ v.least) := by
  have hleast := least_eq_min hv
  have htest : v.test = if v.slackDay = v.least then .DAY else if v.slackWeek = v.least then .WEEK
      else if v.slackSpan = v.least then .SPAN else .CONT := by
    subst hv
    rfl
  by_cases hday : v.slackDay = v.least
  · simp [htest, hday]
  by_cases hweek : v.slackWeek = v.least
  · simp [htest, hday, hweek]
  by_cases hspan : v.slackSpan = v.least
  · simp [htest, hday, hweek, hspan]
  have hcont : v.slackCont = v.least := by omega
  simp [htest, hday, hweek, hspan, hcont]

theorem slackOf_test : slackOf v v.test = v.least := by
  obtain ⟨htest, hslack⟩ | ⟨htest, hslack, -⟩ | ⟨htest, hslack, -⟩ | ⟨htest, hslack, -⟩ := test_cases hv
  all_goals
    rw [htest]
    exact hslack

/-- No test that gives the least slack stands before the named one (R74). -/
theorem test_first_of_slackOf_eq_least (x : HoursTest) (hx : slackOf v x = v.least) :
    v.test = .DAY ∨ (v.test = .WEEK ∧ x ≠ .DAY) ∨ (v.test = .SPAN ∧ x ≠ .DAY ∧ x ≠ .WEEK) ∨ x = .CONT := by
  have hne {y : HoursTest} (hy : slackOf v y ≠ v.least) : x ≠ y := fun hxy => hy (hxy ▸ hx)
  obtain ⟨htest, -⟩ | ⟨htest, -, hday⟩ | ⟨htest, -, hday, hweek⟩ | ⟨-, -, hday, hweek, hspan⟩ := test_cases hv
  · exact .inl htest
  · exact .inr (.inl ⟨htest, hne (y := .DAY) hday⟩)
  · exact .inr (.inr (.inl ⟨htest, hne (y := .DAY) hday, hne (y := .WEEK) hweek⟩))
  · cases x with
    | DAY => exact absurd hx hday
    | WEEK => exact absurd hx hweek
    | SPAN => exact absurd hx hspan
    | CONT => exact .inr (.inr (.inr rfl))

/-! ## Marks and verdict (R74) -/

/-- The marks are the tests whose slack is negative, in the order of R73. -/
theorem marks_eq_filter :
    v.marks = [HoursTest.DAY, .WEEK, .SPAN, .CONT].filter fun x => decide (slackOf v x < 0) := by
  simp only [filter_cons_eq_append, List.filter_nil, List.append_nil, decide_eq_true_eq, ← List.append_assoc]
  subst hv
  rfl

/-- Each verdict is given under its condition on the least slack and the margin (R74). -/
theorem verdict_iff :
    (v.verdict = .LIMIT ↔ v.least < 0) ∧ (v.verdict = .TIGHT ↔ 0 ≤ v.least ∧ v.least < p.margin) ∧
      (v.verdict = .CLEAR ↔ 0 ≤ v.least ∧ (p.margin : Int) ≤ v.least) := by
  have hverdict : v.verdict = if v.least < 0 then .LIMIT else if v.least < (p.margin : Int) then .TIGHT
      else .CLEAR := by
    subst hv
    rfl
  by_cases hlimit : v.least < 0
  · simp [hverdict, hlimit]
  have hnonneg : 0 ≤ v.least := by omega
  by_cases htight : v.least < (p.margin : Int)
  · simp [hverdict, hlimit, htight, hnonneg]
  · simp [hverdict, hlimit, htight, hnonneg, Int.not_lt.mp htight]

end

/-- Settles O28: the figures are those of the pruned list by definition, but for the sum of DRIVE and the floor at 0;
the verdict's named test and marks are what the tests in the order of R73 give. -/
theorem allowancesAndTheVerdict : Obligations.AllowancesAndTheVerdict := by
  refine ⟨fun p week now stored => ?_, fun p f plan now => ?_⟩
  · have hdrive := fun bound => driveSince_eq_sum_filter bound now (prune p week now stored)
    exact ⟨rfl, rfl, hdrive _, hdrive _, hdrive _, rfl, natCast_sub_eq_max_zero _ _, natCast_sub_eq_max_zero _ _,
      natCast_sub_eq_max_zero _ _, natCast_sub_eq_max_zero _ _⟩
  · exact ⟨rfl, rfl, rfl, rfl, rfl, least_le_slackOf rfl, slackOf_test rfl,
      test_first_of_slackOf_eq_least rfl, marks_eq_filter rfl, verdict_iff rfl⟩

end Sys2Proof.Proofs.HoursVerdict

/-! PROOFS. The stages of a reconciliation (R153 to R162, R166). -/

namespace Sys2Proof.Proofs.Reconciliation

open Sys2Proof Sys2Proof.Machine

/-! ## The two roundings (00_scope.md, "Rounding") -/

/-- The whole number nearest to n / d, a half rounded upwards: the distance 2n - 2d·q lies in [-d, d). -/
theorem roundHalfUp_bounds (n : Nat) {d : Nat} (hd : 0 < d) :
    2 * d * roundHalfUp n d ≤ 2 * n + d ∧ 2 * n + d < 2 * d * (roundHalfUp n d + 1) :=
  ⟨Nat.mul_div_le _ _, Nat.lt_mul_div_succ _ (by omega)⟩

theorem roundHalfUp_zero (d : Nat) : roundHalfUp 0 d = 0 := by
  obtain rfl | hd := d.eq_zero_or_pos
  · rfl
  · exact Nat.div_eq_of_lt (by omega)

theorem roundHalfAway_natCast (n d : Nat) : roundHalfAway n d = roundHalfUp n d := by
  have hn : ¬(n : Int) < 0 := by omega
  simp only [roundHalfAway, hn, if_false, Int.natAbs_natCast]

/-- Below 0 the magnitude is rounded, so that a half goes away from 0. -/
theorem roundHalfAway_neg_natCast (n d : Nat) : roundHalfAway (-(n : Int)) d = -(roundHalfUp n d : Int) := by
  obtain rfl | hn := n.eq_zero_or_pos
  · simp [roundHalfAway, roundHalfUp_zero]
  · have hneg : -(n : Int) < 0 := by omega
    simp only [roundHalfAway, hneg, if_true, Int.natAbs_neg, Int.natAbs_natCast]

/-! ## Stage 2: the mean temperature, or the state that stops there (R156, R157) -/

section
variable {final : Bool} {l : LineRec}

theorem meanTemp_of_faulted (hfaulted : 0 < l.faulted) : meanTemp final l = .stop .PROBE_FAULT :=
  if_pos hfaulted

theorem meanTemp_of_weight (hfaulted : l.faulted = 0) (hweight : 0 < l.weightSum) :
    meanTemp final l = .mean (roundHalfAway l.sampleSum l.weightSum) := by
  simp [meanTemp, hfaulted, hweight]

theorem meanTemp_of_finalTemp {t : Int} (hfaulted : l.faulted = 0) (hweight : l.weightSum = 0)
    (ht : l.finalTemp = some t) : meanTemp true l = .mean t := by
  simp [meanTemp, hfaulted, hweight, ht]

/-- Without a weight and without a final sample that left a temperature, no temperature is known. -/
theorem meanTemp_of_noTemp (hfaulted : l.faulted = 0) (hweight : l.weightSum = 0)
    (hnone : final = false ∨ l.finalTemp = none) : meanTemp final l = .stop .NO_TEMP := by
  cases final with
  | false => simp [meanTemp, hfaulted, hweight]
  | true => simp [meanTemp, hfaulted, hweight, hnone.resolve_left (by decide)]

end

/-! ## A full reconciliation goes on from stage 2 or stops there (R153, R158) -/

section
variable {final : Bool} {factor : Nat} {p : Product} {tol : Tolerance} {qty : Nat} {l : LineRec}

theorem reconcile_of_mean {tm : Int} (h : meanTemp final (stage1 factor l) = .mean tm) :
    reconcile final factor p tol qty l = stages3to6 p tol qty tm (stage1 factor l) := by
  simp only [reconcile, h]

theorem reconcile_of_stop {st : LineState} (h : meanTemp final (stage1 factor l) = .stop st) :
    reconcile final factor p tol qty l = stopLine st (stage1 factor l) := by
  simp only [reconcile, h]

end

/-! ## Stages 3 to 6 (R159 to R162, R166) -/

/-- The clamp, taken on the raw factor before it is read as a natural number: a factor below 0 is below both bounds
(R160). -/
theorem vcfOf_eq (p : Product) (tm : Int) :
    vcfOf p tm =
      if rawFactor p tm < 900000 then 900000 else if 1100000 < rawFactor p tm then 1100000
      else (rawFactor p tm).toNat := by
  simp only [vcfOf, clamp, Config.minVcf, Config.maxVcf]
  split_ifs <;> omega

/-- Mark V is set just where the clamp acts (R160). -/
theorem vcfClamped_eq (p : Product) (tm : Int) :
    vcfClamped p tm = decide (rawFactor p tm < 900000 ∨ 1100000 < rawFactor p tm) :=
  (Bool.decide_or _ _).symm

/-- The tolerance as the integer that the deviation is compared with (R162). -/
theorem natCast_toleranceOf (tol : Tolerance) (qty : Nat) :
    (toleranceOf tol qty : Int) = max (10 * (tol.abs : Int)) (roundHalfUp (10 * qty * tol.permille) 1000) := by
  simp only [toleranceOf, Nat.cast_max, Nat.cast_mul, Nat.cast_ofNat]

/-- Stage 6 replaces the deviation, the line state and the marks N and Z (R162). -/
theorem stage6_eq (tol : Tolerance) (qty : Nat) (f : Figures) (l : LineRec) :
    let dev := (f.vs : Int) - 10 * qty
    let w : Int := max (10 * tol.abs) (roundHalfUp (10 * qty * tol.permille) 1000)
    stage6 tol qty f l = { l with
      state := if w < dev then LineState.OVER else if dev < -w then .UNDER else .VERIFIED,
      figs := some { f with dev := dev },
      marks := { l.marks with n := decide (dev < 0), z := decide (dev = 0) } } := by
  intro dev w
  have hw : w = (toleranceOf tol qty : Int) := (natCast_toleranceOf tol qty).symm
  rw [hw]
  rfl

/-- Stages 3 to 6 are stage 6 on the figures of stages 3 to 5, with mark V set by the clamp (R165). -/
theorem stages3to6_eq (p : Product) (tol : Tolerance) (qty : Nat) (tm : Int) (l : LineRec) :
    stages3to6 p tol qty tm l =
      stage6 tol qty ⟨tm, vcfOf p tm, roundHalfUp (l.vo * vcfOf p tm) 1000000, 0⟩
        { l with marks := { l.marks with v := vcfClamped p tm } } := rfl

/-- A quantity change redoes stage 6 alone, from the stored figures (R166). -/
theorem reReconcile_of_figs {tol : Tolerance} {qty : Nat} {l : LineRec} {f : Figures} (hfigs : l.figs = some f) :
    reReconcile tol qty l = stage6 tol qty f l := by
  simp only [reReconcile, hfigs]

/-- Settles O46: the roundings are division with remainder, each case of stage 2 leads on or stops, and the last stages
are the model's figures with the clamp and the tolerance read as integers. -/
theorem reconciliationComputesTheFigures : Obligations.ReconciliationComputesTheFigures := by
  refine ⟨fun n d => roundHalfUp_bounds n, fun n d => ⟨roundHalfAway_natCast n d, roundHalfAway_neg_natCast n d⟩,
    fun final factor p tol qty l => ⟨?faulted, ?weight, ?noWeight⟩, fun p tol qty tm l => ⟨?stages, ?change⟩⟩
  case faulted =>
    intro hfaulted
    exact reconcile_of_stop (meanTemp_of_faulted hfaulted)
  case weight =>
    intro hfaulted hweight
    exact reconcile_of_mean (meanTemp_of_weight hfaulted hweight)
  case noWeight =>
    intro hfaulted hweight
    refine ⟨?_, fun hnone => reconcile_of_stop (meanTemp_of_noTemp hfaulted hweight hnone)⟩
    rintro rfl t ht
    exact reconcile_of_mean (meanTemp_of_finalTemp hfaulted hweight ht)
  case stages =>
    rw [stages3to6_eq, stage6_eq, vcfClamped_eq, vcfOf_eq]
    rfl
  case change =>
    intro f hfigs
    rw [reReconcile_of_figs hfigs]
    exact stage6_eq tol qty f l

end Sys2Proof.Proofs.Reconciliation

/-! PROOFS. What one step can do: the command at the front of the queue by its kind, and the requests a step takes. -/

namespace Sys2Proof.Proofs.Steps

open Sys2Proof Sys2Proof.Machine Sys2Proof.Laws.Basic Sys2Proof.Laws.Requests

/-! ## Rows by their kind -/

/-- What an event row does while the main supply is present, before a free transmitter starts. -/
def poweredAct : Instr → Option (State → State)
  | .rxCharacter c v => some fun t => receive c { t with supv := v }
  | .lineSilence => some silence
  | .transmitLineEnd v => some fun t => lineSent { t with supv := v }
  | .attnPulseEnd => some fun t => t.modDv fun d => { d with attnPulse := false }
  | .deviceReset e => some fun t => if resetReady t then warmStart .DEVICE false e t else t
  | .resetLine e => some (warmStart .WARM false e)
  | .minuteReached => some minuteReached
  | .dstInstant => some dstReached
  | .pulseEdge b => some (pulse b)
  | .haltEdge b active => some (haltChange b active)
  | .bondEdge b good => some (bondChange b good)
  | .pauseLimit b => some (pauseEnds b)
  | .settleEnd b => some (settleEnds b)
  | .sampleComplete c1 c2 => some (sampleDone c1 c2)
  | .calibrationComplete l1 l2 h1 h2 => some (calibrationDone l1 l2 h1 h2)
  | .calibrationPeriod => some calDue
  | .appendServe => some serveAppend
  | .appendWriteComplete => some writeDone
  | .storeAccessEnd => some fun t => t.modDl fun d => { d with accesses := d.accesses - 1 }
  | .reclaimComplete => some reclaimDone
  | .scanEnd => some scanDone
  | .applyComplete => some applyDone
  | _ => none

/-- What an event row does without the main supply: the levels and the DST state are followed (log 5). -/
def unpoweredAct : Instr → State → State
  | .dstInstant => dstReached
  | .haltEdge b active => fun s => s.modBay b fun u => { u with halt := active }
  | .bondEdge b good => fun s => s.modBay b fun u => { u with bond := good }
  | _ => id

/-- What the four rows do that act on either supply. -/
def anySupplyAct : Instr → Option (State → State)
  | .coldStart e => some (coldStart e)
  | .warmStart e => some fun s => warmStart .WARM true e (lossSeen s)
  | .mainSupplyLoss => some fun s => if s.supply then supplyLost s else s
  | .clockTick => some tick
  | _ => none

/-- What a command leaves. -/
def after (c : Instr) (s : State) : State :=
  match effect c with
  | some r => if s.supply then acceptLine c { s with supv := r.hdr.supv } else s
  | none =>
    match poweredAct c with
    | some f => if s.supply then pump (f s) else unpoweredAct c s
    | none => ((anySupplyAct c).getD id) s

/-- Every command ends in a next state. -/
theorem exec_eq_after (c : Instr) (s : State) : exec c s = .next (after c s) := by
  cases c <;> rfl

/-- A row is a request, an event that needs the supply, or one of the four that do not. -/
theorem row_kinds (c : Instr) :
    (∃ r, effect c = some r) ∨ (effect c = none ∧ ∃ f, poweredAct c = some f) ∨
      (effect c = none ∧ poweredAct c = none ∧ ∃ f, anySupplyAct c = some f) := by
  cases c <;>
    first
      | exact .inl ⟨_, rfl⟩
      | exact .inr (.inl ⟨rfl, _, rfl⟩)
      | exact .inr (.inr ⟨rfl, rfl, _, rfl⟩)

theorem after_request {c : Instr} {r : Request} (he : effect c = some r) (s : State) :
    after c s = if s.supply then acceptLine c { s with supv := r.hdr.supv } else s := by
  simp only [after, he]

theorem after_event {c : Instr} {f : State → State} (he : effect c = none) (hf : poweredAct c = some f) (s : State) :
    after c s = if s.supply then pump (f s) else unpoweredAct c s := by
  simp only [after, he, hf]

theorem after_anySupply {c : Instr} {f : State → State} (he : effect c = none) (hp : poweredAct c = none)
    (hf : anySupplyAct c = some f) (s : State) : after c s = f s := by
  simp only [after, he, hp, hf, Option.getD_some]

/-- A step runs the command at the front of the queue, or lets a millisecond pass. -/
theorem step_cases {s t : State} (h : step s = .next t) :
    (s.pending = [] ∧ t = elapse s) ∨ ∃ c rest, s.pending = c :: rest ∧ t = after c { s with pending := rest } := by
  unfold step at h
  rcases hp : s.pending with _ | ⟨c, rest⟩ <;> rw [hp] at h
  · exact .inl ⟨rfl, (Host.Outcome.next.inj h).symm⟩
  · exact .inr ⟨c, rest, rfl, (Host.Outcome.next.inj ((exec_eq_after c _).symm.trans h)).symm⟩

/-! ## Requests taken in a step (R3, R7) -/

/-- A relation between states that reception, the transmitter and the replies do not leave: it is reflexive and
transitive, and an update of the link is in it. -/
structure LinkFree (R : State → State → Prop) : Prop where
  refl : ∀ s, R s s
  trans : ∀ {s t u}, R s t → R t u → R s u
  link : ∀ (f : Dv → Dv) s, R s (s.modDv f)

namespace LinkFree

variable {R : State → State → Prop} (hR : LinkFree R)
include hR

theorem pump_rel (s : State) : R s (pump s) := by
  rcases pump_cases s with h | ⟨_, _, _, _, h⟩ | ⟨_, _, _, _, _, _, _, h⟩ <;> rw [h]
  · exact hR.refl s
  · exact hR.link _ s
  · exact hR.link _ s

theorem rejectLine_rel (c : RejectCause) (s : State) : R s (pump (rejectLine c s)) :=
  hR.trans (hR.trans (hR.link _ s) (hR.link _ _)) (hR.pump_rel _)

section
variable (hact : ∀ c r s, effect c = some r → R s (r.act s).1)
include hact

theorem takeRequest_rel (c : Instr) (s : State) : R s (takeRequest c s) := by
  unfold takeRequest
  split
  · rename_i r he
    refine hR.trans (hR.trans ?_ (hR.link _ _)) (hR.pump_rel _)
    unfold Request.run
    split
    · exact hR.refl s
    · exact hact c r s he
  · exact hR.refl s

theorem takeWaiting_rel (fuel : Nat) (s : State) : R s (takeWaiting fuel s) := by
  induction fuel generalizing s with
  | zero => exact hR.refl s
  | succ n ih =>
    unfold takeWaiting
    split
    · exact hR.refl s
    · split
      · exact hR.trans (hR.trans (hR.link _ s) (hR.takeRequest_rel hact _ _)) (ih _)
      · exact hR.refl s

theorem acceptLine_rel (c : Instr) (s : State) : R s (acceptLine c s) := by
  unfold acceptLine
  split
  · exact hR.rejectLine_rel _ s
  · exact hR.trans (hR.link _ s) (hR.takeWaiting_rel hact _ _)

theorem completeLine_rel (o : Bool) (cs : List RxChar) (s : State) : R s (completeLine o cs s) := by
  unfold completeLine
  split
  · exact hR.rejectLine_rel _ s
  · split
    · exact hR.refl s
    · split
      · exact hR.rejectLine_rel _ s
      · split
        · exact hR.acceptLine_rel hact _ s
        · exact hR.rejectLine_rel _ s

theorem receive_rel (c : RxChar) (s : State) : R s (receive c s) := by
  unfold receive
  split
  · exact hR.trans (hR.link _ s) (hR.completeLine_rel hact _ _ _)
  · split
    · exact hR.link _ s
    · exact hR.link _ s

theorem lineSent_rel (s : State) : R s (lineSent s) := by
  unfold lineSent
  split
  · exact hR.trans (hR.trans (hR.link _ s) (hR.pump_rel _)) (hR.takeWaiting_rel hact _ _)
  · exact hR.refl s

end

theorem silence_rel (s : State) : R s (silence s) := by
  unfold silence
  split
  · exact hR.trans (hR.link _ s) (hR.rejectLine_rel _ _)
  · exact hR.link _ s

end LinkFree

/-- The event rows that receive or send a line. -/
def linkRow : Instr → Bool
  | .rxCharacter _ _ | .lineSilence | .transmitLineEnd _ | .attnPulseEnd => true
  | _ => false

/-- A relation that the acts of all rows and the passing of time keep, and in which the level of SUPV has no part. -/
structure RowKept (R : State → State → Prop) : Prop extends LinkFree R where
  supv : ∀ v (s : State), R s { s with supv := v }
  act : ∀ c r s, effect c = some r → R s (r.act s).1
  event : ∀ c f s, poweredAct c = some f → linkRow c = false → R s (f s)
  unpowered : ∀ c s, R s (unpoweredAct c s)
  anySupply : ∀ c f s, anySupplyAct c = some f → R s (f s)
  elapse : ∀ s, R s (elapse s)

namespace RowKept

variable {R : State → State → Prop} (hR : RowKept R)
include hR

theorem event_rel {c : Instr} {f : State → State} (hf : poweredAct c = some f) (s : State) : R s (f s) := by
  by_cases hl : linkRow c = true
  · cases c <;> cases hl <;> cases hf
    · exact hR.trans (hR.supv _ s) (hR.receive_rel hR.act _ _)
    · exact hR.silence_rel s
    · exact hR.trans (hR.supv _ s) (hR.lineSent_rel hR.act _)
    · exact hR.link _ s
  · exact hR.event c f s hf (by simpa using hl)

theorem after_rel (c : Instr) (s : State) : R s (after c s) := by
  rcases row_kinds c with ⟨r, he⟩ | ⟨he, f, hf⟩ | ⟨he, hp, f, hf⟩
  · rw [after_request he]
    split
    · exact hR.trans (hR.supv _ s) (hR.acceptLine_rel hR.act c _)
    · exact hR.refl s
  · rw [after_event he hf]
    split
    · exact hR.trans (hR.event_rel hf s) (hR.pump_rel _)
    · exact hR.unpowered c s
  · rw [after_anySupply he hp hf]
    exact hR.anySupply c f s hf

/-- Every step keeps it, when the queue of commands has no part in it either. -/
theorem step_rel (hrest : ∀ cs (s : State), R s { s with pending := cs }) {s t : State} (h : step s = .next t) :
    R s t := by
  rcases step_cases h with ⟨_, rfl⟩ | ⟨c, rest, _, rfl⟩
  · exact hR.elapse s
  · exact hR.trans (hrest rest s) (hR.after_rel c _)

end RowKept

end Sys2Proof.Proofs.Steps

/-! PROOFS. What the acts of the units keep: the laws of each unit, the link, the valves and the numbers of the log, said
once for each operation. -/

namespace Sys2Proof.Proofs.Keeping

open Sys2Proof Sys2Proof.Machine Sys2Proof.Laws.Basic Sys2Proof.Laws.Requests

/-! ## The laws of one unit -/

/-- The document table's part of `TablesBounded` (R80, R100). -/
abbrev DocsBounded (c : Cp) : Prop :=
  c.docs.length ≤ Config.maxDocs ∧ (c.docs.map (·.num)).Nodup ∧ ∀ x ∈ c.docs, x.stack.length ≤ Config.maxStack

/-- The duty table's part of `TablesBounded` (R37, R50). -/
abbrev DriversBounded (d : Dt) : Prop :=
  d.drivers.length ≤ Config.maxDrivers ∧ (d.drivers.map (·.num)).Nodup ∧ d.outbox.length ≤ Config.maxDtOutbox

/-- A bay's part of `CountersInRange` (R108, R109). -/
abbrev BayCounts (u : BayUnit) : Prop :=
  u.stray ≤ Config.maxCount16 ∧ u.logfull ≤ Config.maxCount16 ∧ ∀ l ∈ u.lines, LineCounts l

/-- The log's part of `CountersInRange` (R176, R178). -/
abbrev LogCounts (d : Dl) : Prop :=
  d.refused ≤ Config.maxCount16 ∧ d.day.dispatch ≤ Config.maxCount16 ∧ d.day.cancel ≤ Config.maxCount16 ∧
    d.day.trip ≤ Config.maxCount16

/-- The pending notices are of different pairs, each of a kind its unit raises (R8). -/
abbrev NoticesLegal (ns : List Notice) : Prop :=
  (ns.map Notice.pair).Nodup ∧ ∀ n ∈ ns, n.kind ∈ noticeKinds n.unit

/-- Each RELEASE output follows its conditions (R112). -/
abbrev ValvesDriven (s : State) : Prop := ∀ b : Bay, (s.bay b).release = (s.bay b).mayRelease

/-! ## What is kept from one state to the next -/

/-- The laws of every unit that hold before hold after. -/
structure UnitsKept (s t : State) : Prop where
  pending : t.pending = s.pending
  matchLegal : MatchLegal s.ck → MatchLegal t.ck
  count : s.ck.count ≤ Config.maxCount → t.ck.count ≤ Config.maxCount
  drivers : DriversBounded s.dt → DriversBounded t.dt
  tripCounts : s.dt.trips ≤ Config.maxCount16 ∧ s.dt.logfull ≤ Config.maxCount16 →
    t.dt.trips ≤ Config.maxCount16 ∧ t.dt.logfull ≤ Config.maxCount16
  docs : DocsBounded s.cp → DocsBounded t.cp
  docCounts : (∀ x ∈ s.cp.docs, x.count ≤ Config.maxCount16) → ∀ x ∈ t.cp.docs, x.count ≤ Config.maxCount16
  bayCounts : ∀ b, BayCounts (s.bay b) → BayCounts (t.bay b)
  codes : CalibrationValid s.ts → CalibrationValid t.ts
  logCounts : LogCounts s.dl → LogCounts t.dl
  settings : AllSettingsLegal s → AllSettingsLegal t

/-- An act leaves of the link what is received, queued and sent, and keeps the notices legal; a waiting reset stays. -/
structure LinkTold (d e : Dv) : Prop where
  rest : e = { d with notices := e.notices, attnPulse := e.attnPulse, mode := e.mode, resetWait := e.resetWait,
                      marks := e.marks, sampler := e.sampler, log := e.log, settings := e.settings }
  resetWait : d.resetWait = true → e.resetWait = true
  notices : NoticesLegal d.notices → NoticesLegal e.notices

/-- No number of the log is given, stored or lost, and the log stays numbered. -/
structure LogKept (s t : State) : Prop where
  writing : t.dl.writing = s.dl.writing
  nextSeq : t.dl.nextSeq = s.dl.nextSeq
  scan : t.dl.scan = s.dl.scan
  stored : t.dl.stored = s.dl.stored
  highMark : s.dl.highMark ≤ t.dl.highMark
  numbered : LogNumbered s → LogNumbered t

/-- What every act keeps, but for the numbers of the log. -/
structure ActKept (s t : State) : Prop extends UnitsKept s t where
  supply : t.supply = s.supply
  link : LinkTold s.dv t.dv
  valves : ValvesDriven s → ValvesDriven t

/-- What every act keeps that begins and completes no record, erases nothing and ends no scan. -/
structure Kept (s t : State) : Prop extends ActKept s t where
  log : LogKept s t

theorem UnitsKept.refl (s : State) : UnitsKept s s := ⟨rfl, id, id, id, id, id, id, fun _ => id, id, id, id⟩

theorem UnitsKept.trans {s t u : State} (h : UnitsKept s t) (k : UnitsKept t u) : UnitsKept s u :=
  ⟨k.pending.trans h.pending, k.matchLegal ∘ h.matchLegal, k.count ∘ h.count, k.drivers ∘ h.drivers,
    k.tripCounts ∘ h.tripCounts, k.docs ∘ h.docs, k.docCounts ∘ h.docCounts, fun b => k.bayCounts b ∘ h.bayCounts b,
    k.codes ∘ h.codes, k.logCounts ∘ h.logCounts, k.settings ∘ h.settings⟩

theorem LinkTold.refl (d : Dv) : LinkTold d d := ⟨rfl, id, id⟩

theorem LinkTold.trans {d e f : Dv} (h : LinkTold d e) (k : LinkTold e f) : LinkTold d f where
  rest := by rw [k.rest, h.rest]
  resetWait := k.resetWait ∘ h.resetWait
  notices := k.notices ∘ h.notices

theorem LogKept.refl (s : State) : LogKept s s := ⟨rfl, rfl, rfl, rfl, Nat.le_refl _, id⟩

theorem LogKept.trans {s t u : State} (h : LogKept s t) (k : LogKept t u) : LogKept s u :=
  ⟨k.writing.trans h.writing, k.nextSeq.trans h.nextSeq, k.scan.trans h.scan, k.stored.trans h.stored,
    Nat.le_trans h.highMark k.highMark, k.numbered ∘ h.numbered⟩

/-- Where the log is as it was, so are its numbers. -/
theorem LogKept.of_eq {s t : State} (h : t.dl = s.dl) : LogKept s t :=
  ⟨by rw [h], by rw [h], by rw [h], by rw [h], by rw [h], by unfold LogNumbered; rw [h]; exact id⟩

theorem ActKept.refl (s : State) : ActKept s s := ⟨.refl s, rfl, .refl _, id⟩

theorem ActKept.trans {s t u : State} (h : ActKept s t) (k : ActKept t u) : ActKept s u :=
  ⟨h.toUnitsKept.trans k.toUnitsKept, k.supply.trans h.supply, h.link.trans k.link, k.valves ∘ h.valves⟩

theorem Kept.refl (s : State) : Kept s s := ⟨.refl s, .refl s⟩

theorem Kept.trans {s t u : State} (h : Kept s t) (k : Kept t u) : Kept s u :=
  ⟨h.toActKept.trans k.toActKept, h.log.trans k.log⟩

/-- A choice of two acts, or of an act and none. -/
theorem Kept.ite {s t u : State} {c : Prop} [Decidable c] (h : c → Kept s t) (k : ¬c → Kept s u) :
    Kept s (if c then t else u) := by
  split
  · exact h ‹_›
  · exact k ‹_›

/-! ## Updates of one unit -/

/-- An update of the link. -/
theorem Kept.modDv {f : Dv → Dv} {s : State} (h : LinkTold s.dv (f s.dv)) : Kept s (s.modDv f) where
  toUnitsKept := ⟨rfl, id, id, id, id, id, id, fun _ => id, id, id, id⟩
  supply := rfl
  link := h
  valves := id
  log := .of_eq rfl

/-- An update of the clock. -/
theorem Kept.modCk {f : Ck → Ck} {s : State} (hm : MatchLegal s.ck → MatchLegal (f s.ck))
    (hc : s.ck.count ≤ Config.maxCount → (f s.ck).count ≤ Config.maxCount) : Kept s (s.modCk f) where
  toUnitsKept := ⟨rfl, hm, hc, id, id, id, id, fun _ => id, id, id, id⟩
  supply := rfl
  link := .refl _
  valves := id
  log := .of_eq rfl

/-- An update of the duty table. -/
theorem Kept.modDt {f : Dt → Dt} {s : State} (hd : DriversBounded s.dt → DriversBounded (f s.dt))
    (hc : s.dt.trips ≤ Config.maxCount16 ∧ s.dt.logfull ≤ Config.maxCount16 →
      (f s.dt).trips ≤ Config.maxCount16 ∧ (f s.dt).logfull ≤ Config.maxCount16) : Kept s (s.modDt f) where
  toUnitsKept := ⟨rfl, id, id, hd, hc, id, id, fun _ => id, id, id, id⟩
  supply := rfl
  link := .refl _
  valves := id
  log := .of_eq rfl

/-- An update of the papers. -/
theorem Kept.modCp {f : Cp → Cp} {s : State} (hd : DocsBounded s.cp → DocsBounded (f s.cp))
    (hc : (∀ x ∈ s.cp.docs, x.count ≤ Config.maxCount16) → ∀ x ∈ (f s.cp).docs, x.count ≤ Config.maxCount16) :
    Kept s (s.modCp f) where
  toUnitsKept := ⟨rfl, id, id, id, id, hd, hc, fun _ => id, id, id, id⟩
  supply := rfl
  link := .refl _
  valves := id
  log := .of_eq rfl

/-- An update of the sampler. -/
theorem Kept.modTs {f : Ts → Ts} {s : State} (h : CalibrationValid s.ts → CalibrationValid (f s.ts)) :
    Kept s (s.modTs f) where
  toUnitsKept := ⟨rfl, id, id, id, id, id, id, fun _ => id, h, id, id⟩
  supply := rfl
  link := .refl _
  valves := id
  log := .of_eq rfl

/-- An update of the settings unit. -/
theorem Kept.modSt {f : St → St} {s : State} (h : AllSettingsLegal s → AllSettingsLegal (s.modSt f)) :
    Kept s (s.modSt f) where
  toUnitsKept := ⟨rfl, id, id, id, id, id, id, fun _ => id, id, id, h⟩
  supply := rfl
  link := .refl _
  valves := id
  log := .of_eq rfl

/-- An update of the log that changes no count of it. -/
theorem ActKept.modDl {f : Dl → Dl} {s : State} (h : LogCounts s.dl → LogCounts (f s.dl)) : ActKept s (s.modDl f) where
  toUnitsKept := ⟨rfl, id, id, id, id, id, id, fun _ => id, id, h, id⟩
  supply := rfl
  link := .refl _
  valves := id

theorem Kept.modDl {f : Dl → Dl} {s : State} (h : LogCounts s.dl → LogCounts (f s.dl)) (hl : LogKept s (s.modDl f)) :
    Kept s (s.modDl f) := ⟨.modDl h, hl⟩

/-- What holds of a bay that was set, and of every other bay, holds of all. -/
theorem bay_setBay_cases {P : Bay → BayUnit → Prop} {b : Bay} {u : BayUnit} {s : State} (hb : P b u)
    (ho : ∀ c, b ≠ c → P c (s.bay c)) (c : Bay) : P c ((s.setBay b u).bay c) := by
  by_cases e : b = c
  · subst e; rw [State.bay_setBay_self]; exact hb
  · rw [State.bay_setBay_ne _ _ _ _ e]; exact ho c e

/-- An update of one bay. -/
theorem Kept.setBay {b : Bay} {u : BayUnit} {s : State} (hc : BayCounts (s.bay b) → BayCounts u)
    (hv : (s.bay b).release = (s.bay b).mayRelease → u.release = u.mayRelease) : Kept s (s.setBay b u) where
  toUnitsKept := ⟨rfl, id, id, id, id, id, id,
    bay_setBay_cases (P := fun c v => BayCounts (s.bay c) → BayCounts v) hc fun _ _ => id, id, id, id⟩
  supply := rfl
  link := .refl _
  valves := fun h => bay_setBay_cases (P := fun _ v => v.release = v.mayRelease) (hv (h b)) fun c _ => h c
  log := .of_eq rfl

theorem Kept.modBay {b : Bay} {f : BayUnit → BayUnit} {s : State} (hc : BayCounts (s.bay b) → BayCounts (f (s.bay b)))
    (hv : (s.bay b).release = (s.bay b).mayRelease → (f (s.bay b)).release = (f (s.bay b)).mayRelease) :
    Kept s (s.modBay b f) := .setBay hc hv

/-! ## The shared operations -/

theorem noticesLegal_putNotice {n : Notice} {ns : List Notice} (hk : n.kind ∈ noticeKinds n.unit)
    (h : NoticesLegal ns) : NoticesLegal (putNotice n ns) := by
  refine ⟨putNotice_nodup n ns h.1, ?_⟩
  have hall := h.2
  clear h
  induction ns with
  | nil => simpa [putNotice] using hk
  | cons m ms ih =>
    have hm := hall m List.mem_cons_self
    have hms := fun x hx => hall x (List.mem_cons_of_mem m hx)
    unfold putNotice
    split
    · rintro x (_ | ⟨_, hx⟩)
      · exact hk
      · exact hms x hx
    · rintro x (_ | ⟨_, hx⟩)
      · exact hm
      · exact ih hms x hx

/-- A raise of a kind that the unit raises (R8). -/
theorem Kept.raise {u : UnitName} {k : NKind} (hk : k ∈ noticeKinds u) (fs : List Fld) (s : State) :
    Kept s (raise u k fs s) := .modDv ⟨rfl, id, noticesLegal_putNotice hk⟩

theorem Kept.raiseIf {u : UnitName} {k : NKind} (hk : k ∈ noticeKinds u) (c : Bool) (fs : List Fld) (s : State) :
    Kept s (raiseIf c u k fs s) := by
  unfold Machine.raiseIf
  exact .ite (fun _ => .raise hk fs s) fun _ => .refl s

/-- A report of a component of the fault summary (R13). -/
theorem Kept.setComponents {g : Dv → Dv} (s : State)
    (hg : ∀ d, g d = { d with marks := (g d).marks, sampler := (g d).sampler, log := (g d).log,
                              settings := (g d).settings }) : Kept s (setComponents g s) := by
  unfold Machine.setComponents
  refine .trans (.modDv (f := g) ⟨?_, ?_, ?_⟩) (.raiseIf (by decide) _ _ _)
  · rw [hg]
  · rw [hg]; exact id
  · rw [hg]; exact id

theorem hasAppend_iff (d : Dl) (src : LogSource) : d.hasAppend src = true ↔ src ∈ d.sources := by
  unfold Dl.hasAppend Dl.sources
  rcases d.writing with _ | w
  · simp
  · simp only [Option.any_some, Option.toList_some, List.map_cons, List.map_nil, List.cons_append, List.nil_append,
      Bool.or_eq_true, List.any_eq_true, beq_iff_eq, List.mem_cons, List.mem_map]
    exact ⟨fun h => h.elim .inr fun e => .inl e.symm, fun h => h.elim (fun e => .inr e.symm) .inl⟩

/-- A post of a source without an append at the log (R174). -/
theorem Kept.postRecord {src : LogSource} {s : State} (r : LogRec) (h : s.dl.hasAppend src = false) :
    Kept s (postRecord src r s) := by
  refine .modDl id ⟨rfl, rfl, rfl, rfl, Nat.le_refl _, ?_⟩
  rintro ⟨hsources, hrest⟩
  refine ⟨?_, hrest⟩
  have hnew : src ∉ s.dl.sources := by rw [← hasAppend_iff, h]; exact Bool.false_ne_true
  have happ : ((s.modDl fun d => { d with queue := d.queue ++ [⟨src, r⟩] }).dl).sources = s.dl.sources ++ [src] := by
    simp [Dl.sources]
  rw [happ]
  exact List.nodup_append.2 ⟨hsources, by simp, by rintro a ha b hb rfl; exact hnew (List.mem_singleton.1 hb ▸ ha)⟩

theorem Kept.postFrom (src : LogSource) (s : State) : Kept s (postFrom src s) := by
  rcases postFrom_cases src s with h | ⟨r, _, hno, _, h⟩ <;> rw [h]
  · exact .refl s
  · exact .postRecord r hno

/-- A change of a bay drives its RELEASE (R112, R113). -/
theorem Kept.changeBay {b : Bay} {reason : String} {lines : Bool} {o : NoticeOrder} {f : BayUnit → BayUnit} {s : State}
    (h : BayCounts (s.bay b) → BayCounts (f (s.bay b))) : Kept s (changeBay b reason lines o f s) := by
  have hset : Kept s (s.setBay b (f (s.bay b)).drive) := .setBay h fun _ => drive_release _
  unfold Machine.changeBay
  have state : NKind.STATE ∈ noticeKinds (.B b) := by simp [noticeKinds]
  have line : NKind.LINES ∈ noticeKinds (.B b) := by simp [noticeKinds]
  have hold : NKind.HOLD ∈ noticeKinds (.B b) := by simp [noticeKinds]
  cases o
  · exact ((hset.trans (.raiseIf state _ _ _)).trans (.raiseIf line _ _ _)).trans (.raiseIf hold _ _ _)
  · exact ((hset.trans (.raiseIf line _ _ _)).trans (.raiseIf hold _ _ _)).trans (.raiseIf state _ _ _)

theorem Kept.foldl {α : Type} {f : State → α → State} (h : ∀ t a, Kept t (f t a)) (l : List α) (s : State) :
    Kept s (l.foldl f s) := by
  induction l generalizing s with
  | nil => exact .refl s
  | cons a l ih => exact (h s a).trans (ih _)

theorem Kept.forBays {f : Bay → State → State} (h : ∀ b t, Kept t (f b t)) (s : State) : Kept s (forBays f s) :=
  .foldl (fun t b => h b t) _ s

end Sys2Proof.Proofs.Keeping

/-! PROOFS. What the operations of the bays and the sampler keep. -/

namespace Sys2Proof.Proofs.Keeping

open Sys2Proof Sys2Proof.Machine Sys2Proof.Laws.Basic Sys2Proof.Laws.Requests

/-! ## Line records (R109) -/

theorem lineCounts_addResult {temp : Option Int} {w : Nat} {final : Bool} {l : LineRec} (h : LineCounts l) :
    LineCounts (addResult temp w final l) := by
  obtain ⟨hp, ht, hf⟩ := h
  rcases temp with _ | t
  · exact ⟨hp, ht, satAdd_le _ _ _⟩
  · exact ⟨hp, satAdd_le _ _ _, hf⟩

theorem lineCounts_reconcile {withFinal : Bool} {factor : Nat} {p : Product} {tol : Tolerance} {qty : Nat} {l : LineRec}
    (h : LineCounts l) : LineCounts (reconcile withFinal factor p tol qty l) := by
  unfold reconcile
  dsimp only
  split <;> exact h

theorem lineCounts_reconcileLine {withFinal : Bool} {s : State} {b : Bay} {l : LineRec} (h : LineCounts l) :
    LineCounts (reconcileLine withFinal s b l) := by
  unfold reconcileLine
  split
  · exact lineCounts_reconcile h
  · exact h

theorem lineCounts_reReconcile {tol : Tolerance} {qty : Nat} {l : LineRec} (h : LineCounts l) :
    LineCounts (reReconcile tol qty l) := by
  unfold reReconcile
  split <;> exact h

theorem lineCounts_openLine (c : Nat) : LineCounts (openLine c) := ⟨Nat.zero_le _, Nat.zero_le _, Nat.zero_le _⟩

/-! ## The record of one bay (R108) -/

theorem bayCounts_modLine {c : Nat} {f : LineRec → LineRec} (hf : ∀ l, LineCounts l → LineCounts (f l)) {u : BayUnit}
    (h : BayCounts u) : BayCounts (u.modLine c f) := by
  obtain ⟨hs, hl, hlines⟩ := h
  refine ⟨hs, hl, fun l hmem => ?_⟩
  obtain ⟨m, hm, rfl⟩ := List.mem_map.1 hmem
  split
  · exact hf m (hlines m hm)
  · exact hlines m hm

theorem bayCounts_adjust {u : BayUnit} (h : BayCounts u) : BayCounts u.adjust := by
  rw [Laws.Tables.adjust_eq]; exact h

theorem bayCounts_finish {u : BayUnit} (h : BayCounts u) : BayCounts u.finish := by
  unfold BayUnit.finish
  split
  · exact h
  · exact bayCounts_modLine (f := fun l => { l with state := .FINISHING }) (fun _ => id) h

theorem bayCounts_empty {u : BayUnit} {st : BayState} (h : BayCounts u) : BayCounts (u.empty st) :=
  ⟨h.1, h.2.1, fun _ hl => nomatch hl⟩

/-- A bay that does not load has RELEASE inactive by its conditions (R112). -/
theorem mayRelease_of_not_loading {u : BayUnit} (h : u.state ≠ .LOADING) : u.mayRelease = false := by
  simp [BayUnit.mayRelease, h]

/-! ## Documents and drivers at the bays -/

theorem map_num_ite {α β : Type} (num : α → β) {p : α → Prop} [DecidablePred p] {f : α → α} (hf : ∀ x, num (f x) = num x)
    (l : List α) : (l.map fun x => if p x then f x else x).map num = l.map num := by
  simp only [List.map_map]
  refine List.map_congr_left fun x _ => ?_
  simp only [Function.comp]
  split
  · exact hf x
  · rfl

/-- An update of one driver that keeps the number. -/
theorem Kept.modDriver {n : Nat} {f : Driver → Driver} (hf : ∀ x, (f x).num = x.num) (s : State) :
    Kept s (modDriver n f s) := by
  refine .modDt ?_ id
  rintro ⟨hlen, hnum, hout⟩
  refine ⟨by simpa using hlen, ?_, hout⟩
  exact (map_num_ite Driver.num (p := fun x => (x.num == n) = true) hf s.dt.drivers).symm ▸ hnum

/-- An update of one document that keeps the number and the bounds of its counts. -/
theorem Kept.modDoc {d : String} {f : Doc → Doc} {s : State} (hf : ∀ x, (f x).num = x.num)
    (hstack : ∀ x ∈ s.cp.docs, x.num = d → x.stack.length ≤ Config.maxStack → (f x).stack.length ≤ Config.maxStack)
    (hcount : ∀ x, x.count ≤ Config.maxCount16 → (f x).count ≤ Config.maxCount16) : Kept s (modDoc d f s) := by
  refine .modCp ?_ ?_
  · rintro ⟨hlen, hnum, hst⟩
    refine ⟨by simpa using hlen, ?_, fun x hx => ?_⟩
    · exact (map_num_ite Doc.num (p := fun x => (x.num == d) = true) hf s.cp.docs).symm ▸ hnum
    · obtain ⟨y, hy, rfl⟩ := List.mem_map.1 hx
      split
      · exact hstack y hy (by simpa using ‹(y.num == d) = true›) (hst y hy)
      · exact hst y hy
  · intro hc x hx
    obtain ⟨y, hy, rfl⟩ := List.mem_map.1 hx
    split
    · exact hcount y (hc y hy)
    · exact hc y hy

/-- The document leaves the table (R80). -/
theorem Kept.dropDoc (d : String) (s : State) : Kept s (dropDoc d s) :=
  .modCp
    (fun h => ⟨Nat.le_trans (List.length_filter_le _ _) h.1, h.2.1.sublist (List.filter_sublist.map _),
      fun x hx => h.2.2 x (List.mem_filter.1 hx).1⟩)
    fun h x hx => h x (List.mem_filter.1 hx).1

theorem Kept.cpBind (d : String) (b : Bay) (s : State) : Kept s (cpBind d b s) :=
  .modDoc (fun _ => rfl) (fun _ _ _ _ => Nat.zero_le _) fun _ => id

theorem Kept.cpUnbind (d : String) (b : Bay) (s : State) : Kept s (cpUnbind d b s) := by
  refine .modDoc (fun x => ?_) (fun x _ _ h => ?_) fun x h => ?_ <;> split <;>
    first | rfl | exact h | exact Nat.zero_le _

theorem Kept.cpRelease (d : String) (b : Bay) (s : State) : Kept s (cpRelease d b s) := by
  refine .modDoc (fun x => ?_) (fun x _ _ h => ?_) fun x h => ?_ <;> split <;>
    first | rfl | exact h | exact Nat.zero_le _

theorem Kept.dtBind (v : Nat) (b : Bay) (p : Plan) (s : State) : Kept s (dtBind v b p s) :=
  .modDriver (by intro _; rfl) s

theorem Kept.dtUnbind (v : Nat) (b : Bay) (s : State) : Kept s (dtUnbind v b s) :=
  .modDriver (fun x => by split <;> rfl) s

theorem Kept.dtSwap (old v : Nat) (b : Bay) (p : Plan) (s : State) : Kept s (dtSwap old v b p s) :=
  .trans (t := Machine.modDriver old (fun x => if x.status = .AT_BAY b then { x with status := .ON_SITE } else x) s)
    (.modDriver (fun x => by split <;> rfl) s) (.dtBind v b p _)

theorem Kept.dispatchCheck (v : Nat) (b : Bay) (p : Plan) (s : State) : Kept s (dispatchCheck v b p s) := by
  unfold Machine.dispatchCheck
  split
  · exact .refl s
  all_goals exact .modDriver (by intro _; rfl) s

theorem Kept.dtComplete (v : Nat) (b : Bay) (doc : String) (s : State) : Kept s (dtComplete v b doc s) :=
  .modDriver (fun x => by split <;> rfl) s

theorem Kept.dtAbandon (v : Nat) (b : Bay) (s : State) : Kept s (dtAbandon v b s) :=
  .modDriver (fun x => by split <;> rfl) s

theorem Kept.unbindBay (b : Bay) (s : State) : Kept s (unbindBay b s) := by
  unfold Machine.unbindBay
  have hdoc : Kept s (match (s.bay b).doc with | some d => Machine.cpUnbind d b s | none => s) := by
    split
    · exact .cpUnbind _ b s
    · exact .refl s
  dsimp only
  split
  · exact hdoc.trans (.dtUnbind _ b _)
  · exact hdoc

theorem Kept.vacateBay (b : Bay) (reason : String) (why : CancelReason) (st : BayState) (s : State) :
    Kept s (vacateBay b reason why st s) := by
  unfold Machine.vacateBay
  exact .trans (.unbindBay b s) (.changeBay (bayCounts_empty (st := st)))

theorem Kept.leaveBay (b : Bay) (reason : String) (why : CancelReason) (st : BayState) (s : State) :
    Kept s (leaveBay b reason why st s) := .trans (.vacateBay b reason why st s) (.postFrom _ _)

theorem Kept.enterFinishing (b : Bay) (reason : String) (s : State) : Kept s (enterFinishing b reason s) :=
  .changeBay bayCounts_finish

theorem Kept.freeBay (b : Bay) (reason : String) (s : State) : Kept s (freeBay b reason s) := .changeBay bayCounts_empty

/-- A change of one line that a bay does not tell. -/
theorem Kept.modLine {b : Bay} {c : Nat} {f : LineRec → LineRec} (hf : ∀ l, LineCounts l → LineCounts (f l)) (s : State) :
    Kept s (s.modBay b fun u => u.modLine c f) := .modBay (bayCounts_modLine hf) id

theorem Kept.takeResult (b : Bay) (temp : Option Int) (w : Nat) (final : Bool) (s : State) :
    Kept s (takeResult b temp w final s) := by
  unfold Machine.takeResult
  split
  · exact .refl s
  · split
    · exact .changeBay fun h => bayCounts_adjust (bayCounts_modLine
        (fun _ hl => lineCounts_reconcileLine (lineCounts_addResult hl)) h)
    · exact .modLine (fun _ => lineCounts_addResult) s

theorem Kept.noteAmendment (b : Bay) (n : AmendNote) (s : State) : Kept s (noteAmendment b n s) := by
  rcases n with c | c | c | ⟨c, pos⟩ <;> unfold Machine.noteAmendment
  · dsimp only
    split
    · split
      · exact .changeBay fun h => bayCounts_adjust (bayCounts_modLine (fun _ => lineCounts_reReconcile) h)
      · exact .refl s
    · exact .refl s
  · exact .refl s
  · exact .changeBay fun h => ⟨h.1, h.2.1, fun l hl => h.2.2 l (List.mem_filter.1 hl).1⟩
  · refine .changeBay fun h => ⟨h.1, h.2.1, fun l hl => ?_⟩
    rcases List.eq_or_mem_of_mem_insertIdx hl with rfl | hl
    · exact lineCounts_openLine c
    · exact h.2.2 l hl

/-! ## The sampler (R140 to R149) -/

theorem Kept.chooseWork (s : State) : Kept s (chooseWork s) := by
  unfold Machine.chooseWork
  split
  · split
    · exact .modTs id
    · split
      · exact .refl s
      · split
        · exact .modTs id
        · exact .refl s
  · exact .refl s

theorem Kept.tsPost (b : Bay) (w : Nat) (final : Bool) (s : State) : Kept s (tsPost b w final s) := by
  unfold Machine.tsPost
  exact .ite (fun _ => .takeResult b none w final s) fun _ => .trans (.modTs (f := Ts.addReq b w final) id) (.chooseWork _)

theorem Kept.tsWithdraw (b : Bay) (s : State) : Kept s (tsWithdraw b s) := by
  refine .modTs fun h => ?_
  split <;> exact h

theorem Kept.faultReq (b : Bay) (s : State) : Kept s (faultReq b s) := by
  unfold Machine.faultReq
  split
  · exact .trans (.modTs (f := Ts.dropReq b) id) (.takeResult b none _ _ _)
  · exact .refl s

theorem Kept.faultAll (s : State) : Kept s (faultAll s) := .foldl (fun t b => .faultReq b t) _ s

theorem Kept.tellHealth (lo hi : Nat) (s : State) : Kept s (tellHealth lo hi s) := .raise (by simp [noticeKinds]) _ s

/-- The outcome of a calibration: only codes that pass both tests are taken (R146, R147). -/
theorem Kept.calOutcome (lo hi : Nat) (s : State) : Kept s (calOutcome lo hi s) := by
  unfold Machine.calOutcome
  split
  case isTrue hok =>
    rw [Bool.and_eq_true] at hok
    have hcodes : Kept s (s.modTs fun t => { t with clo := lo, chi := hi, fault := false }) := .modTs fun _ => hok
    dsimp only
    split
    · exact .trans (hcodes.trans (.tellHealth lo hi _)) (.setComponents _ fun _ => rfl)
    · exact hcodes
  case isFalse =>
    split
    · exact .tellHealth lo hi s
    · refine .trans ?_ (.setComponents _ fun _ => rfl)
      have hfault : Kept s (s.modTs fun t => { t with fault := true }) := .modTs id
      exact (hfault.trans (.faultAll _)).trans (.tellHealth lo hi _)

theorem Kept.calDue (s : State) : Kept s (calDue s) := .trans (.modTs id) (.chooseWork _)

theorem Kept.deliver (b : Bay) (code : Nat) (s : State) : Kept s (deliver b code s) := by
  unfold Machine.deliver
  split
  · exact .trans (.modTs (f := Ts.dropReq b) id) (.takeResult b _ _ _ _)
  · exact .refl s

theorem Kept.freeConverter (s : State) : Kept s (freeConverter s) := .modTs id

theorem Kept.sampleDone (c1 c2 : Adc) (s : State) : Kept s (sampleDone c1 c2 s) := by
  unfold Machine.sampleDone
  split
  · refine .trans (.trans ?_ (.freeConverter _)) (.chooseWork _)
    exact .ite (fun _ => .refl s) fun _ => .deliver _ _ s
  · exact .refl s

theorem Kept.calibrationDone (l1 l2 h1 h2 : Adc) (s : State) : Kept s (calibrationDone l1 l2 h1 h2 s) := by
  unfold Machine.calibrationDone
  dsimp only
  split
  · exact .trans (.trans (.trans (.modTs id) (.calOutcome _ _ _)) (.freeConverter _)) (.chooseWork _)
  · exact .refl s

end Sys2Proof.Proofs.Keeping

/-! PROOFS. What the requests and events of the link, the clock, the duty table, the papers and the bays keep. -/

namespace Sys2Proof.Proofs.Keeping

open Sys2Proof Sys2Proof.Machine Sys2Proof.Laws.Basic Sys2Proof.Laws.Requests

/-! ## The device unit (R5, R9, R10, R12, R14, R15) -/

theorem Kept.dvStatus (f : NoFields) (s : State) : Kept s (dvStatus f s).1 := by
  cases f <;> exact .refl s

theorem Kept.dvClear (f : NoFields) (s : State) : Kept s (dvClear f s).1 := by
  cases f
  · exact .refl s
  · exact .setComponents s fun _ => rfl

theorem Kept.dvMode (a : Parsed (Option NoticeMode)) (s : State) : Kept s (dvMode a s).1 := by
  rcases a with _ | _ | m
  · exact .refl s
  · exact .refl s
  · exact Kept.modDv (f := fun d => { d with mode := m }) ⟨rfl, id, id⟩

theorem noticesLegal_tail {n : Notice} {ns : List Notice} (h : NoticesLegal (n :: ns)) : NoticesLegal ns :=
  ⟨(List.nodup_cons.1 h.1).2, fun x hx => h.2 x (List.mem_cons_of_mem n hx)⟩

theorem Kept.dvNext (f : NoFields) (s : State) : Kept s (dvNext f s).1 := by
  cases f
  · exact .refl s
  unfold Machine.dvNext
  dsimp only
  split
  · exact .refl s
  · rename_i hn
    dsimp only
    exact .modDv ⟨rfl, id, fun h => noticesLegal_tail (hn ▸ h)⟩

theorem Kept.dvReset (f : NoFields) (s : State) : Kept s (dvReset f s).1 := by
  cases f
  · exact .refl s
  · exact Kept.modDv (f := fun d => { d with resetWait := true }) ⟨rfl, fun _ => rfl, id⟩

theorem Kept.refuseRouting (u : BadRequest) (s : State) : Kept s (refuseRouting u s).1 := by
  rcases u with t | t | u | u
  · exact .refl s
  · exact .refl s
  · exact .refl s
  · exact .setComponents s fun _ => rfl

/-! ## The clock (R21 to R30) -/

theorem daysBeforeMonth_le (y m : Nat) : daysBeforeMonth y m ≤ 31 * m := by
  induction m with
  | zero => exact Nat.le_refl 0
  | succ m ih =>
    have hm : daysInMonth y m ≤ 31 := by
      unfold daysInMonth
      repeat' split
      all_goals omega
    rw [daysBeforeMonth]
    omega

/-- A time that CK SET takes lies within the count (R18, R21). -/
theorem setTime_le {a : CkSetArgs} {n : Nat} (h : setTime a = some n) : n ≤ Config.maxCount := by
  unfold setTime at h
  split at h
  case isTrue hok =>
    simp only [dateValid, inSetSpan, Bool.and_eq_true, decide_eq_true_eq] at hok
    have hmonth := daysBeforeMonth_le a.date.year a.date.month
    have hdays : daysInMonth a.date.year a.date.month ≤ 31 := by
      unfold daysInMonth
      repeat' split
      all_goals omega
    rw [← Option.some.inj h]
    unfold dateMinutes dayNumber leapsThrough Config.maxCount
    omega
  case isFalse => exact nomatch h

theorem Kept.recomputeDst (tell : Bool → Bool → Bool) (s : State) : Kept s (recomputeDst tell s) :=
  .trans (t := s.modCk fun c => { c with dst := c.inForce }) (.modCk id id) (.raiseIf (by simp [noticeKinds]) _ _ _)

theorem Kept.ckRecord (r : LogRec) (s : State) : Kept s (ckRecord r s) :=
  .trans (t := s.modCk fun c => { c with outbox := c.outbox ++ [r] }) (.modCk id id) (.postFrom _ _)

theorem Kept.fireDay (date : Nat) (s : State) : Kept s (fireDay date s) :=
  .trans (t := s.modCk fun c => { c with lastFired := some date }) (.modCk id id) (.ckRecord _ _)

theorem Kept.testMinute (m : Nat) (s : State) : Kept s (testMinute m s) := by
  unfold Machine.testMinute
  exact .ite (fun _ => .fireDay _ s) fun _ => .refl s

theorem Kept.minuteReached (s : State) : Kept s (minuteReached s) := by
  unfold Machine.minuteReached
  split
  · exact .trans (t := s.modCk fun c => { c with minuteDue := false }) (.modCk id id) (.testMinute _ _)
  · exact .refl s

theorem Kept.dstReached (s : State) : Kept s (dstReached s) := by
  unfold Machine.dstReached
  dsimp only
  split
  · have hstate : Kept s (s.modCk fun c => { c with dst := c.inForce }) := .modCk id id
    split
    · have htold := hstate.trans (.raise (u := .CK) (k := .DST) (by simp [noticeKinds])
        (dstFields { s.ck with dst := s.ck.inForce } s.ck.dst (reachedInstant s.ck.fwd s.ck.rev s.ck.count)) _)
      split
      · exact htold.trans (.fireDay _ _)
      · exact htold
    · exact hstate
  · exact .refl s

theorem Kept.ckStatus (f : NoFields) (s : State) : Kept s (ckStatus f s).1 := by
  cases f <;> exact .refl s

theorem Kept.ckRules (f : NoFields) (s : State) : Kept s (ckRules f s).1 := by
  cases f <;> exact .refl s

theorem Kept.ckSet (a : Parsed CkSetArgs) (s : State) : Kept s (ckSet a s).1 := by
  rcases a with _ | a
  · exact .refl s
  unfold Machine.ckSet
  dsimp only
  split
  · exact .refl s
  · rename_i n hn
    split
    · exact .refl s
    · split
      · exact .refl s
      · refine .trans (.trans ?_ (.recomputeDst _ _)) (.ckRecord _ _)
        exact .modCk id fun _ => setTime_le hn

theorem Kept.writeRules {f : Ck → Ck} {s : State} (hm : MatchLegal s.ck → MatchLegal (f s.ck))
    (hc : (f s.ck).count = s.ck.count) : Kept s (writeRules f s) :=
  .trans (.modCk (f := f) hm fun h => hc ▸ h) (.recomputeDst _ _)

theorem Kept.ckDstrule (a : Parsed RuleArgs) (s : State) : Kept s (ckDstrule a s).1 := by
  rcases a with _ | a
  · exact .refl s
  unfold Machine.ckDstrule
  dsimp only
  split
  · exact .refl s
  · rename_i n r _
    split
    · exact .refl s
    · cases n <;> exact .writeRules id rfl

theorem Kept.ckDstruleOff (f : NoFields) (s : State) : Kept s (ckDstruleOff f s).1 := by
  rcases f with _ | f
  · exact .refl s
  unfold Machine.ckDstruleOff
  dsimp only
  split
  · exact .refl s
  · exact .writeRules id rfl

theorem Kept.ckDayclose (a : Parsed DaycloseArgs) (s : State) : Kept s (ckDayclose a s).1 := by
  rcases a with _ | ⟨_ | mi, _ | ho, _ | wd⟩ <;> try exact .refl s
  unfold Machine.ckDayclose
  dsimp only
  split
  · rename_i hok
    simp only [Bool.and_eq_true, Option.all_eq_true, decide_eq_true_eq] at hok
    dsimp only
    exact .modCk (fun _ => ⟨hok.1.1, hok.1.2, hok.2⟩) id
  · exact .refl s

theorem Kept.ckClearstamp (f : NoFields) (s : State) : Kept s (ckClearstamp f s).1 := by
  cases f
  · exact .refl s
  · exact Kept.modCk (f := fun c => { c with firstLoss := none }) id id

/-! ## The duty table (R44 to R56) -/

/-- A new record stands in the table beside the others. -/
theorem insertDriver_perm (x : Driver) (l : List Driver) : (insertDriver x l).Perm (x :: l) := by
  induction l with
  | nil => exact .refl _
  | cons y ys ih =>
    unfold insertDriver
    split
    · exact .refl _
    · exact (ih.cons y).trans (.swap x y ys)

theorem driverOf_isSome_iff (s : State) (n : Nat) : (s.driverOf n).isSome = true ↔ n ∈ s.dt.drivers.map (·.num) := by
  simp [State.driverOf]

theorem Kept.dtStatus (f : NoFields) (s : State) : Kept s (dtStatus f s).1 := by
  cases f <;> exact .refl s

theorem Kept.dtEnrol (a : Parsed Nat) (s : State) : Kept s (dtEnrol a s).1 := by
  rcases a with _ | n
  · exact .refl s
  unfold Machine.dtEnrol
  dsimp only
  split
  · exact .refl s
  · split
    · exact .refl s
    · rename_i hnew
      split
      · exact .refl s
      · rename_i hroom
        dsimp only
        refine .modDt (fun ⟨_, hnum, hout⟩ => ⟨?_, ?_, hout⟩) id
        · rw [(insertDriver_perm _ _).length_eq]
          exact Nat.lt_of_not_le hroom
        · refine ((insertDriver_perm _ _).map Driver.num).nodup_iff.2 (List.nodup_cons.2 ⟨?_, hnum⟩)
          exact fun h => hnew ((driverOf_isSome_iff s n).2 h)

theorem Kept.dtRemove (a : Parsed Nat) (s : State) : Kept s (dtRemove a s).1 := by
  rcases a with _ | n
  · exact .refl s
  unfold Machine.dtRemove
  dsimp only
  split
  · exact .refl s
  · split
    · exact .refl s
    · split
      · exact .refl s
      · dsimp only
        exact .modDt (fun ⟨hlen, hnum, hout⟩ => ⟨Nat.le_trans (List.length_filter_le _ _) hlen,
          hnum.sublist (List.filter_sublist.map _), hout⟩) id

theorem Kept.dtArrive (a : Parsed Nat) (s : State) : Kept s (dtArrive a s).1 := by
  rcases a with _ | n
  · exact .refl s
  unfold Machine.dtArrive
  dsimp only
  repeat' split
  any_goals exact .refl s
  exact .modDriver (by intro _; rfl) s

theorem Kept.dtDepart (a : Parsed Nat) (s : State) : Kept s (dtDepart a s).1 := by
  rcases a with _ | n
  · exact .refl s
  unfold Machine.dtDepart
  dsimp only
  repeat' split
  any_goals exact .refl s
  exact .modDriver (by intro _; rfl) s

theorem Kept.dtImport (a : Parsed ImportArgs) (s : State) : Kept s (dtImport a s).1 := by
  rcases a with _ | a
  · exact .refl s
  unfold Machine.dtImport
  dsimp only
  repeat' split
  any_goals exact .refl s
  exact .modDriver (by intro _; rfl) s

theorem Kept.dtClosetrip (a : Parsed ClosetripArgs) (s : State) : Kept s (dtClosetrip a s).1 := by
  rcases a with _ | a
  · exact .refl s
  unfold Machine.dtClosetrip
  dsimp only
  repeat' split
  any_goals exact .refl s
  rename_i hroom _
  dsimp only [cpRemove]
  refine .trans ?_ (.raise (by simp [noticeKinds]) _ _)
  refine .trans ?_ (.modDt id fun ⟨_, hl⟩ => ⟨satAdd_le _ _ _, hl⟩)
  refine .trans (.trans ?_ (.postFrom _ _)) (.dropDoc _ _)
  refine .trans (.modDriver (by intro _; rfl) s) (.modDt (fun ⟨hlen, hnum, _⟩ => ⟨hlen, hnum, ?_⟩) id)
  simpa [Machine.modDriver] using Nat.lt_of_not_le hroom

theorem Kept.dtQuery (a : Parsed Nat) (s : State) : Kept s (dtQuery a s).1 := by
  unfold Machine.dtQuery
  repeat' split
  all_goals exact .refl s

theorem Kept.dtQueryPlan (a : Parsed QueryPlanArgs) (s : State) : Kept s (dtQueryPlan a s).1 := by
  unfold Machine.dtQueryPlan
  repeat' split
  all_goals exact .refl s

theorem Kept.dtList (a : Parsed DtListArgs) (s : State) : Kept s (dtList a s).1 := by
  unfold Machine.dtList
  repeat' split
  all_goals exact .refl s

theorem Kept.dtRecordLeaves (s : State) : Kept s (dtRecordLeaves s) :=
  .trans (t := s.modDt fun d => { d with outbox := d.outbox.drop 1 })
    (.modDt (fun ⟨hlen, hnum, hout⟩ => ⟨hlen, hnum, by rw [List.length_drop]; omega⟩) id) (.postFrom _ _)

theorem Kept.dtRefused (s : State) : Kept s (dtRefused s) :=
  .trans (.trans (t := s.modDt fun d => { d with logfull := satAdd Config.maxCount16 d.logfull 1 })
    (.modDt id fun ⟨ht, _⟩ => ⟨ht, satAdd_le _ _ _⟩) (.raise (by simp [noticeKinds]) _ _)) (.dtRecordLeaves _)

/-! ## The papers (R84 to R106) -/

theorem Kept.discardStaging (reason : String) (s : State) : Kept s (discardStaging reason s) := by
  unfold Machine.discardStaging
  split
  · exact .refl s
  · exact .trans (t := s.modCp fun c => { c with staging := none }) (.modCp id id) (.raise (by simp [noticeKinds]) _ _)

theorem Kept.interrupted (s : State) : Kept s (interrupted s) := .discardStaging _ s

theorem Kept.cpStatus (f : NoFields) (s : State) : Kept s (cpStatus f s).1 := by
  cases f <;> exact .refl s

theorem Kept.cpOpen (a : Parsed OpenArgs) (s : State) : Kept s (cpOpen a s).1 := by
  rcases a with _ | a
  · exact .refl s
  unfold Machine.cpOpen
  dsimp only
  split
  · exact .refl s
  · dsimp only
    exact .trans (.discardStaging _ s) (.modCp id id)

theorem Kept.cpLine (a : Parsed LineArgs) (s : State) : Kept s (cpLine a s).1 := by
  rcases a with _ | a
  · exact .refl s
  unfold Machine.cpLine
  dsimp only
  split
  · exact .refl s
  · split
    · exact .refl s
    · split
      · exact .discardStaging _ s
      · dsimp only
        exact .modCp id id

theorem docOf_isSome_iff (s : State) (d : String) : (s.docOf d).isSome = true ↔ d ∈ s.cp.docs.map (·.num) := by
  simp [State.docOf]

/-- A staging that passes validation has a new number and finds a place (R88, tests 1 and 2). -/
theorem validation_none {s : State} {g : Staging} (h : validation s g = none) :
    g.num ∉ s.cp.docs.map (·.num) ∧ s.cp.docs.length < Config.maxDocs := by
  unfold validation at h
  dsimp only at h
  split at h
  · exact nomatch h
  · rename_i hnew
    split at h
    · exact nomatch h
    · rename_i hroom
      exact ⟨fun hm => hnew ((docOf_isSome_iff s g.num).2 hm), Nat.lt_of_not_le hroom⟩

theorem Kept.cpConfirm (f : NoFields) (s : State) : Kept s (cpConfirm f s).1 := by
  rcases f with _ | f
  · exact .refl s
  unfold Machine.cpConfirm
  dsimp only
  split
  · exact .refl s
  · rename_i g _
    split
    · exact .discardStaging _ s
    · have hout : Kept s (s.modCp fun c => { c with staging := none }) := .modCp id id
      split
      · exact hout
      · rename_i hvalid
        obtain ⟨hnew, hroom⟩ := validation_none hvalid
        dsimp only
        refine hout.trans (.modCp (fun ⟨_, hnum, hstack⟩ => ⟨?_, ?_, fun x hx => ?_⟩) fun hc x hx => ?_)
        · simpa using hroom
        · rw [List.map_append]
          exact List.nodup_append.2 ⟨hnum, by simp, by
            rintro a ha b hb rfl; exact hnew ((List.mem_singleton.1 hb : a = g.num) ▸ ha)⟩
        · rcases List.mem_append.1 hx with hx | hx
          · exact hstack x hx
          · rw [List.mem_singleton.1 hx]; exact Nat.zero_le _
        · rcases List.mem_append.1 hx with hx | hx
          · exact hc x hx
          · rw [List.mem_singleton.1 hx]; exact Nat.zero_le _

theorem Kept.cpAbort (f : NoFields) (s : State) : Kept s (cpAbort f s).1 := by
  cases f
  · exact .refl s
  · exact .discardStaging _ s

theorem Kept.cpVoid (d : Parsed String) (s : State) : Kept s (cpVoid d s).1 := by
  unfold Machine.cpVoid
  dsimp only
  repeat' split
  any_goals exact .interrupted s
  exact .trans (.interrupted s) (.dropDoc _ _)

theorem Kept.cpShow (d : Parsed String) (s : State) : Kept s (cpShow d s).1 := by
  unfold Machine.cpShow
  dsimp only
  repeat' split
  all_goals exact .interrupted s

theorem Kept.cpShowLine (a : Parsed ShowLineArgs) (s : State) : Kept s (cpShowLine a s).1 := by
  unfold Machine.cpShowLine
  dsimp only
  repeat' split
  all_goals exact .interrupted s

theorem Kept.cpList (n : Parsed Nat) (s : State) : Kept s (cpList n s).1 := by
  unfold Machine.cpList
  dsimp only
  repeat' split
  all_goals exact .interrupted s

/-- The bound document of an amendment is the one its number finds (R101). -/
theorem boundDoc_ok {s : State} {d : String} {fs : List Fld} {x : Doc} {b : Bay} (h : boundDoc s d fs = .ok (x, b)) :
    s.docOf d = some x ∧ x.state = .BOUND b ∧ (s.bay b).state ≠ .DISPATCHING := by
  unfold boundDoc at h
  split at h
  · exact nomatch h
  · rename_i y hy
    split at h
    · exact nomatch h
    · rename_i c hc
      split at h
      · exact nomatch h
      · rename_i hfree
        cases h
        refine ⟨hy, ?_, hfree⟩
        unfold docBay at hc
        split at hc
        · rename_i hx; rw [hx, Option.some.inj hc]
        · exact nomatch hc

/-- The target of an amendment is a bound document of the number asked for, its line of the compartment, and its stack has
room (R101). -/
theorem amendTarget_ok {s : State} {d : String} {c : Nat} {permits : LineState → Bool} {remove : Bool} {g : AmendTarget}
    (h : amendTarget s d c permits remove = .ok g) :
    boundDoc s d [bare "DOC"] = .ok (g.doc, g.bay) ∧ g.doc.lineOf c = some g.line ∧
      linePermits s g.bay c permits = true ∧ (remove = true → g.doc.lines.length ≠ 1) ∧
      g.doc.stack.length < Config.maxStack := by
  unfold amendTarget at h
  split at h
  · exact nomatch h
  · rename_i x b hx
    split at h
    · exact nomatch h
    · rename_i l hl
      split at h
      · exact nomatch h
      · rename_i hp
        split at h
        · exact nomatch h
        · rename_i hlast
          split at h
          · exact nomatch h
          · rename_i hroom
            cases h
            exact ⟨hx, hl, by simpa using hp, by simpa using hlast, Nat.lt_of_not_le hroom⟩

/-- In a list whose members' keys differ, a member is the one its key finds. -/
theorem find?_key_of_mem {α β : Type} [BEq β] [LawfulBEq β] (key : α → β) {l : List α} (hkey : (l.map key).Nodup) {x : α}
    (hx : x ∈ l) : l.find? (fun y => key y == key x) = some x := by
  induction l with
  | nil => exact nomatch hx
  | cons y ys ih =>
    obtain ⟨hnew, hrest⟩ := List.nodup_cons.1 hkey
    rcases List.mem_cons.1 hx with rfl | hmem
    · simp
    · have hne : key y ≠ key x := fun e => hnew (e ▸ List.mem_map_of_mem hmem)
      rw [List.find?_cons_of_neg (by simpa using hne)]
      exact ih hrest hmem

/-- A document of the table is the one its number finds (R80). -/
theorem docOf_of_mem {s : State} (hnum : (s.cp.docs.map (·.num)).Nodup) {x : Doc} (hx : x ∈ s.cp.docs) :
    s.docOf x.num = some x := find?_key_of_mem Doc.num hnum hx

/-- A driver of the table is the one the number finds (R37). -/
theorem driverOf_of_mem {s : State} (hnum : (s.dt.drivers.map (·.num)).Nodup) {x : Driver} (hx : x ∈ s.dt.drivers) :
    s.driverOf x.num = some x := find?_key_of_mem Driver.num hnum hx

/-- An amendment puts one entry on a stack that has room for it (R101). -/
theorem Kept.amendDoc {d : String} {x : Doc} {k : AmendKind} {old : DocLine} {ls : List DocLine} {s : State}
    (hdoc : s.docOf d = some x) (hroom : x.stack.length < Config.maxStack) :
    Kept s (Machine.modDoc d (Doc.amended k old ls) s) := by
  refine ⟨⟨⟨rfl, id, id, id, id, ?_, ?_, fun _ => id, id, id, id⟩, rfl, .refl _, id⟩, .of_eq rfl⟩
  · rintro ⟨hlen, hnum, hstack⟩
    refine ⟨by simpa [Machine.modDoc] using hlen, ?_, fun y hy => ?_⟩
    · exact (map_num_ite Doc.num (p := fun x => (x.num == d) = true) (f := Doc.amended k old ls) (fun _ => rfl)
        s.cp.docs).symm ▸ hnum
    · obtain ⟨z, hz, rfl⟩ := List.mem_map.1 hy
      split
      · rename_i hzd
        have hzx : z = x := Option.some.inj ((docOf_of_mem hnum hz).symm.trans ((eq_of_beq hzd).symm ▸ hdoc))
        subst hzx
        simpa [Doc.amended] using hroom
      · exact hstack z hz
  · intro hc y hy
    obtain ⟨z, hz, rfl⟩ := List.mem_map.1 hy
    split
    · exact satAdd_le _ _ _
    · exact hc z hz

theorem Kept.takeAmendment {d : String} {g : AmendTarget} {k : AmendKind} {ls : List DocLine} {n : AmendNote} {s : State}
    {c : Nat} {permits : LineState → Bool} {remove : Bool} (h : amendTarget s d c permits remove = .ok g) :
    Kept s (Machine.takeAmendment d g k ls n s).1 := by
  obtain ⟨hbound, -, -, -, hroom⟩ := amendTarget_ok h
  exact .trans (.amendDoc (boundDoc_ok hbound).1 hroom) (.noteAmendment _ _ _)

theorem Kept.cpAmendQty (a : Parsed AmendQtyArgs) (s : State) : Kept s (cpAmendQty a s).1 := by
  unfold Machine.cpAmendQty
  dsimp only
  repeat' split
  any_goals exact .interrupted s
  exact .trans (.interrupted s) (.takeAmendment ‹_›)

theorem Kept.cpAmendProd (a : Parsed AmendProdArgs) (s : State) : Kept s (cpAmendProd a s).1 := by
  unfold Machine.cpAmendProd
  dsimp only
  repeat' split
  any_goals exact .interrupted s
  exact .trans (.interrupted s) (.takeAmendment ‹_›)

theorem Kept.cpAmendRemove (a : Parsed AmendRemoveArgs) (s : State) : Kept s (cpAmendRemove a s).1 := by
  unfold Machine.cpAmendRemove
  dsimp only
  repeat' split
  any_goals exact .interrupted s
  exact .trans (.interrupted s) (.takeAmendment ‹_›)

theorem Kept.cpWithdraw (d : Parsed String) (s : State) : Kept s (cpWithdraw d s).1 := by
  unfold Machine.cpWithdraw
  dsimp only
  repeat' split
  any_goals exact .interrupted s
  dsimp only
  refine .trans (.trans (.interrupted s) (.modDoc ?_ ?_ ?_)) (.noteAmendment _ _ _)
  · exact fun _ => rfl
  · exact fun x _ _ h => Nat.le_trans (by rw [List.length_dropLast]; omega) h
  · exact fun x h => Nat.le_trans (Nat.sub_le _ _) h

end Sys2Proof.Proofs.Keeping

/-! PROOFS. What the requests and events of the bays, the settings unit and the readout of the log keep. -/

namespace Sys2Proof.Proofs.Keeping

open Sys2Proof Sys2Proof.Machine Sys2Proof.Laws.Basic Sys2Proof.Laws.Requests

/-! ## The requests of the bays (R115 to R136) -/

theorem Kept.bStatus (b : Bay) (f : NoFields) (s : State) : Kept s (bStatus b f s).1 := by
  cases f <;> exact .refl s

theorem Kept.bStatusLine (b : Bay) (c : Parsed Nat) (s : State) : Kept s (bStatusLine b c s).1 := by
  unfold Machine.bStatusLine
  repeat' split
  all_goals exact .refl s

theorem bayCounts_assigned {x : Doc} {drv : Nat} {v : VerdictRec} {u : BayUnit} (h : BayCounts u) :
    BayCounts (BayUnit.assigned x drv v u) := by
  refine bayCounts_adjust ⟨Nat.zero_le _, h.2.1, fun l hl => ?_⟩
  obtain ⟨m, _, rfl⟩ := List.mem_map.1 hl
  exact lineCounts_openLine m.comp

theorem Kept.bAssign (b : Bay) (a : Parsed AssignArgs) (s : State) : Kept s (bAssign b a s).1 := by
  rcases a with _ | a
  · exact .refl s
  unfold Machine.bAssign
  dsimp only
  repeat' split
  any_goals exact .refl s
  · exact .trans (.cpBind _ b s) (.cpUnbind _ b _)
  · dsimp only
    exact .trans (.trans (.cpBind _ b s) (.dtBind _ b _ _)) (.changeBay bayCounts_assigned)

theorem lineCounts_started {l : LineRec} (_ : LineCounts l) : LineCounts l.started :=
  ⟨Nat.zero_le _, Nat.zero_le _, Nat.zero_le _⟩

theorem Kept.bStart (b : Bay) (a : Parsed StartArgs) (s : State) : Kept s (bStart b a s).1 := by
  rcases a with _ | a
  · exact .refl s
  unfold Machine.bStart
  dsimp only
  repeat' split
  any_goals exact .refl s
  dsimp only
  exact .changeBay fun h => bayCounts_modLine (c := a.comp) (fun _ => lineCounts_started) h

theorem Kept.bStop (b : Bay) (f : NoFields) (s : State) : Kept s (bStop b f s).1 := by
  rcases f with _ | f
  · exact .refl s
  unfold Machine.bStop
  dsimp only
  split
  · exact .enterFinishing b _ s
  · exact .refl s

theorem Kept.bResume (b : Bay) (f : NoFields) (s : State) : Kept s (bResume b f s).1 := by
  rcases f with _ | f
  · exact .refl s
  unfold Machine.bResume
  dsimp only
  repeat' split
  any_goals exact .refl s
  dsimp only
  exact .changeBay id

theorem Kept.bAckstray (b : Bay) (f : NoFields) (s : State) : Kept s (bAckstray b f s).1 := by
  rcases f with _ | f
  · exact .refl s
  unfold Machine.bAckstray
  dsimp only
  repeat' split
  any_goals exact .refl s
  dsimp only
  exact .changeBay fun h => bayCounts_adjust ⟨Nat.zero_le _, h.2⟩

theorem Kept.bAckrestart (b : Bay) (f : NoFields) (s : State) : Kept s (bAckrestart b f s).1 := by
  rcases f with _ | f
  · exact .refl s
  unfold Machine.bAckrestart
  dsimp only
  split
  · exact .refl s
  · dsimp only
    exact .changeBay fun h => bayCounts_adjust h

theorem lineCounts_manualLine {s : State} {d : DocLine} {t : Int} {l : LineRec} (h : LineCounts l) :
    LineCounts (manualLine s d t l) := h

theorem Kept.bTemp (b : Bay) (a : Parsed TempArgs) (s : State) : Kept s (bTemp b a s).1 := by
  rcases a with _ | a
  · exact .refl s
  unfold Machine.bTemp
  dsimp only
  repeat' split
  any_goals exact .refl s
  dsimp only
  exact .changeBay fun h => bayCounts_adjust (bayCounts_modLine (c := a.comp) (fun _ => lineCounts_manualLine) h)

theorem Kept.tellHold (b : Bay) (s : State) : Kept s (tellHold b s) := .raise (by simp [noticeKinds]) _ s

theorem Kept.tellState (b : Bay) (reason : String) (s : State) : Kept s (tellState b reason s) :=
  .raise (by simp [noticeKinds]) _ s

theorem Kept.bDriver (b : Bay) (drv : Parsed Nat) (s : State) : Kept s (bDriver b drv s).1 := by
  rcases drv with _ | v
  · exact .refl s
  unfold Machine.bDriver
  dsimp only
  repeat' split
  any_goals exact .refl s
  dsimp only
  refine .trans (.trans (.dtSwap _ v b _ s) (.changeBay fun h => ?_)) (.tellHold b _)
  exact bayCounts_adjust h

theorem Kept.bDispatch (b : Bay) (f : NoFields) (s : State) : Kept s (bDispatch b f s).1 := by
  rcases f with _ | f
  · exact .refl s
  unfold Machine.bDispatch
  dsimp only
  repeat' split
  any_goals exact .refl s
  · dsimp only
    exact .trans (.dispatchCheck _ b _ s) (.changeBay fun h => bayCounts_adjust h)
  · exact .dispatchCheck _ b _ s
  · dsimp only
    exact .trans (.trans (.dispatchCheck _ b _ s) (.changeBay id)) (.postFrom _ _)

theorem Kept.bCancel (b : Bay) (f : NoFields) (s : State) : Kept s (bCancel b f s).1 := by
  rcases f with _ | f
  · exact .refl s
  unfold Machine.bCancel
  dsimp only
  repeat' split
  any_goals exact .refl s
  exact .leaveBay ..

theorem Kept.bClear (b : Bay) (f : NoFields) (s : State) : Kept s (bClear b f s).1 := by
  rcases f with _ | f
  · exact .refl s
  unfold Machine.bClear
  dsimp only
  split
  · exact .refl s
  · exact .freeBay ..

theorem Kept.bReset (b : Bay) (f : NoFields) (s : State) : Kept s (bReset b f s).1 := by
  rcases f with _ | f
  · exact .refl s
  unfold Machine.bReset
  dsimp only
  split
  · exact .refl s
  · split
    · exact .refl s
    · split
      · exact .refl s
      · exact .refl s
      · exact .freeBay ..
      · exact .leaveBay ..
      · exact .leaveBay ..
      · exact .leaveBay ..
      all_goals exact (Kept.tsWithdraw b s).trans (.leaveBay ..)

/-! ## The events of the bays (R117 to R124) -/

/-- Outside LOADING the valve stays closed whatever the input levels do (R112). -/
theorem driven_of_not_loading {u v : BayUnit} (hu : u.state ≠ .LOADING) (hv : v.state ≠ .LOADING)
    (hr : v.release = u.release) (h : u.release = u.mayRelease) : v.release = v.mayRelease := by
  rw [hr, h, mayRelease_of_not_loading hu, mayRelease_of_not_loading hv]

theorem Kept.strayPulse (b : Bay) (s : State) : Kept s (strayPulse b s) := by
  unfold Machine.strayPulse
  dsimp only
  have hcount : Kept s (s.modBay b fun u => { u with stray := satAdd Config.maxCount16 (s.bay b).stray 1 }) :=
    .modBay (fun h => ⟨satAdd_le _ _ _, h.2⟩) id
  split
  · refine (hcount.trans (.changeBay fun h => ?_)).trans (.raise (by simp [noticeKinds]) _ _)
    split
    · exact bayCounts_adjust h
    · exact h
  · exact hcount

theorem lineCounts_countPulse {factor : Nat} {l : LineRec} (h : LineCounts l) : LineCounts (countPulse factor l) :=
  ⟨satAdd_le _ _ _, h.2⟩

/-- Weight posted at the sampler is pending in the active line (R118, R123). -/
theorem Kept.addPend (b : Bay) (c c' : Ctx) (w : Nat) (s : State) :
    Kept s (s.modBay b fun u => { u.modLine c.comp (fun l => { l with pend := l.pend + w }) with ctx := some c' }) :=
  .modBay (fun h => bayCounts_modLine (c := c.comp) (f := fun l => { l with pend := l.pend + w }) (fun _ => id) h) id

theorem Kept.crossingTest (b : Bay) (c : Ctx) (s : State) : Kept s (crossingTest b c s) := by
  unfold Machine.crossingTest
  dsimp only
  split
  · exact (Kept.addPend b c { c with crossings := c.crossings + 1 } _ s).trans (.tsPost b _ _ _)
  · exact .refl s

theorem Kept.linePulse (b : Bay) (c : Ctx) (s : State) : Kept s (linePulse b c s) := by
  unfold Machine.linePulse
  dsimp only
  have hcount := (Kept.modLine (b := b) (c := c.comp) (f := countPulse (s.entry b).factor)
    (fun _ => lineCounts_countPulse) s).trans (.crossingTest b c _)
  split
  · exact hcount.trans (.enterFinishing b _ _)
  · exact hcount

theorem Kept.pulse (b : Bay) (s : State) : Kept s (pulse b s) := by
  unfold Machine.pulse
  dsimp only
  split
  · exact .refl s
  · exact .linePulse b _ s
  · exact .linePulse b _ s
  · split
    · exact .strayPulse b s
    · exact .linePulse b _ s
  · exact .strayPulse b s

theorem Kept.haltChange (b : Bay) (active : Bool) (s : State) : Kept s (haltChange b active s) := by
  unfold Machine.haltChange
  dsimp only
  split
  · exact .refl s
  · split
    · exact .changeBay fun h => by split <;> exact h
    · rename_i hst
      have hne : (s.bay b).state ≠ .LOADING := by rw [hst]; nofun
      exact .modBay id (driven_of_not_loading hne hne rfl)
    · rename_i hne _
      exact .modBay id (driven_of_not_loading hne hne rfl)

theorem Kept.bondChange (b : Bay) (good : Bool) (s : State) : Kept s (bondChange b good s) := by
  unfold Machine.bondChange
  dsimp only
  split
  · exact .refl s
  · split
    · exact .changeBay fun h => by split <;> exact h
    · rename_i hst
      have hne : (s.bay b).state ≠ .LOADING := by rw [hst]; nofun
      exact .modBay id (driven_of_not_loading hne hne rfl)
    · rename_i hst
      have hne : (s.bay b).state ≠ .LOADING := by rw [hst]; nofun
      have hlevel : Kept s (s.modBay b fun u => { u with bond := good }) :=
        .modBay id (driven_of_not_loading hne hne rfl)
      split
      · exact hlevel
      · exact hlevel.trans (.freeBay b _ _)
    · rename_i hne _ _
      exact .modBay id (driven_of_not_loading hne hne rfl)

theorem Kept.pauseEnds (b : Bay) (s : State) : Kept s (pauseEnds b s) := by
  unfold Machine.pauseEnds
  exact .ite (fun _ => .enterFinishing b _ s) fun _ => .refl s

theorem Kept.settleEnds (b : Bay) (s : State) : Kept s (settleEnds b s) := by
  unfold Machine.settleEnds
  split
  · split
    · exact .refl s
    · exact (Kept.addPend b _ _ _ s).trans (.tsPost b _ _ _)
  · exact .refl s

theorem Kept.bayApply (b : Bay) (s : State) : Kept s (bayApply b s) := by
  unfold Machine.bayApply
  dsimp only
  split
  · split
    · exact .refl s
    · exact .changeBay id
  · split
    · exact .changeBay fun h => ⟨Nat.zero_le _, h.2⟩
    · exact .refl s
  · exact .refl s

/-! ## The log's reports to the bays (R129, R131) -/

theorem Kept.bayRecordLeaves (b : Bay) (s : State) : Kept s (bayRecordLeaves b s) :=
  .trans (t := s.modBay b fun u => { u with outbox := u.outbox.drop 1 }) (.modBay id id) (.postFrom _ _)

theorem Kept.tellLate (b : Bay) (doc : String) (s : State) : Kept s (tellLate b doc s) :=
  .raise (by simp [noticeKinds]) _ s

theorem Kept.bayWritten (b : Bay) (r : LogRec) (s : State) : Kept s (bayWritten b r s) := by
  unfold Machine.bayWritten
  split
  · rename_i d _
    dsimp only
    have htold := (Kept.cpRelease d.doc b s).trans (.dtComplete d.drv b d.doc _)
    refine .trans ?_ (.bayRecordLeaves b _)
    split
    · exact htold.trans (.changeBay id)
    · exact htold.trans (.tellLate b _ _)
  · exact .bayRecordLeaves b s

/-- A refusal counted at the bay; a DISPATCHING bay whose DISPATCH is refused is ASSIGNED again (R131). -/
theorem Kept.countRefusal (b : Bay) (r : LogRec) (s : State) : Kept s (s.modBay b fun u =>
    { u.countRefusal with state := if isDispatch r ∧ u.state = .DISPATCHING then .ASSIGNED else u.state }) := by
  refine .modBay (fun h => ⟨h.1, satAdd_le _ _ _, h.2.2⟩) fun h => ?_
  split
  · rename_i hst
    exact driven_of_not_loading (u := s.bay b) (by rw [hst.2]; nofun) nofun rfl h
  · exact h

theorem Kept.bayRefused (b : Bay) (r : LogRec) (s : State) : Kept s (bayRefused b r s) := by
  have hdt : Kept s (match r.body with | .DISPATCH d => Machine.dtAbandon d.drv b s | _ => s) := by
    split
    · exact .dtAbandon _ b s
    · exact .refl s
  exact ((hdt.trans (.countRefusal b r _)).trans (.tellState b _ _)).trans (.bayRecordLeaves b _)

/-! ## The settings unit (R194 to R201) -/

/-- An edit of the staging copy that leaves it legal. -/
theorem Kept.modStaging {f : Settings → Settings} {s : State}
    (h : SettingsLegal s.st.staging → SettingsLegal (f s.st.staging)) : Kept s (modStaging f s) :=
  .modSt fun ⟨hstore, happlied, hstaging⟩ => ⟨hstore, happlied, h hstaging⟩

theorem Kept.stStatus (f : NoFields) (s : State) : Kept s (stStatus f s).1 := by
  cases f <;> exact .refl s

theorem Kept.stShow (a : Parsed ShowArgs) (s : State) : Kept s (stShow a s).1 := by
  cases a <;> exact .refl s

theorem Kept.stDiscard (f : NoFields) (s : State) : Kept s (stDiscard f s).1 := by
  rcases f with _ | f
  · exact .refl s
  unfold Machine.stDiscard
  dsimp only
  split
  · exact .refl s
  · dsimp only
    exact .modSt fun ⟨hstore, happlied, _⟩ => ⟨hstore, happlied, happlied⟩

theorem productInRange_legal {a : ProductArgs} {p : Product} (h : productInRange a = some p) : ProductLegal p := by
  unfold productInRange at h
  split at h
  · split at h
    · rename_i hok
      simp only [Bool.and_eq_true, decide_eq_true_eq] at hok
      obtain ⟨⟨⟨⟨hun, hac⟩, hah⟩, hbc⟩, hbh⟩ := hok
      cases h
      exact ⟨hun, hac, hah, hbc, hbh⟩
    · exact nomatch h
  · exact nomatch h

theorem hasProduct_iff (c : Settings) (code : String) : c.hasProduct code = true ↔ code ∈ c.products.map (·.code) := by
  simp [Settings.hasProduct]

/-- A product added to a table with room, or replaced in its place (R197). -/
theorem settingsLegal_putProduct {p : Product} {c : Settings} (hp : ProductLegal p)
    (hroom : c.hasProduct p.code = false → c.products.length < Config.maxProducts) (h : SettingsLegal c) :
    SettingsLegal (putProduct p c) := by
  obtain ⟨hlen, hcodes, hlegal, hrest⟩ := h
  refine ⟨?_, ?_, ?_, hrest⟩ <;> unfold putProduct <;> split <;> rename_i hin
  · simpa using hlen
  · simpa using hroom (by simpa using hin)
  · have hsame : (c.products.map fun x => if x.code == p.code then p else x).map Product.code
        = c.products.map Product.code := by
      rw [List.map_map]
      refine List.map_congr_left fun x _ => ?_
      simp only [Function.comp]
      split
      · rename_i hx; exact (eq_of_beq hx).symm
      · rfl
    exact hsame.symm ▸ hcodes
  · rw [List.map_append]
    refine List.nodup_append.2 ⟨hcodes, by simp, ?_⟩
    rintro a ha b hb rfl
    exact hin ((hasProduct_iff c p.code).2 ((List.mem_singleton.1 hb : a = p.code) ▸ ha))
  · intro x hx
    obtain ⟨y, hy, rfl⟩ := List.mem_map.1 hx
    split
    · exact hp
    · exact hlegal y hy
  · intro x hx
    rcases List.mem_append.1 hx with hx | hx
    · exact hlegal x hx
    · exact List.mem_singleton.1 hx ▸ hp

theorem Kept.stSetProduct (a : Parsed ProductArgs) (s : State) : Kept s (stSetProduct a s).1 := by
  rcases a with _ | a
  · exact .refl s
  unfold Machine.stSetProduct
  dsimp only
  split
  · exact .refl s
  · rename_i p hp
    split
    · exact .refl s
    · split
      · exact .refl s
      · rename_i hroom
        dsimp only
        refine .modStaging (settingsLegal_putProduct (productInRange_legal hp) fun hnew => ?_)
        simpa [hnew] using hroom

theorem Kept.stSetProductDelete (a : Parsed String) (s : State) : Kept s (stSetProductDelete a s).1 := by
  rcases a with _ | p
  · exact .refl s
  unfold Machine.stSetProductDelete
  dsimp only
  repeat' split
  any_goals exact .refl s
  dsimp only
  exact .modStaging fun ⟨hlen, hcodes, hlegal, hrest⟩ => ⟨Nat.le_trans (List.length_filter_le _ _) hlen,
    hcodes.sublist (List.filter_sublist.map _), fun x hx => hlegal x (List.mem_filter.1 hx).1, hrest⟩

theorem getElem_set_fin {α : Type} {n : Nat} (v : Vector α n) (i j : Fin n) (a : α) :
    (v.set i a)[j] = if i = j then a else v[j] := by
  simp [Vector.getElem_set, Fin.ext_iff]

/-- Both entries of the pair are written, every other stands (R195). -/
theorem segEntry_putPair (x y : Group) (e : SegEntry) (c : Settings) (i j : Group) :
    (putPair x y e c).segEntry i j = if (i = x ∧ j = y) ∨ (i = y ∧ j = x) then e else c.segEntry i j := by
  unfold putPair Settings.segEntry
  simp only [getElem_set_fin]
  by_cases hyi : y = i
  · by_cases hxy : x = y <;> simp only [hyi, hxy, if_true, if_false, getElem_set_fin] <;> grind
  · by_cases hxi : x = i <;> simp only [hyi, hxi, if_true, if_false, getElem_set_fin] <;> grind

theorem settingsLegal_putPair {x y : Group} {e : SegEntry} {c : Settings} (h : SettingsLegal c) :
    SettingsLegal (putPair x y e c) := by
  obtain ⟨hlen, hcodes, hlegal, hsym, hrest⟩ := h
  refine ⟨hlen, hcodes, hlegal, fun i j => ?_, hrest⟩
  rw [segEntry_putPair, segEntry_putPair, hsym i j]
  exact if_congr (by rw [or_comm, and_comm, and_comm (a := i = x)]) rfl rfl

theorem Kept.stSetSegregation (a : Parsed PairArgs) (s : State) : Kept s (stSetSegregation a s).1 := by
  rcases a with _ | ⟨_ | x, _ | y, _ | e⟩ <;> try exact .refl s
  unfold Machine.stSetSegregation
  dsimp only
  split
  · exact .refl s
  · dsimp only
    exact .modStaging settingsLegal_putPair

theorem within_iff (lo hi : Nat) (o : Option Nat) : within lo hi o = true ↔ ∀ n ∈ o, lo ≤ n ∧ n ≤ hi := by
  simp [within, Option.all_eq_true]

/-- A field of a SET: the value given, in range, or the one that stood. -/
theorem getD_within {lo hi d : Nat} {o : Option Nat} (h : within lo hi o = true) (hd : lo ≤ d ∧ d ≤ hi) :
    lo ≤ o.getD d ∧ o.getD d ≤ hi := by
  rcases o with _ | n
  · exact hd
  · exact (within_iff lo hi _).1 h n rfl

/-- A field of a SET that is clamped (R6). -/
theorem getD_clamp {lo hi d : Nat} (o : Option Nat) (hlo : lo ≤ hi) (hd : lo ≤ d ∧ d ≤ hi) :
    lo ≤ (o.map (clamp lo hi)).getD d ∧ (o.map (clamp lo hi)).getD d ≤ hi := by
  rcases o with _ | n
  · exact hd
  · exact clamp_mem lo hi n hlo

theorem Kept.stSetBay (a : Parsed BayArgs) (s : State) : Kept s (stSetBay a s).1 := by
  rcases a with _ | a
  · exact .refl s
  unfold Machine.stSetBay
  dsimp only
  split
  · split
    · exact .refl s
    · rename_i hrange
      split
      · exact .refl s
      · dsimp only
        simp only [Bool.or_eq_true, not_or, Bool.not_eq_true', Bool.not_eq_false] at hrange
        refine .modStaging fun ⟨hlen, hcodes, hlegal, hsym, hbays, hrest⟩ =>
          ⟨hlen, hcodes, hlegal, hsym, fun b => ?_, hrest⟩
        simp only [Fin.getElem_fin, Vector.getElem_set]
        split
        · obtain ⟨hf, hs, hp⟩ := hbays ⟨a.n - 1, by omega⟩
          exact ⟨getD_within hrange.2 hf, getD_clamp _ (by decide) hs, getD_clamp _ (by decide) hp⟩
        · exact hbays b
  · exact .refl s

theorem Kept.stSetHours (a : Parsed HoursArgs) (s : State) : Kept s (stSetHours a s).1 := by
  rcases a with _ | a
  · exact .refl s
  unfold Machine.stSetHours
  dsimp only
  split
  · exact .refl s
  · rename_i hrange
    split
    · exact .refl s
    · dsimp only
      simp only [hoursInRange, Bool.not_eq_true', Bool.not_eq_false, Bool.and_eq_true] at hrange
      obtain ⟨⟨⟨⟨⟨r1, r2⟩, r3⟩, r4⟩, r5⟩, r6⟩ := hrange
      refine .modStaging fun ⟨hlen, hcodes, hlegal, hsym, hbays, ⟨h1, h2, h3, h4, h5, h6, h7⟩, hrest⟩ =>
        ⟨hlen, hcodes, hlegal, hsym, hbays, ⟨getD_within r1 h1, getD_within r2 h2, getD_within r3 h3, getD_within r4 h4,
          getD_within r5 h5, getD_within r6 h6, (getD_clamp a.margin (by decide) ⟨Nat.zero_le _, h7⟩).2⟩, hrest⟩

theorem Kept.stSetTolerance (a : Parsed ToleranceArgs) (s : State) : Kept s (stSetTolerance a s).1 := by
  rcases a with _ | a
  · exact .refl s
  unfold Machine.stSetTolerance
  dsimp only
  split
  · exact .refl s
  · rename_i hrange
    split
    · exact .refl s
    · dsimp only
      simp only [Bool.or_eq_true, not_or, Bool.not_eq_true', Bool.not_eq_false] at hrange
      exact .modStaging fun ⟨hlen, hcodes, hlegal, hsym, hbays, hhours, ⟨ha, hp⟩, hrest⟩ =>
        ⟨hlen, hcodes, hlegal, hsym, hbays, hhours,
          ⟨getD_within hrange.1 ha, (getD_within hrange.2 ⟨Nat.zero_le _, hp⟩).2⟩, hrest⟩

theorem Kept.stSetCalendar (a : Parsed Nat) (s : State) : Kept s (stSetCalendar a s).1 := by
  rcases a with _ | d
  · exact .refl s
  unfold Machine.stSetCalendar
  dsimp only
  split
  · exact .refl s
  · rename_i hd
    split
    · exact .refl s
    · dsimp only
      exact .modStaging fun ⟨hlen, hcodes, hlegal, hsym, hbays, hhours, htol, _, hperiod⟩ =>
        ⟨hlen, hcodes, hlegal, hsym, hbays, hhours, htol, Nat.le_of_not_lt hd, hperiod⟩

theorem Kept.stSetSampler (a : Parsed Nat) (s : State) : Kept s (stSetSampler a s).1 := by
  rcases a with _ | m
  · exact .refl s
  unfold Machine.stSetSampler
  dsimp only
  split
  · exact .refl s
  · rename_i hm
    split
    · exact .refl s
    · dsimp only
      exact .modStaging fun ⟨hlen, hcodes, hlegal, hsym, hbays, hhours, htol, hweek, _⟩ =>
        ⟨hlen, hcodes, hlegal, hsym, hbays, hhours, htol, hweek, by dsimp only; omega⟩

theorem Kept.stSetLink (a : Parsed (Option AttnMode)) (s : State) : Kept s (stSetLink a s).1 := by
  rcases a with _ | _ | m
  · exact .refl s
  · exact .refl s
  unfold Machine.stSetLink
  dsimp only
  split
  · exact .refl s
  · dsimp only
    exact .modStaging id

theorem Kept.stApply (f : NoFields) (s : State) : Kept s (stApply f s).1 := by
  rcases f with _ | f
  · exact .refl s
  unfold Machine.stApply
  dsimp only
  repeat' split
  any_goals exact .refl s
  dsimp only
  exact .modSt id

theorem Kept.periodCheck (s : State) : Kept s (periodCheck s) := by
  unfold Machine.periodCheck
  exact .ite (fun _ => .calDue s) fun _ => .refl s

/-- The staging copy, legal, becomes the other two (R200). -/
theorem Kept.commit (s : State) : Kept s (s.modSt St.commit) := .modSt fun ⟨_, _, h⟩ => ⟨h, h, h⟩

theorem Kept.endPulse (s : State) : Kept s (s.modDv fun d => { d with attnPulse := false }) := .modDv ⟨rfl, id, id⟩

theorem Kept.stOutbox (r : Option LogRec) (s : State) : Kept s (s.modSt fun t => { t with outbox := r }) := .modSt id

theorem Kept.commitApply (s : State) : Kept s (commitApply s) := by
  unfold Machine.commitApply
  dsimp only
  have hattn : Kept s (if ((s.modSt St.commit).st.applied.attn != s.st.applied.attn) = true then
      (s.modSt St.commit).modDv fun d => { d with attnPulse := false } else s.modSt St.commit) := by
    split
    · exact (Kept.commit s).trans (.endPulse _)
    · exact .commit s
  have hbays := (hattn.trans (.setComponents (g := fun d => { d with settings := false }) _ fun _ => rfl)).trans
    (.forBays (f := Machine.bayApply) (fun b t => .bayApply b t) _)
  have hpost := fun r => (hbays.trans (.stOutbox (some r) _)).trans (.postFrom .ST _)
  split
  · exact ((hpost _).trans (.raise (by simp [noticeKinds]) _ _)).trans (.periodCheck _)
  · exact (hpost _).trans (.raise (by simp [noticeKinds]) _ _)

theorem Kept.applyDone (s : State) : Kept s (applyDone s) := by
  unfold Machine.applyDone
  split
  · split
    · exact .trans (.modSt (f := fun t => { t with apply := none }) id) (.raise (by simp [noticeKinds]) _ _)
    · exact .commitApply s
  · exact .refl s

theorem Kept.stOutcome (r : LogRec) (seq : Option Nat) (s : State) : Kept s (stOutcome r seq s) :=
  .trans (.stOutbox none s) (.raise (by simp [noticeKinds]) _ _)

end Sys2Proof.Proofs.Keeping

/-! PROOFS. What the requests of the log keep, and every request with them. -/

namespace Sys2Proof.Proofs.Keeping

open Sys2Proof Sys2Proof.Machine Sys2Proof.Laws.Basic Sys2Proof.Laws.Requests Sys2Proof.Laws.Log Sys2Proof.Proofs.Steps

/-! ## The store (R169 to R171) -/

theorem toList_eq_map_allSegs (v : Vector Segment 32) : v.toList = allSegs.map fun i => v[i] := by
  refine List.ext_getElem (by simp [allSegs]) fun i h1 h2 => ?_
  simp [allSegs]

/-- The records of the store, segment by segment. -/
theorem stored_eq (d : Dl) : d.stored = allSegs.flatMap fun i => d.segs[i].records := by
  unfold Dl.stored
  rw [toList_eq_map_allSegs, List.flatMap_map]

theorem mem_stored {d : Dl} {r : StoredRec} : r ∈ d.stored ↔ ∃ i : SegNo, r ∈ d.segs[i].records := by
  simp [stored_eq, allSegs]

theorem stored_congr {d e : Dl} (h : ∀ i : SegNo, e.segs[i].records = d.segs[i].records) : e.stored = d.stored := by
  rw [stored_eq, stored_eq]
  exact congrArg (allSegs.flatMap ·) (funext h)

theorem mem_segs_toList {d : Dl} {g : Segment} : g ∈ d.segs.toList ↔ ∃ i : SegNo, d.segs[i] = g := by
  rw [toList_eq_map_allSegs]
  simp [allSegs]

/-- An update of the log that changes of its segments neither the state nor the records, and of the rest nothing that
numbers it. -/
theorem LogKept.of_marks {s t : State} (hqueue : t.dl.queue = s.dl.queue) (hwriting : t.dl.writing = s.dl.writing)
    (hnext : t.dl.nextSeq = s.dl.nextSeq) (hscan : t.dl.scan = s.dl.scan) (hhigh : t.dl.highMark = s.dl.highMark)
    (hreclaim : t.dl.reclaim = s.dl.reclaim)
    (hsegs : ∀ i : SegNo, t.dl.segs[i].state = s.dl.segs[i].state ∧ t.dl.segs[i].records = s.dl.segs[i].records) :
    LogKept s t := by
  have hstored := stored_congr fun i => (hsegs i).2
  have hsources : t.dl.sources = s.dl.sources := by unfold Dl.sources; rw [hqueue, hwriting]
  have hstate := fun i => (hsegs i).1
  have hrecs := fun i => (hsegs i).2
  refine ⟨hwriting, hnext, hscan, hstored, Nat.le_of_eq hhigh.symm, ?_⟩
  unfold LogNumbered
  simp only [hsources, hstored, hwriting, hnext, hscan, hhigh, hreclaim, hstate, hrecs]
  exact id

/-! ## The requests of the log (R180 to R184, R190, R191) -/

theorem Kept.dlStatus (f : NoFields) (s : State) : Kept s (dlStatus f s).1 := by
  cases f <;> exact .refl s

theorem Kept.dlStatusSeg (a : Parsed Nat) (s : State) : Kept s (dlStatusSeg a s).1 := by
  unfold Machine.dlStatusSeg
  repeat' split
  all_goals exact .refl s

theorem Kept.addAccess (s : State) : Kept s (addAccess s) :=
  .modDl id (.of_marks rfl rfl rfl rfl rfl rfl fun _ => ⟨rfl, rfl⟩)

theorem Kept.setCursor (seq pos : Nat) (s : State) : Kept s (setCursor seq pos s) :=
  .modDl id (.of_marks rfl rfl rfl rfl rfl rfl fun _ => ⟨rfl, rfl⟩)

theorem Kept.dlOpenSeg (a : Parsed Nat) (s : State) : Kept s (dlOpenSeg a s).1 := by
  unfold Machine.dlOpenSeg
  dsimp only
  repeat' split
  any_goals exact .refl s
  exact .trans (.setCursor _ _ s) (.addAccess _)

theorem Kept.dlOpenSeq (a : Parsed Nat) (s : State) : Kept s (dlOpenSeq a s).1 := by
  unfold Machine.dlOpenSeq
  repeat' split
  any_goals exact .refl s
  all_goals exact .trans (.setCursor _ _ s) (.addAccess _)

theorem Kept.readRecord (i : SegNo) (r : StoredRec) (pos : Nat) (gap : List Fld) (s : State) :
    Kept s (readRecord i r pos gap s).1 := by
  unfold Machine.readRecord
  repeat' split
  all_goals exact .trans (.setCursor _ _ s) (.addAccess _)

theorem Kept.dlRead (f : NoFields) (s : State) : Kept s (dlRead f s).1 := by
  unfold Machine.dlRead
  repeat' split
  any_goals exact .refl s
  · exact .readRecord ..
  · exact .readRecord ..
  · exact .addAccess s

theorem Kept.dlExported (a : Parsed Nat) (s : State) : Kept s (dlExported a s).1 := by
  unfold Machine.dlExported
  dsimp only
  repeat' split
  any_goals exact .refl s
  dsimp only
  refine .modDl id (.of_marks rfl rfl rfl rfl rfl rfl fun j => ?_)
  rw [State.dl_modDl, segs_modSeg]
  split
  · rename_i h; subst h; exact ⟨rfl, rfl⟩
  · exact ⟨rfl, rfl⟩

theorem Kept.tellSpace (s : State) : Kept s (tellSpace s) := .raise (by simp [noticeKinds]) _ s

theorem Kept.tellSpaceIfPending (s : State) : Kept s (tellSpaceIfPending s) := .raiseIf (by simp [noticeKinds]) _ _ s

theorem Kept.tellReclaim (result : String) (i : SegNo) (s : State) : Kept s (tellReclaim result i s) :=
  .raise (by simp [noticeKinds]) _ s

theorem Kept.reportLog (s : State) : Kept s (reportLog s) := .setComponents s fun _ => rfl

/-- Every number of the store is at most the last one taken: one being written has the latest (R173). -/
theorem le_lastTaken {s : State} (h : LogNumbered s) {r : StoredRec} (hr : r ∈ s.dl.stored) : r.seq ≤ s.dl.lastTaken := by
  obtain ⟨-, -, hbelow, -, hwriting, -⟩ := h
  have hlt := hbelow r hr
  unfold Dl.lastTaken
  rcases hw : s.dl.writing with _ | w
  · simp only [Option.toList_none, List.length_nil]; omega
  · obtain ⟨-, hwseq, -, -, hall⟩ := hwriting w hw
    have := hall r hr
    simp only [Option.toList_some, List.length_cons, List.length_nil]; omega

/-- What RECLAIM finds when it is not refused (R184). -/
theorem reclaimRefusal_none {s : State} {i : SegNo} (h : reclaimRefusal s i = none) :
    (s.dl.segs[i].state = .CLOSED ∨ s.dl.segs[i].state = .DAMAGED) ∧ ∀ j : SegNo, s.dl.segs[j].state ≠ .RECLAIMING := by
  unfold reclaimRefusal at h
  dsimp only at h
  split at h
  · exact nomatch h
  · split at h
    · exact nomatch h
    · rename_i hstate
      split at h
      · exact nomatch h
      · split at h
        · exact nomatch h
        · rename_i hnone
          refine ⟨by simpa only [not_and_or, not_not] using hstate, fun j hj => hnone ?_⟩
          exact List.any_eq_true.2 ⟨_, mem_segs_toList.2 ⟨j, rfl⟩, by simpa using hj⟩

/-- A taken RECLAIM raises the high mark over the segment's records (R184). -/
theorem LogKept.beginReclaim {s : State} {i : SegNo}
    (hi : s.dl.segs[i].state = .CLOSED ∨ s.dl.segs[i].state = .DAMAGED)
    (hnone : ∀ j : SegNo, s.dl.segs[j].state ≠ .RECLAIMING) :
    LogKept s (s.modDl fun d =>
      { modSeg i (fun g => { g with state := .RECLAIMING }) d with
        highMark := max d.highMark d.lastTaken, reclaim := some ⟨i, Config.eraseWork⟩ }) := by
  have hseg (j : SegNo) : (modSeg i (fun g => { g with state := .RECLAIMING }) s.dl).segs[j] =
      if i = j then { s.dl.segs[i] with state := .RECLAIMING } else s.dl.segs[j] := segs_modSeg ..
  have hstored : (modSeg i (fun g => { g with state := .RECLAIMING }) s.dl).stored = s.dl.stored := by
    refine stored_congr fun j => ?_
    rw [hseg]
    split
    · rename_i h; rw [h]
    · rfl
  refine ⟨rfl, rfl, rfl, hstored, Nat.le_max_left _ _, fun h => ?_⟩
  have hle := fun r => le_lastTaken (r := r) h
  obtain ⟨hsources, hnodup, hbelow, hhigh, hwriting, hactive, -, herased, -, -⟩ := h
  have hlast := lastTaken_lt s.dl (Nat.lt_of_le_of_lt (Nat.zero_le _) hhigh)
  refine ⟨hsources, hstored.symm ▸ hnodup, fun r hr => hbelow r (hstored ▸ hr), Nat.max_lt.2 ⟨hhigh, hlast⟩, ?_, ?_, ?_, ?_,
    ?_, ?_⟩
  · intro w hw
    obtain ⟨h1, h2, h3, h4, h5⟩ := hwriting w hw
    have hne : i ≠ w.seg := by rintro rfl; rw [h3] at hi; exact hi.elim nofun nofun
    have hsame : (modSeg i (fun g => { g with state := .RECLAIMING }) s.dl).segs[w.seg] = s.dl.segs[w.seg] := by
      rw [hseg, if_neg hne]
    exact ⟨h1, h2, (congrArg Segment.state hsame).trans h3, fun ho => (congrArg Segment.records hsame).trans (h4 ho),
      fun r hr => h5 r (hstored ▸ hr)⟩
  · intro j k hj hk
    rw [State.dl_modDl, hseg] at hj hk
    split at hj
    · simp at hj
    · split at hk
      · simp at hk
      · exact hactive j k hj hk
  · intro j k hj hk
    rw [State.dl_modDl, hseg] at hj hk
    split at hj
    · split at hk
      · exact ‹i = j›.symm.trans ‹i = k›
      · exact absurd hk (hnone k)
    · exact absurd hj (hnone j)
  · intro j hj
    rw [State.dl_modDl, hseg] at hj ⊢
    split at hj
    · simp at hj
    · rw [if_neg ‹_›]; exact herased j hj
  · intro j hj r hr
    exact Nat.le_trans (hle r (hstored ▸ mem_stored.2 ⟨j, hr⟩)) (Nat.le_max_right _ _)
  · intro r hr
    cases hr
    rw [State.dl_modDl, hseg, if_pos rfl]

theorem Kept.beginReclaim {s : State} {i : SegNo} (h : reclaimRefusal s i = none) : Kept s (beginReclaim i s) := by
  obtain ⟨hi, hnone⟩ := reclaimRefusal_none h
  exact .trans (.trans (.modDl id (.beginReclaim hi hnone)) (.reportLog _)) (.tellSpaceIfPending _)

theorem Kept.dlReclaim (a : Parsed Nat) (s : State) : Kept s (dlReclaim a s).1 := by
  unfold Machine.dlReclaim
  repeat' split
  any_goals exact .refl s
  exact .beginReclaim ‹_›

theorem Kept.tsStatus (f : NoFields) (s : State) : Kept s (tsStatus f s).1 := by
  cases f <;> exact .refl s

theorem Kept.tsCalibrate (f : NoFields) (s : State) : Kept s (tsCalibrate f s).1 := by
  rcases f with _ | f
  · exact .refl s
  unfold Machine.tsCalibrate
  dsimp only
  split
  · exact .refl s
  · exact .calDue s

/-! ## Every request -/

/-- What a request does keeps the laws of every unit, the link, the valves and the numbers of the log. -/
theorem Kept.act {c : Instr} {r : Request} (he : effect c = some r) (s : State) : Kept s (r.act s).1 := by
  cases c <;> cases he
  case unknownRequest h u => exact .refuseRouting u s
  case dvStatus h f => exact .dvStatus f s
  case dvClear h f => exact .dvClear f s
  case dvMode h a => exact .dvMode a s
  case dvNext h f => exact .dvNext f s
  case dvReset h f => exact .dvReset f s
  case ckStatus h f => exact .ckStatus f s
  case ckSet h a => exact .ckSet a s
  case ckDstrule h a => exact .ckDstrule a s
  case ckDstruleOff h f => exact .ckDstruleOff f s
  case ckRules h f => exact .ckRules f s
  case ckDayclose h a => exact .ckDayclose a s
  case ckClearstamp h f => exact .ckClearstamp f s
  case dtStatus h f => exact .dtStatus f s
  case dtEnrol h a => exact .dtEnrol a s
  case dtRemove h a => exact .dtRemove a s
  case dtImport h a => exact .dtImport a s
  case dtArrive h a => exact .dtArrive a s
  case dtDepart h a => exact .dtDepart a s
  case dtClosetrip h a => exact .dtClosetrip a s
  case dtQuery h a => exact .dtQuery a s
  case dtQueryPlan h a => exact .dtQueryPlan a s
  case dtList h a => exact .dtList a s
  case cpStatus h f => exact .cpStatus f s
  case cpOpen h a => exact .cpOpen a s
  case cpLine h a => exact .cpLine a s
  case cpConfirm h f => exact .cpConfirm f s
  case cpAbort h f => exact .cpAbort f s
  case cpVoid h a => exact .cpVoid a s
  case cpShow h a => exact .cpShow a s
  case cpShowLine h a => exact .cpShowLine a s
  case cpList h a => exact .cpList a s
  case cpAmendQty h a => exact .cpAmendQty a s
  case cpAmendProd h a => exact .cpAmendProd a s
  case cpAmendRemove h a => exact .cpAmendRemove a s
  case cpWithdraw h a => exact .cpWithdraw a s
  case bStatus h b f => exact .bStatus b f s
  case bStatusLine h b a => exact .bStatusLine b a s
  case bAssign h b a => exact .bAssign b a s
  case bStart h b a => exact .bStart b a s
  case bStop h b f => exact .bStop b f s
  case bResume h b f => exact .bResume b f s
  case bAckstray h b f => exact .bAckstray b f s
  case bTemp h b a => exact .bTemp b a s
  case bDriver h b a => exact .bDriver b a s
  case bAckrestart h b f => exact .bAckrestart b f s
  case bDispatch h b f => exact .bDispatch b f s
  case bCancel h b f => exact .bCancel b f s
  case bClear h b f => exact .bClear b f s
  case bReset h b f => exact .bReset b f s
  case tsStatus h f => exact .tsStatus f s
  case tsCalibrate h f => exact .tsCalibrate f s
  case dlStatus h f => exact .dlStatus f s
  case dlStatusSeg h a => exact .dlStatusSeg a s
  case dlOpenSeg h a => exact .dlOpenSeg a s
  case dlOpenSeq h a => exact .dlOpenSeq a s
  case dlRead h f => exact .dlRead f s
  case dlExported h a => exact .dlExported a s
  case dlReclaim h a => exact .dlReclaim a s
  case stStatus h f => exact .stStatus f s
  case stShow h a => exact .stShow a s
  case stDiscard h f => exact .stDiscard f s
  case stSetProduct h a => exact .stSetProduct a s
  case stSetProductDelete h a => exact .stSetProductDelete a s
  case stSetSegregation h a => exact .stSetSegregation a s
  case stSetBay h a => exact .stSetBay a s
  case stSetHours h a => exact .stSetHours a s
  case stSetTolerance h a => exact .stSetTolerance a s
  case stSetCalendar h a => exact .stSetCalendar a s
  case stSetSampler h a => exact .stSetSampler a s
  case stSetLink h a => exact .stSetLink a s
  case stApply h f => exact .stApply f s

end Sys2Proof.Proofs.Keeping

/-! PROOFS. What the events of the log, the starts and the passing of time keep: the laws of every unit are kept by every
step. -/

namespace Sys2Proof.Proofs.Keeping

open Sys2Proof Sys2Proof.Machine Sys2Proof.Laws.Basic Sys2Proof.Laws.Requests Sys2Proof.Laws.Log Sys2Proof.Proofs.Steps

/-! ## The events of the log (R174 to R189) -/

theorem Kept.reportRefused (src : LogSource) (r : LogRec) (s : State) : Kept s (reportRefused src r s) := by
  cases src
  case B b => exact .bayRefused b r s
  case DT => exact .dtRefused s
  case CK => exact .trans (t := s.modCk fun c => { c with outbox := c.outbox.drop 1 }) (.modCk id id) (.postFrom _ _)
  case ST => exact .stOutcome r none s
  case DV => exact .refl s

theorem Kept.reportWritten (src : LogSource) (r : LogRec) (seq : Nat) (s : State) : Kept s (reportWritten src r seq s) := by
  cases src
  case B b => exact .bayWritten b r s
  case DT => exact .dtRecordLeaves s
  case CK => exact .trans (t := s.modCk fun c => { c with outbox := c.outbox.drop 1 }) (.modCk id id) (.postFrom _ _)
  case ST => exact .stOutcome r (some seq) s
  case DV => exact .refl s

theorem ActKept.beginWrite (a : Append) (i : SegNo) (opened : Bool) (s : State) : ActKept s (beginWrite a i opened s) :=
  .modDl id

/-- The log with a new ACTIVE segment (R175, step 2). -/
def opening (i : SegNo) (opened : Option Nat) (d : Dl) : Dl :=
  let d1 := match d.active with
    | some j => modSeg j (closeSeg .FILLED) d
    | none => d
  { modSeg i (fun _ => { Segment.erased with state := .ACTIVE, opened := opened }) d1 with lastOpened := i }

/-- Opening a segment changes the segments, and which was opened last. -/
theorem opening_frame (i : SegNo) (o : Option Nat) (d : Dl) :
    opening i o d = { d with segs := (opening i o d).segs, lastOpened := i } := by
  unfold opening
  dsimp only
  split <;> rfl

/-- What is told of an opening (R179). -/
theorem openSegment_eq (i : SegNo) (s : State) : ∃ c fs, openSegment i s =
    raiseIf c .DL .SPACE fs (s.modDl (opening i (if s.ck.isSet then some s.ck.count else none))) := ⟨_, _, rfl⟩

theorem ActKept.openSegment (i : SegNo) (s : State) : ActKept s (openSegment i s) := by
  obtain ⟨c, fs, h⟩ := openSegment_eq i s
  rw [h]
  exact .trans (.modDl (by rw [opening_frame]; exact id)) (Kept.raiseIf (by simp [noticeKinds]) _ _ _).toActKept

theorem ActKept.refuseAppend (a : Append) (s : State) : ActKept s (refuseAppend a s) := by
  have hqueue : ActKept s (s.modDl fun d => { d with queue := d.queue.drop 1 }) := .modDl id
  have hsource := hqueue.trans (Kept.reportRefused a.source a.record _).toActKept
  have htold := (hsource.trans (.modDl (f := fun d => { d with refused := satAdd Config.maxCount16 d.refused 1 })
    fun h => ⟨satAdd_le _ _ _, h.2⟩)).trans (Kept.tellSpace _).toActKept
  unfold Machine.refuseAppend
  dsimp only
  split
  · exact htold.trans (Kept.raise (by simp [noticeKinds]) _ _).toActKept
  · exact htold

theorem ActKept.serveAppend (s : State) : ActKept s (serveAppend s) := by
  unfold Machine.serveAppend
  split
  · exact .refl s
  · split
    · exact .refl s
    · split
      · exact .beginWrite _ _ _ s
      · exact .trans (.openSegment _ s) (.beginWrite _ _ _ _)
      · exact .refuseAppend _ s

/-- The day counts of a written record stay at their ceilings (R178). -/
theorem logCounts_countRecord {b : Body} {d : Dl} (h : LogCounts d) :
    LogCounts { d with day := countRecord b d.day } := by
  obtain ⟨hr, hd, hc, ht⟩ := h
  cases b <;> first
    | exact ⟨hr, satAdd_le _ _ _, hc, ht⟩
    | exact ⟨hr, hd, satAdd_le _ _ _, ht⟩
    | exact ⟨hr, hd, hc, satAdd_le _ _ _⟩
    | exact ⟨hr, hd, hc, ht⟩

theorem ActKept.dayClosed (w : Writing) (n : DayCounts) (s : State) : ActKept s (dayClosed w n s) := by
  unfold Machine.dayClosed
  exact .trans (.modDl fun h => ⟨h.1, Nat.zero_le _, Nat.zero_le _, Nat.zero_le _⟩)
    (Kept.raise (by simp [noticeKinds]) _ _).toActKept

theorem ActKept.writeDone (s : State) : ActKept s (writeDone s) := by
  unfold Machine.writeDone
  split
  · exact .refl s
  · rename_i w _
    have hplaced : ActKept s (s.modDl fun d =>
        let e := placeRecord w (some (recordCheck w.seq w.record)) d
        { e with day := countRecord w.record.body e.day }) :=
      .modDl fun h => logCounts_countRecord (d := placeRecord w (some (recordCheck w.seq w.record)) s.dl) h
    have hsource := hplaced.trans (Kept.reportWritten w.source w.record w.seq _).toActKept
    dsimp only
    split
    · exact hsource.trans (.dayClosed _ _ _)
    · exact hsource

/-- The counts found from the store are counts of the day (R178, R189). -/
theorem logCounts_foldl (rs : List StoredRec) {d : Dl} (h : LogCounts d) :
    LogCounts { d with day := rs.foldl (fun n r => countRecord r.record.body n) d.day } := by
  induction rs generalizing d with
  | nil => exact h
  | cons r rs ih => exact ih (d := { d with day := countRecord r.record.body d.day }) (logCounts_countRecord h)

theorem logCounts_scanned {d : Dl} (h : LogCounts d) : LogCounts { scanned d with scan := false } := by
  have hcounts (e : Dl) : LogCounts { d with day := storeCounts e } :=
    logCounts_foldl _ (d := { d with day := DayCounts.zero }) ⟨h.1, Nat.zero_le _, Nat.zero_le _, Nat.zero_le _⟩
  unfold scanned
  dsimp only
  split
  · exact ⟨Nat.zero_le _, (hcounts _).2⟩
  · exact ⟨Nat.zero_le _, h.2⟩

theorem ActKept.scanDone (s : State) : ActKept s (scanDone s) := by
  unfold Machine.scanDone
  split
  · have hscan : ActKept s (Machine.reportLog (s.modDl fun d => { scanned d with scan := false })) :=
      .trans (.modDl (f := fun d => { scanned d with scan := false }) logCounts_scanned) (Kept.reportLog _).toActKept
    dsimp only
    have hcut (o : Option SegNo) : ActKept s (match o with
        | some i => Machine.tellReclaim "INTERRUPTED" i (Machine.reportLog (s.modDl fun d => { scanned d with scan := false }))
        | none => Machine.reportLog (s.modDl fun d => { scanned d with scan := false })) := by
      split
      · exact hscan.trans (Kept.tellReclaim _ _ _).toActKept
      · exact hscan
    split
    · exact (hcut _).trans (Kept.tellSpace _).toActKept
    · exact hcut _
  · exact .refl s

theorem ActKept.reclaimDone (s : State) : ActKept s (reclaimDone s) := by
  unfold Machine.reclaimDone
  split
  · exact .refl s
  · split
    · exact .trans (.modDl id) ((Kept.tellReclaim _ _ _).trans (.tellSpaceIfPending _)).toActKept
    · exact .refl s

/-! ## Every event -/

/-- The start rows: the device reset and the RESET line. -/
def startRow : Instr → Bool
  | .deviceReset _ | .resetLine _ => true
  | _ => false

/-- The event rows in which a record is begun or placed, a segment erased, or a scan ends. -/
def logRow : Instr → Bool
  | .appendServe | .appendWriteComplete | .reclaimComplete | .scanEnd => true
  | _ => false

/-- An event that is none of the log's keeps the numbers of the log too. -/
theorem Kept.event {c : Instr} {f : State → State} (hf : poweredAct c = some f) (hlink : linkRow c = false)
    (hstart : startRow c = false) (hlog : logRow c = false) (s : State) : Kept s (f s) := by
  cases c <;> cases hlink <;> cases hstart <;> cases hlog <;> cases hf
  case minuteReached => exact .minuteReached s
  case dstInstant => exact .dstReached s
  case pulseEdge b => exact .pulse b s
  case haltEdge b a => exact .haltChange b a s
  case bondEdge b g => exact .bondChange b g s
  case pauseLimit b => exact .pauseEnds b s
  case settleEnd b => exact .settleEnds b s
  case sampleComplete c1 c2 => exact .sampleDone c1 c2 s
  case calibrationComplete l1 l2 h1 h2 => exact .calibrationDone l1 l2 h1 h2 s
  case calibrationPeriod => exact .calDue s
  case storeAccessEnd => exact .modDl id (.of_marks rfl rfl rfl rfl rfl rfl fun _ => ⟨rfl, rfl⟩)
  case applyComplete => exact .applyDone s

theorem ActKept.event {c : Instr} {f : State → State} (hf : poweredAct c = some f) (hlink : linkRow c = false)
    (hstart : startRow c = false) (s : State) : ActKept s (f s) := by
  by_cases hlog : logRow c = true
  · cases c <;> cases hlog <;> cases hf
    · exact .serveAppend s
    · exact .writeDone s
    · exact .reclaimDone s
    · exact .scanDone s
  · exact (Kept.event hf hlink hstart (by simpa using hlog) s).toActKept

end Sys2Proof.Proofs.Keeping

/-! PROOFS. What the starts and the passing of time keep, and so what every step keeps of the laws of the units. -/

namespace Sys2Proof.Proofs.Keeping

open Sys2Proof Sys2Proof.Machine Sys2Proof.Laws.Basic Sys2Proof.Laws.Requests Sys2Proof.Laws.Log Sys2Proof.Proofs.Steps

/-! ## Updates outside the acts -/

/-- An update of one bay, whatever its valve does. -/
theorem UnitsKept.modBay {b : Bay} {f : BayUnit → BayUnit} {s : State} (h : BayCounts (s.bay b) → BayCounts (f (s.bay b))) :
    UnitsKept s (s.modBay b f) :=
  ⟨rfl, id, id, id, id, id, id, bay_setBay_cases (P := fun c v => BayCounts (s.bay c) → BayCounts v) h fun _ _ => id, id,
    id, id⟩

/-- An update of the link, whatever it does. -/
theorem UnitsKept.modDv (f : Dv → Dv) (s : State) : UnitsKept s (s.modDv f) :=
  ⟨rfl, id, id, id, id, id, id, fun _ => id, id, id, id⟩

theorem UnitsKept.foldl {α : Type} {f : State → α → State} (h : ∀ t a, UnitsKept t (f t a)) (l : List α) (s : State) :
    UnitsKept s (l.foldl f s) := by
  induction l generalizing s with
  | nil => exact .refl s
  | cons a l ih => exact (h s a).trans (ih _)

theorem UnitsKept.forBays {f : Bay → State → State} (h : ∀ b t, UnitsKept t (f b t)) (s : State) :
    UnitsKept s (forBays f s) := .foldl (fun t b => h b t) _ s

/-! ## The starts (R17, R33, R36, R137, R138, R192, R202) -/

/-- The factory defaults are within the ranges of R194 to R196 (R202). -/
theorem settingsLegal_factory : SettingsLegal Settings.factory := by decide

theorem allSettingsLegal_started (good : Bool) {s : State} (h : AllSettingsLegal s) :
    SettingsLegal (s.st.started good).store ∧ SettingsLegal (s.st.started good).applied ∧
      SettingsLegal (s.st.started good).staging := by
  have hcopy : SettingsLegal (if s.st.storeGood && good then s.st.store else Settings.factory) := by
    split
    · exact h.1
    · exact settingsLegal_factory
  exact ⟨h.1, hcopy, hcopy⟩

theorem day_cutAppend (cut : CutPoint) (d : Dl) : (cutAppend cut d).day = d.day := by rw [cutAppend_frame]

theorem day_cutScan (w : List SegNo) (d : Dl) : (cutScan w d).day = d.day := by rw [cutScan_frame]

theorem logCounts_started (cold : Bool) (e : StartEnv) {d : Dl} (h : LogCounts d) : LogCounts (d.started cold e) := by
  refine ⟨Nat.zero_le _, ?_⟩
  show (cutScan e.wrote (cutAppend e.cut d)).day.dispatch ≤ _ ∧ (cutScan e.wrote (cutAppend e.cut d)).day.cancel ≤ _ ∧
    (cutScan e.wrote (cutAppend e.cut d)).day.trip ≤ _
  rw [day_cutScan, day_cutAppend]
  exact h.2

theorem Kept.reportDefaults (s : State) : Kept s (reportDefaults s) := by
  unfold Machine.reportDefaults
  split
  · exact .trans (.setComponents (g := fun d => { d with settings := true }) s fun _ => rfl)
      (.raise (by simp [noticeKinds]) _ _)
  · exact .refl s

/-- What every start sets, before the settings unit reports (R17, R107, R152, R192, R202). -/
def startBase (k : StartKind) (e : StartEnv) (s : State) : State :=
  { s with supply := true, dv := Dv.started k, st := s.st.started e.settingsGood, dl := s.dl.started (k == .COLD) e,
           ts := Ts.reset, cp := { s.cp with staging := none } }

theorem startCommon_eq (k : StartKind) (e : StartEnv) (s : State) : startCommon k e s = reportDefaults (startBase k e s) :=
  rfl

theorem UnitsKept.startBase (k : StartKind) (e : StartEnv) (s : State) : UnitsKept s (startBase k e s) where
  pending := rfl
  matchLegal := id
  count := id
  drivers := id
  tripCounts := id
  docs := id
  docCounts := id
  bayCounts := fun _ => id
  codes := fun _ => (by decide : CalibrationValid Ts.reset)
  logCounts := logCounts_started _ e
  settings := allSettingsLegal_started e.settingsGood

theorem UnitsKept.startCommon (k : StartKind) (e : StartEnv) (s : State) : UnitsKept s (startCommon k e s) :=
  .trans (.startBase k e s) (Kept.reportDefaults _).toUnitsKept

theorem Kept.postAtStart (k : StartKind) (src : LogSource) (s : State) : Kept s (postAtStart k src s) := by
  unfold Machine.postAtStart
  split
  · split
    · exact .refl s
    · rename_i h; exact .postRecord _ (by simpa using h)
  · exact .postFrom _ s

theorem Kept.startPosts (k : StartKind) (e : StartEnv) (s : State) : Kept s (startPosts k e s) :=
  .foldl (fun t src => .postAtStart k src t) _ s

theorem UnitsKept.pump (s : State) : UnitsKept s (pump s) := by
  rcases pump_cases s with h | ⟨_, _, _, _, h⟩ | ⟨_, _, _, _, _, _, _, h⟩ <;> rw [h]
  · exact .refl s
  · exact .modDv _ s
  · exact .modDv _ s

/-- A cold start before the bays and the posts (R36, R64, R107). -/
def coldBase (e : StartEnv) (s : State) : State :=
  let s1 := startCommon .COLD e s
  { s1 with ck := { Ck.reset with count := (Config.coldCount s.fresh).toNat }, fresh := s.fresh + 1, dt := Dt.reset,
            cp := Cp.reset, st := { s1.st with outbox := none }, dl := { s1.dl with day := DayCounts.zero } }

theorem coldStart_eq (e : StartEnv) (s : State) : coldStart e s =
    Machine.pump (startPosts .COLD e (forBays (fun b t => t.modBay b (coldBay (t.entry b).enabled)) (coldBase e s))) := rfl

theorem UnitsKept.coldBase (e : StartEnv) (s : State) : UnitsKept s (coldBase e s) := by
  have h := UnitsKept.startCommon .COLD e s
  exact {
    pending := h.pending
    matchLegal := fun _ => (by decide : MatchLegal Ck.reset)
    count := fun _ => Nat.le_of_lt_succ (Config.coldCount s.fresh).isLt
    drivers := fun _ => (by decide : DriversBounded Dt.reset)
    tripCounts := fun _ => ⟨Nat.zero_le _, Nat.zero_le _⟩
    docs := fun _ => (by decide : DocsBounded Cp.reset)
    docCounts := fun _ _ hx => nomatch hx
    bayCounts := h.bayCounts
    codes := h.codes
    logCounts := fun hl => ⟨(h.logCounts hl).1, Nat.zero_le _, Nat.zero_le _, Nat.zero_le _⟩
    settings := h.settings }

theorem UnitsKept.coldStart (e : StartEnv) (s : State) : UnitsKept s (coldStart e s) := by
  rw [coldStart_eq]
  refine .trans (.trans (.trans (.coldBase e s) (.forBays (fun b t => .modBay fun _ => ?_) _))
    (Kept.startPosts _ e _).toUnitsKept) (.pump _)
  exact ⟨Nat.zero_le _, Nat.zero_le _, fun _ hl => nomatch hl⟩

theorem bayCounts_endWithout {s : State} {b : Bay} {u : BayUnit} (h : BayCounts u) : BayCounts (u.endWithout s b) := by
  unfold BayUnit.endWithout
  split
  · exact h
  · exact bayCounts_modLine (u := u) (f := fun l => reconcileLine false s b { l with pend := 0 })
      (fun _ hl => lineCounts_reconcileLine hl) h

/-- Once a bay has dropped what a start drops of it (`BayUnit.warm`), what it does at the start is an act (R137). -/
theorem Kept.restartBay (b : Bay) (s : State) : Kept (s.modBay b BayUnit.warm) (restartBay b s) := by
  unfold Machine.restartBay
  dsimp only
  split
  · exact .refl _
  · exact .refl _
  any_goals
    split
    · exact .changeBay id
    · exact .trans (.unbindBay b _) (.changeBay bayCounts_empty)
  iterate 3 exact .changeBay fun h => bayCounts_endWithout (u := State.bay _ b) h
  · exact .changeBay fun h => h
  · exact .changeBay fun h => bayCounts_empty h

theorem UnitsKept.restartBay (b : Bay) (s : State) : UnitsKept s (restartBay b s) :=
  .trans (.modBay fun h => ⟨h.1, Nat.zero_le _, h.2.2⟩) (Kept.restartBay b s).toUnitsKept

theorem Kept.closeBay (b : Bay) (s : State) : Kept s (closeBay b s) := by
  unfold Machine.closeBay
  split
  · exact .refl s
  · exact .vacateBay ..
  · exact .changeBay id

theorem UnitsKept.restartBays (s : State) : UnitsKept s (restartBays s) := by
  have hbays := UnitsKept.forBays UnitsKept.restartBay s
  unfold Machine.restartBays
  dsimp only
  split
  · exact hbays.trans (Kept.forBays Kept.closeBay _).toUnitsKept
  · exact hbays

theorem Kept.fireQuiet (date : Nat) (s : State) : Kept s (fireQuiet date s) := .modCk id id

theorem Kept.powerRecord (s : State) : Kept s (powerRecord s) := by
  unfold Machine.powerRecord
  exact .trans (.modCk id id) (.modCk id id)

theorem Kept.lateClose (old : Ck) (s : State) : Kept s (lateClose old s) := by
  unfold Machine.lateClose
  dsimp only
  split
  · split
    · split
      · exact (Kept.fireQuiet _ s).trans (.fireQuiet _ _)
      · exact .fireQuiet _ s
    · split
      · exact .fireQuiet _ s
      · exact .refl s
  · exact .refl s

/-- The DST state follows the count, and the mark of a minute due is dropped (R33). -/
theorem Kept.dstAtRestore (s : State) : Kept s (s.modCk fun c => { c with dst := c.inForce, minuteDue := false }) :=
  .modCk id id

theorem Kept.clockRestore (s : State) : Kept s (clockRestore s) := by
  unfold Machine.clockRestore
  refine .trans (.trans (.trans (.trans (.powerRecord s) (.dstAtRestore _)) (.raiseIf ?_ _ _ _)) (.lateClose _ _))
    (.raise ?_ _ _) <;> simp [noticeKinds]

/-- A start that is not cold, before the clock and the bays (R64). -/
def warmBase (k : StartKind) (e : StartEnv) (s : State) : State := { startCommon k e s with dt := s.dt.warm }

/-- CK at a start that is not cold (R33). -/
def warmClock (fromLoss : Bool) (s : State) : State :=
  if fromLoss then clockRestore s else s.modCk fun c => { c with outbox := [] }

theorem warmStart_eq (k : StartKind) (fromLoss : Bool) (e : StartEnv) (s : State) : warmStart k fromLoss e s =
    Machine.pump (startPosts k e (restartBays (warmClock fromLoss (warmBase k e s)))) := rfl

theorem driversBounded_warm {d : Dt} (h : DriversBounded d) : DriversBounded d.warm := by
  obtain ⟨hlen, hnum, hout⟩ := h
  refine ⟨by simpa [Dt.warm] using hlen, ?_, hout⟩
  simpa [Dt.warm, Function.comp_def] using hnum

theorem UnitsKept.warmBase (k : StartKind) (e : StartEnv) (s : State) : UnitsKept s (warmBase k e s) := by
  have h := UnitsKept.startCommon k e s
  exact {
    pending := h.pending
    matchLegal := h.matchLegal
    count := h.count
    drivers := driversBounded_warm
    tripCounts := fun _ => ⟨Nat.zero_le _, Nat.zero_le _⟩
    docs := h.docs
    docCounts := h.docCounts
    bayCounts := h.bayCounts
    codes := h.codes
    logCounts := h.logCounts
    settings := h.settings }

theorem Kept.warmClock (fromLoss : Bool) (s : State) : Kept s (warmClock fromLoss s) := by
  unfold Keeping.warmClock
  split
  · exact .clockRestore s
  · exact .modCk id id

theorem UnitsKept.warmStart (k : StartKind) (fromLoss : Bool) (e : StartEnv) (s : State) :
    UnitsKept s (warmStart k fromLoss e s) := by
  rw [warmStart_eq]
  exact .trans (.trans (.trans (.trans (.warmBase k e s) (Kept.warmClock _ _).toUnitsKept) (.restartBays _))
    (Kept.startPosts k e _).toUnitsKept) (.pump _)

/-! ## The supply and the passing of time -/

theorem UnitsKept.supplyLost (s : State) : UnitsKept s (supplyLost s) := by
  have hstamp (now : Option Nat) : UnitsKept s
      (s.modCk fun c => { c with latestLoss := now, firstLoss := c.firstLoss.or now, dstAtLoss := c.dst }) :=
    (Kept.modCk id id).toUnitsKept
  have hvalves := fun now => (hstamp now).trans (.forBays (f := fun b u => u.modBay b fun x => { x with release := false })
    (fun b t => .modBay id) _)
  have hoff (t : State) : UnitsKept t { t with supply := false } :=
    ⟨rfl, id, id, id, id, id, id, fun _ => id, id, id, id⟩
  exact ((hvalves _).trans (.modDv _ _)).trans (hoff _)

theorem UnitsKept.tick (s : State) : UnitsKept s (tick s) :=
  (Kept.modCk (s := s) id fun _ => Nat.min_le_left _ _).toUnitsKept

theorem bayCounts_elapse {limit : Nat} {u : BayUnit} (h : BayCounts u) : BayCounts (u.elapse limit) := by
  unfold BayUnit.elapse
  split <;> exact h

theorem logCounts_elapse {d : Dl} (h : LogCounts d) : LogCounts d.elapse := by
  unfold Dl.elapse
  split <;> exact h

theorem UnitsKept.elapse (s : State) : UnitsKept s (elapse s) := by
  unfold Machine.elapse
  split
  · have htimers : UnitsKept s
        { s with ts := s.ts.elapse, dl := s.dl.elapse, st := { s.st with apply := s.st.apply.map (· - 1) } } :=
      ⟨rfl, id, id, id, id, id, id, fun _ => id, id, logCounts_elapse, id⟩
    exact htimers.trans (.forBays (fun b t => .modBay bayCounts_elapse) _)
  · exact .refl s

/-! ## Every row -/

theorem UnitsKept.anySupply {c : Instr} {f : State → State} (hf : anySupplyAct c = some f) (s : State) :
    UnitsKept s (f s) := by
  cases c <;> cases hf
  case coldStart e => exact .coldStart e s
  case warmStart e =>
    refine .trans (t := lossSeen s) ?_ (.warmStart _ _ e _)
    unfold lossSeen
    split
    · exact .supplyLost s
    · exact .refl s
  case mainSupplyLoss =>
    dsimp only
    split
    · exact .supplyLost s
    · exact .refl s
  case clockTick => exact .tick s

theorem UnitsKept.event {c : Instr} {f : State → State} (hf : poweredAct c = some f) (hlink : linkRow c = false)
    (s : State) : UnitsKept s (f s) := by
  by_cases hstart : startRow c = true
  · cases c <;> cases hstart <;> cases hf
    · dsimp only
      split
      · exact .warmStart ..
      · exact .refl s
    · exact .warmStart ..
  · exact (ActKept.event hf hlink (by simpa using hstart) s).toUnitsKept

theorem UnitsKept.unpowered (c : Instr) (s : State) : UnitsKept s (unpoweredAct c s) := by
  unfold unpoweredAct
  split
  · exact (Kept.dstReached s).toUnitsKept
  · exact .modBay id
  · exact .modBay id
  · exact .refl s

/-- Every row keeps the laws of every unit, and the queue of the commands that wait. -/
theorem rowKept_units : RowKept UnitsKept where
  refl := .refl
  trans := .trans
  link := .modDv
  supv := fun _ _ => ⟨rfl, id, id, id, id, id, id, fun _ => id, id, id, id⟩
  act := fun _ _ s he => (Kept.act he s).toUnitsKept
  event := fun _ _ s hf hl => .event hf hl s
  unpowered := .unpowered
  anySupply := fun _ _ s hf => .anySupply hf s
  elapse := .elapse

/-- The laws of every unit but the queue of commands, from one state to the next. -/
structure LawsKept (s t : State) : Prop where
  matchLegal : MatchLegal s.ck → MatchLegal t.ck
  codes : CalibrationValid s.ts → CalibrationValid t.ts
  settings : AllSettingsLegal s → AllSettingsLegal t
  tables : TablesBounded s → TablesBounded t
  counters : CountersInRange s → CountersInRange t

theorem UnitsKept.laws {s t : State} (h : UnitsKept s t) : LawsKept s t where
  matchLegal := h.matchLegal
  codes := h.codes
  settings := h.settings
  tables := by
    rintro ⟨hdocs, hnum, hstack, hdrivers, hnums, hout⟩
    obtain ⟨d1, d2, d3⟩ := h.docs ⟨hdocs, hnum, hstack⟩
    obtain ⟨e1, e2, e3⟩ := h.drivers ⟨hdrivers, hnums, hout⟩
    exact ⟨d1, d2, d3, e1, e2, e3⟩
  counters := by
    rintro ⟨hcount, htrips, hlogfull, hdocs, hbays, hlog⟩
    obtain ⟨t1, t2⟩ := h.tripCounts ⟨htrips, hlogfull⟩
    exact ⟨h.count hcount, t1, t2, h.docCounts hdocs, fun b => h.bayCounts b (hbays b), h.logCounts hlog⟩

/-- Every step keeps the laws of every unit. -/
theorem lawsKept_step {s t : State} (h : step s = .next t) : LawsKept s t := by
  rcases step_cases h with ⟨_, rfl⟩ | ⟨c, rest, _, rfl⟩
  · exact (UnitsKept.elapse s).laws
  · obtain ⟨hmatch, hcodes, hsettings, htables, hcounters⟩ :=
      (rowKept_units.after_rel c { s with pending := rest }).laws
    exact ⟨hmatch, hcodes, hsettings, htables, hcounters⟩

/-- Settles O56: the settings, the calibration codes and the match are laws of their units. -/
theorem settingsAndCalibrationStayLegal : Obligations.SettingsAndCalibrationStayLegal :=
  ⟨fun _ _ h hstep => (lawsKept_step hstep).settings h, fun _ _ h hstep => (lawsKept_step hstep).codes h,
    fun _ _ h hstep => (lawsKept_step hstep).matchLegal h⟩

/-- Settles O57: the places of the tables and the ceilings of the counts are laws of their units. -/
theorem tablesAndCountsStayBounded : Obligations.TablesAndCountsStayBounded :=
  ⟨fun _ _ h hstep => (lawsKept_step hstep).tables h, fun _ _ h hstep => (lawsKept_step hstep).counters h⟩

/-- Settles O2: no row touches the queue of commands. -/
theorem everyCommandAnswersANextState : Obligations.EveryCommandAnswersANextState := fun c s =>
  ⟨after c s, exec_eq_after c s, (rowKept_units.after_rel c s).pending⟩

end Sys2Proof.Proofs.Keeping

/-! PROOFS. The RELEASE outputs over every step (R112). -/

namespace Sys2Proof.Proofs.Valves

open Sys2Proof Sys2Proof.Machine Sys2Proof.Laws.Basic Sys2Proof.Proofs.Steps Sys2Proof.Proofs.Keeping

/-! ## A pass over the bays -/

theorem mem_allBays (c : Bay) : c ∈ allBays := by decide +revert

section
variable {f : Bay → State → State} {c : Bay} (hne : ∀ b t, b ≠ c → (f b t).bay c = t.bay c)
include hne

theorem bay_foldl_of_notMem (l : List Bay) (h : c ∉ l) (s : State) : (l.foldl (fun t b => f b t) s).bay c = s.bay c := by
  induction l generalizing s with
  | nil => rfl
  | cons b l ih => exact (ih (fun hm => h (.tail b hm)) _).trans (hne b s fun e => h (e ▸ .head l))

/-- Where the action at each bay leaves the others, a pass leaves of a bay what its own action leaves; `pre` are the bays
before it. -/
theorem bay_forBays (s : State) : ∃ pre : List Bay, c ∉ pre ∧
    (forBays f s).bay c = (f c (pre.foldl (fun t b => f b t) s)).bay c ∧
    (pre.foldl (fun t b => f b t) s).bay c = s.bay c := by
  obtain ⟨pre, post, hsplit, hpre⟩ := List.eq_append_cons_of_mem (mem_allBays c)
  have hpost : c ∉ post := by
    have hnodup : (pre ++ c :: post).Nodup := hsplit ▸ (by decide : allBays.Nodup)
    exact (List.nodup_cons.1 (List.nodup_append.1 hnodup).2.1).1
  refine ⟨pre, hpre, ?_, bay_foldl_of_notMem hne pre hpre s⟩
  unfold forBays
  rw [hsplit, List.foldl_append, List.foldl_cons]
  exact bay_foldl_of_notMem hne post hpost _

end

/-- What the action at a bay makes of it whatever it was holds of every bay after a pass. -/
theorem forBays_all {f : Bay → State → State} {P : BayUnit → Prop} (hne : ∀ b c t, b ≠ c → (f b t).bay c = t.bay c)
    (hself : ∀ b t, P ((f b t).bay b)) (s : State) (c : Bay) : P ((forBays f s).bay c) := by
  obtain ⟨pre, -, h, -⟩ := bay_forBays (fun b => hne b c) s (f := f) (c := c)
  rw [h]
  exact hself c _

/-- An update of each bay by itself. -/
theorem bay_forBays_modBay {g : State → Bay → BayUnit → BayUnit} {s : State} {c : Bay}
    (hg : ∀ t, t.st = s.st → g t c = g s c) :
    (forBays (fun b t => t.modBay b (g t b)) s).bay c = g s c (s.bay c) := by
  obtain ⟨pre, -, h, hpre⟩ := bay_forBays (f := fun b t => t.modBay b (g t b)) (c := c)
    (fun b t hb => State.bay_modBay_ne _ _ _ _ hb) s
  have hst : (pre.foldl (fun t b => t.modBay b (g t b)) s).st = s.st :=
    List.foldlRecOn (motive := fun t : State => t.st = s.st) pre _ rfl fun t ht b _ => ht
  rw [h, State.bay_modBay_self, hpre, hg _ hst]

/-! ## The starts -/

@[simp] theorem bay_cpUnbind (d : String) (b c : Bay) (s : State) : (cpUnbind d b s).bay c = s.bay c := rfl
@[simp] theorem bay_dtUnbind (v : Nat) (b c : Bay) (s : State) : (dtUnbind v b s).bay c = s.bay c := rfl

@[simp] theorem bay_unbindBay (b c : Bay) (s : State) : (unbindBay b s).bay c = s.bay c := by
  unfold unbindBay
  dsimp only
  repeat' split
  all_goals rfl

theorem bay_restartBay_ne {b c : Bay} (h : b ≠ c) (s : State) : (restartBay b s).bay c = s.bay c := by
  have hwarm := State.bay_modBay_ne s b c BayUnit.warm h
  unfold restartBay
  dsimp only
  repeat' split
  all_goals simp only [bay_changeBay_ne _ _ _ _ _ _ _ h, bay_unbindBay, hwarm]

/-- A restarted bay has its RELEASE driven, whatever it was (R112, R137). -/
theorem driven_restartBay (b : Bay) (s : State) : ((restartBay b s).bay b).release = ((restartBay b s).bay b).mayRelease := by
  have hwarm (h : ((s.modBay b BayUnit.warm).bay b).state ≠ .LOADING) :
      ((s.modBay b BayUnit.warm).bay b).release = ((s.modBay b BayUnit.warm).bay b).mayRelease := by
    rw [mayRelease_of_not_loading h, State.bay_modBay_self]
    rfl
  unfold restartBay
  dsimp only
  split
  · rename_i h; exact hwarm (by rw [h]; nofun)
  · rename_i h; exact hwarm (by rw [h]; nofun)
  all_goals (repeat' split)
  all_goals rw [bay_changeBay_self]; exact drive_release _

theorem valves_restartBays (s : State) : ValvesDriven (restartBays s) := by
  have hall : ValvesDriven (forBays restartBay s) :=
    forBays_all (P := fun u => u.release = u.mayRelease) (fun b c t h => bay_restartBay_ne h t) driven_restartBay s
  unfold restartBays
  dsimp only
  split
  · exact (Kept.forBays Kept.closeBay _).valves hall
  · exact hall

/-- A transmitter that starts leaves the bays and the supply. -/
theorem valves_pump {s : State} (h : ValvesDriven s) : ValvesDriven (pump s) := fun b => by
  rw [bay_pump]; exact h b

@[simp] theorem supply_forBays {f : Bay → State → State} (hf : ∀ b t, (f b t).supply = t.supply) (s : State) :
    (forBays f s).supply = s.supply := Clearstamp.forBays_keeps State.supply hf s

theorem supply_restartBay (b : Bay) (s : State) : (restartBay b s).supply = s.supply := (Kept.restartBay b s).supply

theorem supply_restartBays (s : State) : (restartBays s).supply = s.supply := by
  have hbays := supply_forBays supply_restartBay s
  unfold restartBays
  dsimp only
  split
  · exact (supply_forBays (fun b t => (Kept.closeBay b t).supply) _).trans hbays
  · exact hbays

theorem released_warmStart (k : StartKind) (fromLoss : Bool) (e : StartEnv) (s : State) :
    (warmStart k fromLoss e s).supply = true ∧ ValvesDriven (warmStart k fromLoss e s) := by
  rw [warmStart_eq]
  have hposts := Kept.startPosts k e (restartBays (warmClock fromLoss (warmBase k e s)))
  refine ⟨?_, valves_pump (hposts.valves (valves_restartBays _))⟩
  rw [supply_pump, hposts.supply, supply_restartBays, (Kept.warmClock _ _).supply]
  exact (Kept.reportDefaults (startBase k e s)).supply

theorem released_coldStart (e : StartEnv) (s : State) : (coldStart e s).supply = true ∧ ValvesDriven (coldStart e s) := by
  rw [coldStart_eq]
  have hposts := Kept.startPosts .COLD e (forBays (fun b t => t.modBay b (coldBay (t.entry b).enabled)) (coldBase e s))
  have hcold : ∀ en (u : BayUnit), (coldBay en u).release = (coldBay en u).mayRelease := by
    intro en u
    cases en <;> rfl
  refine ⟨?_, valves_pump (hposts.valves fun c => ?_)⟩
  · rw [supply_pump, hposts.supply, supply_forBays fun b t => State.supply_modBay t b _]
    exact (Kept.reportDefaults (startBase .COLD e s)).supply
  · rw [bay_forBays_modBay (g := fun t b => coldBay (t.entry b).enabled) fun t ht => by simp only [State.entry, ht]]
    exact hcold _ _

/-! ## The supply and the passing of time -/

/-- The valves are driven and the supply stands. -/
def Driven (s : State) : Prop := s.supply = true ∧ ValvesDriven s

theorem Driven.released {s : State} (h : Driven s) : ReleaseDriven s := fun b => by
  rw [h.1, Bool.true_and]; exact h.2 b

theorem driven_of_released {s : State} (hs : s.supply = true) (h : ReleaseDriven s) : Driven s :=
  ⟨hs, fun b => by rw [h b, hs, Bool.true_and]⟩

/-- A loss of the supply closes every valve, and leaves the rest of each bay (R32). -/
theorem bay_supplyLost (s : State) (c : Bay) : (supplyLost s).bay c = { s.bay c with release := false } := by
  unfold supplyLost
  dsimp only
  have hpass (t : State) : (forBays (fun b u => u.modBay b fun x => { x with release := false }) t).bay c =
      { t.bay c with release := false } :=
    bay_forBays_modBay (g := fun _ _ x => { x with release := false }) fun _ _ => rfl
  exact hpass _

theorem released_supplyLost (s : State) : ReleaseDriven (supplyLost s) := fun c => by
  rw [bay_supplyLost]; rfl

theorem mayRelease_elapse (limit : Nat) (u : BayUnit) :
    (u.elapse limit).release = u.release ∧ (u.elapse limit).mayRelease = u.mayRelease := by
  unfold BayUnit.elapse
  split
  · exact ⟨rfl, rfl⟩
  · exact ⟨rfl, rfl⟩
  · exact ⟨rfl, rfl⟩

theorem supply_elapse (s : State) : (elapse s).supply = s.supply := by
  unfold elapse
  split
  · exact supply_forBays (fun b t => State.supply_modBay t b _) _
  · rfl

theorem released_elapse {s : State} (h : ReleaseDriven s) : ReleaseDriven (elapse s) := by
  intro c
  rw [supply_elapse]
  unfold elapse
  split
  · rw [bay_forBays_modBay (g := fun t b => BayUnit.elapse ((t.entry b).pause * 60000))
      fun t ht => by simp only [State.entry, ht]]
    rw [(mayRelease_elapse _ _).1, (mayRelease_elapse _ _).2]
    exact h c
  · exact h c

@[simp] theorem bays_fireDay (date : Nat) (s : State) : (fireDay date s).bays = s.bays := by
  simp [fireDay, ckRecord]

theorem bays_dstReached (s : State) : (dstReached s).bays = s.bays := by
  unfold dstReached
  dsimp only
  repeat' split
  all_goals simp

/-! ## Every row -/

/-- The requests a step takes, and the line it receives or sends, leave the valves driven. -/
theorem linkFree_driven : LinkFree fun s t => Driven s → Driven t where
  refl := fun _ => id
  trans := fun h k => k ∘ h
  link := fun _ _ => id

theorem driven_of_actKept {s t : State} (h : ActKept s t) (hs : Driven s) : Driven t :=
  ⟨h.supply.trans hs.1, h.valves hs.2⟩

theorem driven_act (c : Instr) (r : Request) (s : State) (he : effect c = some r) (hs : Driven s) : Driven (r.act s).1 :=
  driven_of_actKept (Kept.act he s).toActKept hs

theorem driven_event {c : Instr} {f : State → State} (hf : poweredAct c = some f) {s : State} (hs : Driven s) :
    Driven (f s) := by
  by_cases hlink : linkRow c = true
  · cases c <;> cases hlink <;> cases hf
    · exact linkFree_driven.receive_rel driven_act _ _ hs
    · exact linkFree_driven.silence_rel s hs
    · exact linkFree_driven.lineSent_rel driven_act _ hs
    · exact hs
  by_cases hstart : startRow c = true
  · cases c <;> cases hstart <;> cases hf
    · dsimp only
      split
      · exact released_warmStart ..
      · exact hs
    · exact released_warmStart ..
  · exact driven_of_actKept (.event hf (by simpa using hlink) (by simpa using hstart) s) hs

theorem released_unpowered (c : Instr) {s : State} (hs : s.supply = false) (h : ReleaseDriven s) :
    ReleaseDriven (unpoweredAct c s) := by
  have hoff : ∀ b, (s.bay b).release = false := fun b => by rw [h b, hs, Bool.false_and]
  have hbay (b : Bay) (f : BayUnit → BayUnit) (hf : ∀ u, (f u).release = u.release) : ReleaseDriven (s.modBay b f) := by
    intro c
    rw [State.supply_modBay, hs, Bool.false_and]
    by_cases e : b = c
    · subst e; rw [State.bay_modBay_self, hf, hoff]
    · rw [State.bay_modBay_ne _ _ _ _ e, hoff]
  unfold unpoweredAct
  split
  · intro c
    rw [(Kept.dstReached s).supply, hs, Bool.false_and]
    simpa only [State.bay, bays_dstReached] using hoff c
  · exact hbay _ _ fun _ => rfl
  · exact hbay _ _ fun _ => rfl
  · exact h

theorem released_after (c : Instr) {s : State} (h : ReleaseDriven s) : ReleaseDriven (after c s) := by
  rcases row_kinds c with ⟨r, he⟩ | ⟨he, f, hf⟩ | ⟨he, hp, f, hf⟩
  · rw [after_request he]
    split
    · rename_i hs
      have hdriven : Driven { s with supv := r.hdr.supv } := driven_of_released (s := s) hs h
      exact (linkFree_driven.acceptLine_rel driven_act c _ hdriven).released
    · exact h
  · rw [after_event he hf]
    split
    · rename_i hs
      exact (linkFree_driven.pump_rel _ (driven_event hf (driven_of_released hs h))).released
    · rename_i hs
      exact released_unpowered c (by simpa using hs) h
  · rw [after_anySupply he hp hf]
    cases c <;> cases hf
    · exact Driven.released (released_coldStart ..)
    · exact Driven.released (released_warmStart ..)
    · dsimp only
      split
      · exact released_supplyLost s
      · exact h
    · exact h

/-- Settles O55: a change of a bay drives its RELEASE, an act outside LOADING leaves it closed, and every start and loss of
the supply closes it. -/
theorem releaseFollowsItsConditions : Obligations.ReleaseFollowsItsConditions := by
  intro s t h hstep
  rcases step_cases hstep with ⟨_, rfl⟩ | ⟨c, rest, _, rfl⟩
  · exact released_elapse h
  · exact released_after c (s := { s with pending := rest }) h

end Sys2Proof.Proofs.Valves

/-! PROOFS. The queues and the transmitter of the link over every step (R1, R3, R7, R8). -/

namespace Sys2Proof.Proofs.LinkQueues

open Sys2Proof Sys2Proof.Machine Sys2Proof.Laws.Basic Sys2Proof.Proofs.Steps Sys2Proof.Proofs.Keeping
open Sys2Proof.Proofs.Valves

/-! ## The pending notices (R8) -/

/-- Every pair of a unit and a kind that it raises (01_the_message_link.md, "Notices"). -/
def allPairs : List (UnitName × NKind) := allUnits.flatMap fun u => (noticeKinds u).map fun k => (u, k)

theorem mem_allPairs {n : Notice} (h : n.kind ∈ noticeKinds n.unit) : n.pair ∈ allPairs := by
  have hunit : n.unit ∈ allUnits := by
    rcases n with ⟨u, k, fs⟩
    cases u <;> simp [allUnits, mem_allBays]
  exact List.mem_flatMap.2 ⟨n.unit, hunit, List.mem_map_of_mem h⟩

/-- Legal notices are at most as many as the pairs (R8). -/
theorem length_le_of_noticesLegal {ns : List Notice} (h : NoticesLegal ns) : ns.length ≤ 43 := by
  obtain ⟨hnodup, hkinds⟩ := h
  have hsub : ns.map Notice.pair ⊆ allPairs := by
    intro p hp
    obtain ⟨n, hn, rfl⟩ := List.mem_map.1 hp
    exact mem_allPairs (hkinds n hn)
  have hlen := (List.subperm_of_subset hnodup hsub).length_le
  rwa [List.length_map] at hlen

/-! ## The bounds (R1, R2, R3, R7) -/

/-- The bounds of the link, but for the number of notices, which their pairs bound. -/
structure Bounds (d : Dv) : Prop where
  rx : d.rx.length ≤ Config.maxLine
  buffer : d.buffer.length ≤ Config.bufferSize
  replies : d.replies.length ≤ Config.replySize
  notices : NoticesLegal d.notices
  full : d.full ≤ Config.maxCount16
  long : d.long ≤ Config.maxCount16
  check : d.check ≤ Config.maxCount16
  addr : d.addr ≤ Config.maxCount16

theorem bounds_iff (s : State) : LinkBounds s ↔ Bounds s.dv := by
  constructor
  · rintro ⟨h1, h2, h3, h4, h5, -, h7, h8, h9, h10⟩
    exact ⟨h1, h2, h3, ⟨h4, h5⟩, h7, h8, h9, h10⟩
  · rintro ⟨h1, h2, h3, h4, h5, h6, h7, h8⟩
    exact ⟨h1, h2, h3, h4.1, h4.2, length_le_of_noticesLegal h4, h5, h6, h7, h8⟩

/-- What is received, queued and sent is as it was: an act tells and no more. -/
theorem Bounds.told {d e : Dv} (h : Bounds d) (k : LinkTold d e) : Bounds e := by
  obtain ⟨h1, h2, h3, h4, h5, h6, h7, h8⟩ := h
  have hn := k.notices h4
  rw [k.rest]
  exact ⟨h1, h2, h3, hn, h5, h6, h7, h8⟩

theorem Bounds.pump {s : State} (h : Bounds s.dv) : Bounds (pump s).dv := by
  obtain ⟨h1, h2, h3, h4, h5, h6, h7, h8⟩ := h
  rcases pump_cases s with e | ⟨r, rs, _, hr, e⟩ | ⟨n, ns, _, _, _, _, hn, e⟩ <;> rw [e]
  · exact ⟨h1, h2, h3, h4, h5, h6, h7, h8⟩
  · exact ⟨h1, h2, Nat.le_trans (by simp [hr]) h3, h4, h5, h6, h7, h8⟩
  · exact ⟨h1, h2, h3, noticesLegal_tail (hn ▸ h4), h5, h6, h7, h8⟩

/-! ## The transmitter and the waiting lines (R3, R7) -/

/-- The transmitter is free only when it has nothing it may send (R7). -/
abbrev Sending (d : Dv) : Prop :=
  d.wire = none → d.replies = [] ∧ (d.mode = .PUSH → d.resetWait = false → d.notices = [])

/-- A line waits only while DV may not take it (R3). -/
abbrev Waiting (d : Dv) : Prop := d.buffer ≠ [] → Config.replySize ≤ d.replies.length ∨ d.resetWait = true

/-- After its choice the transmitter is free only when it has nothing it may send. -/
theorem sending_pump (s : State) : Sending (pump s).dv := by
  unfold Machine.pump
  split
  · rename_i h; intro hw; rw [h] at hw; exact nomatch hw
  · split
    · exact fun hw => nomatch hw
    · rename_i hr
      split
      · split
        · exact fun hw => nomatch hw
        · rename_i hn; exact fun _ => ⟨hr, fun _ _ => hn⟩
      · rename_i hm; exact fun _ => ⟨hr, fun h1 h2 => absurd ⟨h1, h2⟩ hm⟩

/-- Where a free transmitter has no reply to send, its choice leaves the replies and the lines that wait. -/
theorem waiting_pump {s : State} (hw : s.dv.wire = none → s.dv.replies = []) (h : Waiting s.dv) : Waiting (pump s).dv := by
  rcases pump_cases s with e | ⟨r, rs, hnone, hr, e⟩ | ⟨n, ns, _, _, _, _, _, e⟩
  · rw [e]; exact h
  · rw [hw hnone] at hr; exact nomatch hr
  · rw [e]; exact h

/-- The bounds and the life of the link. -/
structure Sound (d : Dv) : Prop where
  bounds : Bounds d
  sending : Sending d
  waiting : Waiting d

theorem sound_iff (s : State) : (LinkBounds s ∧ LinkLive s) ↔ Sound s.dv := by
  rw [bounds_iff]
  exact ⟨fun ⟨h, h1, h2⟩ => ⟨h, h1, h2⟩, fun ⟨h, h1, h2⟩ => ⟨h, h1, h2⟩⟩

/-- The transmitter's choice after what changes neither the wire, the replies nor the lines that wait. -/
theorem Sound.pump {s : State} (hb : Bounds s.dv) (hw : s.dv.wire = none → s.dv.replies = []) (h : Waiting s.dv) :
    Sound (pump s).dv := ⟨hb.pump, sending_pump s, waiting_pump hw h⟩

theorem Sound.pump_told {d : Dv} {t : State} (h : Sound d) (k : LinkTold d t.dv) : Sound (Machine.pump t).dv := by
  have hbuffer : t.dv.buffer = d.buffer := by rw [k.rest]
  have hreplies : t.dv.replies = d.replies := by rw [k.rest]
  have hwire : t.dv.wire = d.wire := by rw [k.rest]
  refine .pump (h.bounds.told k) (fun hw => ?_) fun hne => ?_
  · rw [hreplies]; exact (h.sending (hwire ▸ hw)).1
  · rw [hreplies]; exact (h.waiting (hbuffer ▸ hne)).imp_right k.resetWait

/-! ## Requests taken, lines accepted and rejected (R2, R3) -/

theorem bounds_queueReply {r : Reply} {s : State} (h : Bounds s.dv) (hroom : s.dv.replies.length < Config.replySize) :
    Bounds (queueReply r s).dv := by
  obtain ⟨h1, h2, h3, h4, h5, h6, h7, h8⟩ := h
  refine ⟨h1, h2, ?_, h4, h5, h6, h7, h8⟩
  simpa [queueReply] using hroom

theorem told_run (r : Request) (c : Instr) (he : effect c = some r) (s : State) : LinkTold s.dv (r.run s).1.dv := by
  unfold Request.run
  split
  · exact .refl _
  · exact (Kept.act he s).link

/-- A taken request leaves the lines that wait, and the transmitter chooses. -/
theorem takeRequest_link (c : Instr) {s : State} (hb : Bounds s.dv) (hs : Sending s.dv)
    (hroom : s.dv.replies.length < Config.replySize) :
    Bounds (takeRequest c s).dv ∧ Sending (takeRequest c s).dv ∧ (takeRequest c s).dv.buffer = s.dv.buffer := by
  unfold takeRequest
  split
  · rename_i r he
    have htold := told_run r c he s
    have hreplies : (r.run s).1.dv.replies = s.dv.replies := by rw [htold.rest]
    refine ⟨(bounds_queueReply (hb.told htold) (hreplies ▸ hroom)).pump, sending_pump _, ?_⟩
    have hbuffer : (r.run s).1.dv.buffer = s.dv.buffer := by rw [htold.rest]
    rcases pump_cases (queueReply ⟨r.hdr.tag, r.token, (r.run s).2⟩ (r.run s).1) with e | ⟨_, _, _, _, e⟩ |
      ⟨_, _, _, _, _, _, _, e⟩ <;> rw [e] <;> exact hbuffer
  · exact ⟨hb, hs, rfl⟩

theorem canTake_iff (s : State) : canTake s = true ↔ s.dv.replies.length < Config.replySize ∧ s.dv.resetWait = false := by
  simp [canTake]

/-- With fuel for every line, DV takes the lines that wait until none is left or it may take none (R3). -/
theorem sound_takeWaiting (fuel : Nat) {s : State} (hb : Bounds s.dv) (hs : Sending s.dv)
    (hfuel : s.dv.buffer.length ≤ fuel) : Sound (takeWaiting fuel s).dv := by
  induction fuel generalizing s with
  | zero =>
    have hempty : s.dv.buffer = [] := List.eq_nil_of_length_eq_zero (Nat.le_zero.1 hfuel)
    exact ⟨hb, hs, fun hne => absurd hempty hne⟩
  | succ n ih =>
    unfold takeWaiting
    split
    · rename_i hempty; exact ⟨hb, hs, fun hne => absurd hempty hne⟩
    · rename_i c cs hbuf
      split
      · rename_i htake
        obtain ⟨hroom, -⟩ := (canTake_iff s).1 htake
        obtain ⟨h1, h2, h3, h4, h5, h6, h7, h8⟩ := hb
        rw [hbuf, List.length_cons] at h2 hfuel
        have hb' : Bounds (s.modDv fun d => { d with buffer := cs }).dv :=
          ⟨h1, Nat.le_of_succ_le h2, h3, h4, h5, h6, h7, h8⟩
        obtain ⟨k1, k2, k3⟩ := takeRequest_link c hb' hs hroom
        exact ih k1 k2 (by rw [k3]; exact Nat.le_of_succ_le_succ hfuel)
      · rename_i htake
        refine ⟨hb, hs, fun _ => ?_⟩
        rw [canTake_iff, not_and_or, Nat.not_lt, Bool.not_eq_false] at htake
        exact htake

theorem bounds_countRejection {c : RejectCause} {d : Dv} (h : Bounds d) : Bounds (countRejection c d) := by
  obtain ⟨h1, h2, h3, h4, h5, h6, h7, h8⟩ := h
  cases c
  · exact ⟨h1, h2, h3, h4, satAdd_le _ _ _, h6, h7, h8⟩
  · exact ⟨h1, h2, h3, h4, h5, satAdd_le _ _ _, h7, h8⟩
  · exact ⟨h1, h2, h3, h4, h5, h6, satAdd_le _ _ _, h8⟩
  · exact ⟨h1, h2, h3, h4, h5, h6, h7, satAdd_le _ _ _⟩

theorem sound_rejectLine (c : RejectCause) {s : State} (h : Sound s.dv) : Sound (pump (rejectLine c s)).dv := by
  have hcount : Sound (countRejection c s.dv) :=
    ⟨bounds_countRejection h.bounds, by cases c <;> exact h.sending, by cases c <;> exact h.waiting⟩
  have htold : LinkTold (countRejection c s.dv) (rejectLine c s).dv :=
    (Kept.raise (u := .DV) (k := .FRAME_REJECT) (by simp [noticeKinds]) _ (s.modDv (countRejection c))).link
  exact hcount.pump_told htold

theorem sound_acceptLine (c : Instr) {s : State} (h : Sound s.dv) : Sound (acceptLine c s).dv := by
  unfold acceptLine
  split
  · exact sound_rejectLine .FULL h
  · rename_i hroom
    obtain ⟨⟨h1, h2, h3, h4, h5, h6, h7, h8⟩, hs, -⟩ := h
    refine sound_takeWaiting _ ⟨h1, ?_, h3, h4, h5, h6, h7, h8⟩ hs ?_
    · simpa using Nat.lt_of_not_le hroom
    · simp

/-! ## Reception and transmission (R1, R7) -/

theorem sound_completeLine (o : Bool) (cs : List RxChar) {s : State} (h : Sound s.dv) : Sound (completeLine o cs s).dv := by
  unfold completeLine
  split
  · exact sound_rejectLine _ h
  · split
    · exact h
    · split
      · exact sound_rejectLine _ h
      · split
        · exact sound_acceptLine _ h
        · exact sound_rejectLine _ h

/-- What is received so far is no part of what is sent or waits. -/
theorem Sound.received {d : Dv} (h : Sound d) {rx : List RxChar} {o : Bool} (hrx : rx.length ≤ Config.maxLine) :
    Sound { d with rx := rx, overlong := o } := by
  obtain ⟨⟨_, h2, h3, h4, h5, h6, h7, h8⟩, hs, hw⟩ := h
  exact ⟨⟨hrx, h2, h3, h4, h5, h6, h7, h8⟩, hs, hw⟩

theorem sound_receive (c : RxChar) {s : State} (h : Sound s.dv) : Sound (receive c s).dv := by
  unfold receive
  split
  · exact sound_completeLine _ _ (s := s.modDv _) (h.received (Nat.zero_le _))
  · split
    · exact h.received h.bounds.rx
    · rename_i hroom
      exact h.received (o := s.dv.overlong) (by simpa using Nat.lt_of_not_le hroom)

theorem sound_silence {s : State} (h : Sound s.dv) : Sound (silence s).dv := by
  have hrx : Sound (s.modDv fun d => { d with rx := [], overlong := false }).dv := h.received (Nat.zero_le _)
  unfold silence
  dsimp only
  split
  · exact sound_rejectLine _ hrx
  · exact hrx

theorem sound_lineSent {s : State} (h : Sound s.dv) : Sound (lineSent s).dv := by
  unfold lineSent
  split
  · obtain ⟨h1, h2, h3, h4, h5, h6, h7, h8⟩ := h.bounds
    have hfree : Bounds (s.modDv fun d => { d with wire := none }).dv := ⟨h1, h2, h3, h4, h5, h6, h7, h8⟩
    exact sound_takeWaiting _ hfree.pump (sending_pump _) (Nat.le_refl _)
  · exact h

/-! ## The starts (R17) -/

theorem sound_started (k : StartKind) : Sound (Dv.started k) :=
  ⟨⟨Nat.zero_le _, Nat.zero_le _, Nat.zero_le _, ⟨List.nodup_nil, nofun⟩, Nat.zero_le _, Nat.zero_le _, Nat.zero_le _,
    Nat.zero_le _⟩, fun _ => ⟨rfl, fun _ _ => rfl⟩, fun h => absurd rfl h⟩

theorem told_foldl {α : Type} {f : State → α → State} (h : ∀ t a, LinkTold t.dv (f t a).dv) (l : List α) (s : State) :
    LinkTold s.dv (l.foldl f s).dv := by
  induction l generalizing s with
  | nil => exact .refl _
  | cons a l ih => exact (h s a).trans (ih _)

theorem told_restartBays (s : State) : LinkTold s.dv (restartBays s).dv := by
  have hbays : LinkTold s.dv (forBays restartBay s).dv := told_foldl (fun t b => (Kept.restartBay b t).link) _ s
  unfold restartBays
  dsimp only
  split
  · exact hbays.trans (Kept.forBays Kept.closeBay _).link
  · exact hbays

/-- Of a start that is not cold the link has only what it told. -/
theorem told_warmStart (k : StartKind) (fromLoss : Bool) (e : StartEnv) (s : State) :
    LinkTold (Dv.started k) (startPosts k e (restartBays (warmClock fromLoss (warmBase k e s)))).dv := by
  have hbase : LinkTold (Dv.started k) (warmBase k e s).dv := (Kept.reportDefaults (startBase k e s)).link
  exact ((hbase.trans (Kept.warmClock _ _).link).trans (told_restartBays _)).trans (Kept.startPosts k e _).link

/-- Of a cold start the link has only what it told. -/
theorem told_coldStart (e : StartEnv) (s : State) : LinkTold (Dv.started .COLD)
    (startPosts .COLD e (forBays (fun b t => t.modBay b (coldBay (t.entry b).enabled)) (coldBase e s))).dv := by
  have hbase : LinkTold (Dv.started .COLD) (coldBase e s).dv := (Kept.reportDefaults (startBase .COLD e s)).link
  have hbays (t : State) : LinkTold t.dv (forBays (fun b t => t.modBay b (coldBay (t.entry b).enabled)) t).dv :=
    told_foldl (f := fun t b => t.modBay b (coldBay (t.entry b).enabled)) (fun t _ => .refl t.dv) _ t
  exact (hbase.trans (hbays _)).trans (Kept.startPosts .COLD e _).link

theorem sound_warmStart (k : StartKind) (fromLoss : Bool) (e : StartEnv) (s : State) :
    Sound (warmStart k fromLoss e s).dv := by
  rw [warmStart_eq]
  exact (sound_started k).pump_told (told_warmStart k fromLoss e s)

theorem sound_coldStart (e : StartEnv) (s : State) : Sound (coldStart e s).dv := by
  rw [coldStart_eq]
  exact (sound_started .COLD).pump_told (told_coldStart e s)

/-! ## Every row -/

theorem dv_supplyLost (s : State) : (supplyLost s).dv = { s.dv with attnPulse := false } := by
  unfold supplyLost
  dsimp only [State.dv_modDv]
  rw [Clearstamp.forBays_keeps State.dv fun b t => State.dv_modBay t b _]
  rfl

theorem dv_elapse (s : State) : (elapse s).dv = s.dv := by
  unfold elapse
  split
  · exact Clearstamp.forBays_keeps State.dv (fun b t => State.dv_modBay t b _) _
  · rfl

/-- Without the supply a DST instant changes the state alone (log 5). -/
theorem dstReached_off {s : State} (h : s.supply = false) :
    dstReached s = if s.ck.isSet && s.ck.dst != s.ck.inForce then s.modCk fun c => { c with dst := c.inForce } else s := by
  unfold dstReached
  simp only [h]
  rfl

theorem dv_unpowered (c : Instr) {s : State} (h : s.supply = false) : (unpoweredAct c s).dv = s.dv := by
  unfold unpoweredAct
  split
  · rw [dstReached_off h]
    split <;> rfl
  · rfl
  · rfl
  · rfl

/-- The pulse of ATTN is no part of the queues. -/
theorem Sound.pulseEnded {d : Dv} (h : Sound d) : Sound { d with attnPulse := false } := by
  obtain ⟨⟨h1, h2, h3, h4, h5, h6, h7, h8⟩, hs, hw⟩ := h
  exact ⟨⟨h1, h2, h3, h4, h5, h6, h7, h8⟩, hs, hw⟩

theorem Sound.pumped {s : State} (h : Sound s.dv) : Sound (Machine.pump s).dv := h.pump_told (.refl _)

theorem sound_event {c : Instr} {f : State → State} (hf : poweredAct c = some f) {s : State} (h : Sound s.dv) :
    Sound (pump (f s)).dv := by
  by_cases hlink : linkRow c = true
  · cases c <;> cases hlink <;> cases hf
    · rename_i v
      exact (sound_receive _ (s := { s with supv := v }) h).pumped
    · exact (sound_silence h).pumped
    · rename_i v
      exact (sound_lineSent (s := { s with supv := v }) h).pumped
    · exact Sound.pumped (s := s.modDv _) h.pulseEnded
  by_cases hstart : startRow c = true
  · cases c <;> cases hstart <;> cases hf
    · dsimp only
      split
      · exact (sound_warmStart ..).pumped
      · exact h.pumped
    · exact (sound_warmStart ..).pumped
  · exact h.pump_told (ActKept.event hf (by simpa using hlink) (by simpa using hstart) s).link

theorem sound_after (c : Instr) {s : State} (h : Sound s.dv) : Sound (after c s).dv := by
  rcases row_kinds c with ⟨r, he⟩ | ⟨he, f, hf⟩ | ⟨he, hp, f, hf⟩
  · rw [after_request he]
    split
    · exact sound_acceptLine c (s := { s with supv := r.hdr.supv }) h
    · exact h
  · rw [after_event he hf]
    split
    · exact sound_event hf h
    · rename_i hs
      rw [dv_unpowered c (by simpa using hs)]
      exact h
  · rw [after_anySupply he hp hf]
    cases c <;> cases hf
    · exact sound_coldStart ..
    · exact sound_warmStart ..
    · dsimp only
      split
      · rw [dv_supplyLost]; exact h.pulseEnded
      · exact h
    · exact h

/-- Settles O54: every row that sends, takes or queues ends with the transmitter's choice, and an act leaves the queues. -/
theorem theLinkKeepsItsBounds : Obligations.TheLinkKeepsItsBounds := by
  intro s t hbounds hlive hstep
  have h := (sound_iff s).1 ⟨hbounds, hlive⟩
  rw [sound_iff]
  rcases step_cases hstep with ⟨_, rfl⟩ | ⟨c, rest, _, rfl⟩
  · rw [dv_elapse]; exact h
  · exact sound_after c (s := { s with pending := rest }) h

end Sys2Proof.Proofs.LinkQueues

/-! PROOFS. Requests as they are taken, refused or kept waiting, and the requests of DV (R3 to R15). -/

namespace Sys2Proof.Proofs.LinkRequests

open Sys2Proof Sys2Proof.Machine Sys2Proof.Laws.Basic Sys2Proof.Laws.Requests Sys2Proof.Proofs.Steps
open Sys2Proof.Proofs.Valves

/-! ## Requests taken at once (R3, R4) -/

/-- A request row taken at once answers as its act does on the state under the key. -/
theorem exec_act {c : Instr} {r : Request} {s t : State} {a : Answer} (he : effect c = some r) (h : Ready r.hdr s)
    (hact : r.act (underKey r.hdr s) = (t, a)) : exec c s = Answers r.hdr r.token a t := by
  rw [exec_ready he h, hact]

/-- A request row that DV may take is run, whatever its tag. -/
theorem request_taken {c : Instr} {r : Request} {s : State} (he : effect c = some r) (h1 : s.supply = true)
    (h2 : s.dv.buffer = []) (h3 : s.dv.replies.length < Config.replySize) (h4 : s.dv.resetWait = false) :
    request c r.hdr.supv s =
      Answers r.hdr r.token (r.run (underKey r.hdr s)).2 (r.run (underKey r.hdr s)).1 := by
  obtain ⟨pending, supply, supv, fresh, dv, ck, dt, cp, bays, ts, dl, st⟩ := s
  obtain ⟨rx, overlong, buffer, replies, wire, notices, mode, marks, full, long, check, addr, sampler, log, settings,
    startKind, resetWait, attnPulse⟩ := dv
  dsimp only at h1 h2 h3 h4
  subst h1 h2 h4
  simp [request, acceptLine, Config.bufferSize, State.modDv, takeWaiting, canTake, h3, takeRequest, he]

/-! ## Malformed requests (R6) -/

/-- The act of a request whose fields are not of its verb's form refuses, and discards a staging where the verb does. -/
theorem act_malformed {c : Instr} {r : Request} (he : effect c = some r) (hm : c.malformed = true) (s : State) :
    r.act s = (if interruptsStaging c then interrupted s else s, er .SYNTAX) := by
  cases c <;> cases he
  all_goals
    rename_i fields
    cases fields <;> first | rfl | cases hm

/-- Settles O3: each act refuses the absent form before it looks at the state. -/
theorem malformedRequestsGetSyntax : Obligations.MalformedRequestsGetSyntax := by
  intro c h s hm hhead hready
  obtain ⟨r, he, rfl⟩ := effect_of_head hhead
  refine ⟨r, he, exec_act he hready ?_⟩
  rw [act_malformed he hm]

/-! ## Lines that wait (R3) -/

/-- While the reply queue is full or a DV RESET waits no line is taken. -/
theorem canTake_of_blocked {s : State} (h : Config.replySize ≤ s.dv.replies.length ∨ s.dv.resetWait = true) :
    canTake s = false := by
  rcases h with h | h
  · simp [canTake, Nat.not_lt.2 h]
  · simp [canTake, h]

theorem takeWaiting_of_blocked (n : Nat) {s : State} (h : canTake s = false) : takeWaiting n s = s := by
  cases n with
  | zero => rfl
  | succ n =>
    unfold takeWaiting
    split
    · rfl
    · rw [h]; rfl

/-- Settles O4: a line that may not be taken stays in the input buffer, or is rejected where four lines wait. -/
theorem linesWaitAndOverflow : Obligations.LinesWaitAndOverflow := by
  intro c h s hhead hsupply hblocked
  obtain ⟨r, he, rfl⟩ := effect_of_head hhead
  rw [exec_effect he, request_on c _ hsupply]
  unfold acceptLine
  constructor
  · intro hroom
    rw [if_neg (Nat.not_le.2 hroom), takeWaiting_of_blocked _ (canTake_of_blocked (by exact hblocked))]
  · intro hfull
    rw [if_pos hfull]
    exact ⟨rejectLine .FULL (underKey r.hdr s), rfl, rfl, rfl, rfl, rfl, rfl, rfl, rfl, rfl, rfl, rfl, rfl⟩

/-! ## Routing (R5) -/

section
variable {v : Bool} {cs unit : List Char} {t1 t2 : Char} {rest : List (List Char)}

theorem commandOf_reserved (hcs : splitAtChar ' ' cs = [t1, t2] :: unit :: rest)
    (htag : BitVec.ofNat 8 (16 * hexVal t1 + hexVal t2) = 0xFF#8) :
    commandOf v cs = .unknownRequest ⟨BitVec.ofNat 8 (16 * hexVal t1 + hexVal t2), v⟩ (.tagReserved (String.ofList unit)) := by
  simp only [commandOf, hcs, if_pos htag]

theorem commandOf_unknownUnit (hcs : splitAtChar ' ' cs = [t1, t2] :: unit :: rest)
    (htag : BitVec.ofNat 8 (16 * hexVal t1 + hexVal t2) ≠ 0xFF#8) (hunit : unitOf unit = none) :
    commandOf v cs = .unknownRequest ⟨BitVec.ofNat 8 (16 * hexVal t1 + hexVal t2), v⟩ (.unknownUnit (String.ofList unit)) := by
  simp only [commandOf, hcs, if_neg htag, hunit]

variable {u : UnitName}

theorem commandOf_noVerb (hcs : splitAtChar ' ' cs = [t1, t2] :: unit :: [])
    (htag : BitVec.ofNat 8 (16 * hexVal t1 + hexVal t2) ≠ 0xFF#8) (hunit : unitOf unit = some u) :
    commandOf v cs = .unknownRequest ⟨BitVec.ofNat 8 (16 * hexVal t1 + hexVal t2), v⟩ (.badVerb u) := by
  simp only [commandOf, hcs, if_neg htag, hunit]

variable {verb : List Char} {fields : List (List Char)}

theorem commandOf_badVerb (hcs : splitAtChar ' ' cs = [t1, t2] :: unit :: verb :: fields)
    (htag : BitVec.ofNat 8 (16 * hexVal t1 + hexVal t2) ≠ 0xFF#8) (hunit : unitOf unit = some u)
    (hverb : verbForm verb = false) :
    commandOf v cs = .unknownRequest ⟨BitVec.ofNat 8 (16 * hexVal t1 + hexVal t2), v⟩ (.badVerb u) := by
  simp only [commandOf, hcs, if_neg htag, hunit, hverb, Bool.false_eq_true, if_false]

theorem commandOf_unknownVerb (hcs : splitAtChar ' ' cs = [t1, t2] :: unit :: verb :: fields)
    (htag : BitVec.ofNat 8 (16 * hexVal t1 + hexVal t2) ≠ 0xFF#8) (hunit : unitOf unit = some u)
    (hverb : verbForm verb = true) (hnone : unitVerbs u (String.ofList verb) = none) :
    commandOf v cs = .unknownRequest ⟨BitVec.ofNat 8 (16 * hexVal t1 + hexVal t2), v⟩ (.unknownVerb u) := by
  simp only [commandOf, hcs, if_neg htag, hunit, hverb, if_true, hnone]

theorem commandOf_verb {cmd : Hdr → Items → Instr} (hcs : splitAtChar ' ' cs = [t1, t2] :: unit :: verb :: fields)
    (htag : BitVec.ofNat 8 (16 * hexVal t1 + hexVal t2) ≠ 0xFF#8) (hunit : unitOf unit = some u)
    (hverb : verbForm verb = true) (hcmd : unitVerbs u (String.ofList verb) = some cmd) :
    commandOf v cs = cmd ⟨BitVec.ofNat 8 (16 * hexVal t1 + hexVal t2), v⟩ (itemsOf fields) := by
  simp only [commandOf, hcs, if_neg htag, hunit, hverb, if_true, hcmd]

end

theorem verbForm_iff (cs : List Char) :
    verbForm cs = true ↔ 1 ≤ cs.length ∧ cs.length ≤ 12 ∧ ∀ x ∈ cs, isCapital x = true := by
  simp [verbForm, and_assoc]

theorem mem_allUnits (u : UnitName) : u ∈ allUnits := by
  cases u <;> simp [allUnits, mem_allBays]

theorem mem_setMark (u v : UnitName) (marks : List UnitName) : v ∈ setMark u marks ↔ v = u ∨ v ∈ marks := by
  simp [setMark, mem_allUnits]

/-- Settles O5: the tests of R5 in their order, and the refusal that each makes. -/
theorem routingRefusals : Obligations.RoutingRefusals := by
  refine ⟨fun v cs unit t1 t2 rest hcs => ⟨commandOf_reserved hcs, fun htag => ⟨commandOf_unknownUnit hcs htag,
    fun u hunit => ⟨?_, ?_⟩⟩⟩, fun h s => ⟨fun hready => ⟨fun t => ?_, fun u => ?_, fun u => ?_, fun u v => mem_setMark u v _⟩, ?_⟩⟩
  · rintro rfl
    exact commandOf_noVerb hcs htag hunit
  · rintro verb fields rfl
    rw [← verbForm_iff, Bool.not_eq_true]
    exact ⟨commandOf_badVerb hcs htag hunit, fun hverb =>
      ⟨commandOf_unknownVerb hcs htag hunit hverb, fun cmd => commandOf_verb hcs htag hunit hverb⟩⟩
  · exact exec_act (c := .unknownRequest h (.unknownUnit t)) rfl hready rfl
  · exact exec_act (c := .unknownRequest h (.badVerb u)) rfl hready rfl
  · exact exec_act (c := .unknownRequest h (.unknownVerb u)) rfl hready rfl
  · intro h1 h2 h3 h4 htag t
    have he : effect (.unknownRequest h (.tagReserved t)) =
      some ⟨h, badToken (.tagReserved t), refuseRouting (.tagReserved t)⟩ := rfl
    rw [exec_effect he, request_taken he h1 h2 h3 h4, Request.run, if_pos htag]
    rfl

/-! ## The requests of DV (R9, R10, R12, R14, R15) -/

/-- Settles O6. -/
theorem dvStatusReadsTheLink : Obligations.DvStatusReadsTheLink := by
  intro h s hready
  refine exec_act (c := .dvStatus h (some ())) rfl hready ?_
  have hmarks : (s.dv.marks != []) = decide (s.dv.marks ≠ []) := by
    rcases s.dv.marks with _ | ⟨u, us⟩ <;> rfl
  simp only [dvStatus, Dv.markText, Dv.faultSet, commasOrNone, List.map_eq_nil_iff, hmarks]
  rfl

/-- Of clearing the marks FAULT is told only while it is pending and a mark stood. -/
theorem setComponents_clearMarks (s : State) :
    setComponents (fun d => { d with marks := [] }) s =
      let t := s.modDv fun d => { d with marks := [] }
      if s.dv.marks ≠ [] ∧ s.dv.pending .DV .FAULT = true then raise .DV .FAULT (faultFields t.dv) t else t := by
  unfold setComponents raiseIf
  by_cases hmarks : s.dv.marks = []
  · simp [Dv.sameComponents, hmarks]
  · have hnews : s.dv.sameComponents { s.dv with marks := [] } = false := by
      simp [Dv.sameComponents, hmarks]
    have hset : s.dv.faultSet = true := by simp [Dv.faultSet, hmarks]
    simp [hnews, hset, hmarks]

/-- Settles O7. -/
theorem dvClearModeAndNext : Obligations.DvClearModeAndNext := by
  refine ⟨fun h s hready => ?_, fun h s hready => ⟨fun m => ?_, ?_, fun hnone => ?_, fun n ns hsome => ?_⟩⟩
  · refine exec_act (c := .dvClear h (some ())) rfl hready ?_
    simp only [dvClear, setComponents_clearMarks]
  · exact exec_act (c := .dvMode h (some (some m))) rfl hready rfl
  · exact exec_act (c := .dvMode h (some none)) rfl hready rfl
  · refine exec_act (c := .dvNext h (some ())) rfl hready ?_
    simp only [dvNext, hnone]
  · refine exec_act (c := .dvNext h (some ())) rfl hready ?_
    simp only [dvNext, hsome]

theorem resetReady_iff (s : State) :
    resetReady s = true ↔ s.dv.resetWait = true ∧ s.dv.replies = [] ∧ s.dv.wire = none := by
  simp only [resetReady, Bool.and_eq_true, Option.isNone_iff_eq_none, List.isEmpty_iff, and_assoc, and_comm (a := _ = none)]

theorem exec_deviceReset {s : State} (e : StartEnv) (h : s.supply = true) :
    exec (.deviceReset e) s = .next (pump (if resetReady s then warmStart .DEVICE false e s else s)) :=
  event_on (fun t => if resetReady t then warmStart .DEVICE false e t else t) h

/-- Settles O8: the row acts only once the transmitter is free and no reply waits. -/
theorem resetRequestThenDeviceReset : Obligations.ResetRequestThenDeviceReset := by
  refine ⟨fun h s hready => exec_act (c := .dvReset h (some ())) rfl hready rfl, fun e s hsupply => ⟨fun h => ?_, ?_⟩⟩
  · rw [exec_deviceReset e hsupply, if_pos ((resetReady_iff s).2 h)]
  · rintro ⟨-, hwire⟩
    obtain ⟨l, hl⟩ := Option.ne_none_iff_exists'.1 hwire
    rw [exec_deviceReset e hsupply, if_neg fun hr => hwire ((resetReady_iff s).1 hr).2.2, pump_busy s l hl]

end Sys2Proof.Proofs.LinkRequests

/-! PROOFS. Lines received and sent, raises and ATTN, the step with no command, and the invariants after reset (R1, R2,
R7, R8, R11). -/

namespace Sys2Proof.Proofs.LinkEvents

open Sys2Proof Sys2Proof.Machine Sys2Proof.Laws.Basic Sys2Proof.Laws.Requests Sys2Proof.Proofs.Valves

/-! ## Reception (R1, R2) -/

section
variable {s : State} (hsupply : s.supply = true)
include hsupply

theorem exec_rxCharacter (c : RxChar) (v : Bool) :
    exec (.rxCharacter c v) s = .next (pump (receive c { s with supv := v })) :=
  event_on (fun t => receive c { t with supv := v }) hsupply

theorem exec_lineSilence : exec .lineSilence s = .next (pump (silence s)) := event_on silence hsupply

theorem exec_transmitLineEnd (v : Bool) :
    exec (.transmitLineEnd v) s = .next (pump (lineSent { s with supv := v })) :=
  event_on (fun t => lineSent { t with supv := v }) hsupply

end

theorem receive_room {c : RxChar} {s : State} (hlf : rxIsLf c = false) (hroom : s.dv.rx.length < 240) :
    receive c s = s.modDv fun d => { d with rx := d.rx ++ [c] } := by
  have h : ¬Config.maxLine ≤ s.dv.rx.length := Nat.not_le.2 hroom
  simp [receive, hlf, h]

theorem receive_full {c : RxChar} {s : State} (hlf : rxIsLf c = false) (hfull : 240 ≤ s.dv.rx.length) :
    receive c s = s.modDv fun d => { d with overlong := true } := by
  have h : Config.maxLine ≤ s.dv.rx.length := hfull
  simp [receive, hlf, h]

theorem receive_lf {c : RxChar} (s : State) (hlf : rxIsLf c = true) :
    receive c s = completeLine s.dv.overlong s.dv.rx (s.modDv fun d => { d with rx := [], overlong := false }) := by
  simp [receive, hlf]

section
variable {o : Bool} {cs : List RxChar}

theorem completeLine_overlong (h : o = true ∨ 240 ≤ cs.length) (u : State) :
    completeLine o cs u = pump (rejectLine .LONG u) := by
  have hlong : (o || decide (Config.maxLine ≤ cs.length)) = true := by
    rw [Bool.or_eq_true, decide_eq_true_iff]
    exact h
  rw [completeLine, if_pos hlong]

theorem not_overlong (ho : o = false) (hlen : cs.length < 240) :
    (o || decide (Config.maxLine ≤ cs.length)) = false := by
  rw [ho, Bool.false_or, decide_eq_false_iff_not]
  exact Nat.not_le.2 hlen

theorem isEmptyLine_of_ne (hline : cs ≠ [⟨0x0D#8, false⟩]) : isEmptyLine cs = false := beq_false_of_ne hline

variable (ho : o = false) (hlen : cs.length < 240)
include ho hlen

theorem completeLine_empty (hempty : cs = [⟨0x0D#8, false⟩]) (u : State) : completeLine o cs u = u := by
  subst ho hempty
  rfl

variable (hline : cs ≠ [⟨0x0D#8, false⟩])
include hline

theorem completeLine_badCheck (hcheck : passCheck cs = none) (u : State) :
    completeLine o cs u = pump (rejectLine .CHECK u) := by
  simp only [completeLine, not_overlong ho hlen, isEmptyLine_of_ne hline, hcheck, Bool.false_eq_true, if_false]

variable {cov : List Char} (hcheck : passCheck cs = some cov)
include hcheck

theorem completeLine_badAddr (haddr : passAddr cov = false) (u : State) :
    completeLine o cs u = pump (rejectLine .ADDR u) := by
  simp only [completeLine, not_overlong ho hlen, isEmptyLine_of_ne hline, hcheck, haddr, Bool.false_eq_true, if_false]

theorem completeLine_accepted (haddr : passAddr cov = true) (u : State) :
    completeLine o cs u = acceptLine (commandOf u.supv cov.dropLast) u := by
  simp only [completeLine, not_overlong ho hlen, isEmptyLine_of_ne hline, hcheck, haddr, Bool.false_eq_true, if_false,
    if_true]

end

/-- Settles O9: R1 takes a character by what it is and how many stand before it, and R2 a line by the first test it fails. -/
theorem receiverAssemblesLines : Obligations.ReceiverAssemblesLines := by
  refine ⟨fun c v s hsupply => ⟨fun hlf => ⟨fun hroom => ?_, fun hfull => ?_⟩, fun hlf => ?_⟩, fun s hsupply => ?_⟩
  · rw [exec_rxCharacter hsupply, receive_room hlf (by exact hroom)]
    rfl
  · rw [exec_rxCharacter hsupply, receive_full hlf (by exact hfull)]
    rfl
  · intro u
    have hexec : exec (.rxCharacter c v) s = .next (pump (completeLine s.dv.overlong s.dv.rx u)) := by
      rw [exec_rxCharacter hsupply, receive_lf _ hlf]
      rfl
    refine ⟨fun hlong => ?_, fun ho hlen => ⟨fun hempty => ?_, fun hline => ⟨fun hcheck => ?_, fun cov hcheck =>
      ⟨fun haddr => ?_, fun haddr => ?_⟩⟩⟩⟩
    · rw [hexec, completeLine_overlong hlong, pump_pump]
    · rw [hexec, completeLine_empty ho hlen hempty]
    · rw [hexec, completeLine_badCheck ho hlen hline hcheck, pump_pump]
    · rw [hexec, completeLine_badAddr ho hlen hline hcheck haddr, pump_pump]
    · rw [hexec, completeLine_accepted ho hlen hline hcheck haddr]
  · refine ⟨fun ho => ?_, fun ho => ?_⟩
    · rw [exec_lineSilence hsupply]
      simp only [silence, ho]
      rfl
    · rw [exec_lineSilence hsupply]
      simp only [silence, ho, if_true, pump_pump]
      rfl

/-! ## Transmission (R7) -/

theorem pump_reply {s : State} {r : Reply} {rs : List Reply} (hw : s.dv.wire = none) (hr : s.dv.replies = r :: rs) :
    pump s = s.modDv fun d => { d with wire := some (.reply r), replies := rs } := by
  simp only [pump, hw, hr]

theorem pump_notice {s : State} {n : Notice} {ns : List Notice} (hw : s.dv.wire = none) (hr : s.dv.replies = [])
    (hm : s.dv.mode = .PUSH) (hwait : s.dv.resetWait = false) (hn : s.dv.notices = n :: ns) :
    pump s = s.modDv fun d => { d with wire := some (.notice n), notices := ns } := by
  simp only [pump, hw, hr, hm, hwait, hn, and_self, if_true]

theorem pump_idle {s : State} (hr : s.dv.replies = [])
    (h : s.dv.mode = .POLL ∨ s.dv.resetWait = true ∨ s.dv.notices = []) : pump s = s := by
  rcases pump_cases s with e | ⟨r, rs, _, hr', _⟩ | ⟨n, ns, _, _, hm, hwait, hn, _⟩
  · exact e
  · rw [hr] at hr'
    exact absurd hr' (List.cons_ne_nil _ _).symm
  · simp [hm, hwait, hn] at h

/-- The line sent leaves the wire, the transmitter chooses, and the waiting lines are taken while they can be. -/
theorem lineSent_of_wire {s : State} (hwire : s.dv.wire ≠ none) :
    lineSent s = takeWaiting (pump (s.modDv fun d => { d with wire := none })).dv.buffer.length
      (pump (s.modDv fun d => { d with wire := none })) := by
  rw [lineSent, if_pos (Option.isSome_iff_ne_none.2 hwire)]

theorem takeWaiting_nil (n : Nat) {s : State} (h : s.dv.buffer = []) : takeWaiting n s = s := by
  cases n with
  | zero => rfl
  | succ n => simp only [takeWaiting, h]

/-- With no line waiting, the transmitter's choice is all that follows a line sent. -/
theorem lineSent_of_noLine {s : State} (hwire : s.dv.wire ≠ none) (hbuffer : s.dv.buffer = []) :
    lineSent s = pump (s.modDv fun d => { d with wire := none }) := by
  rw [lineSent_of_wire hwire, takeWaiting_nil]
  rcases pump_cases (s.modDv fun d => { d with wire := none }) with e | ⟨_, _, _, _, e⟩ | ⟨_, _, _, _, _, _, _, e⟩ <;>
    rw [e] <;> exact hbuffer

/-- Settles O10. -/
theorem transmitterChoosesTheNextLine : Obligations.TransmitterChoosesTheNextLine := by
  intro v s hsupply hwire
  refine ⟨fun hbuffer => ?_, fun c r rs hbuffer hr hfull hwait => ?_⟩
  · have hexec : exec (.transmitLineEnd v) s = .next (pump { s with supv := v, dv := { s.dv with wire := none } }) := by
      rw [exec_transmitLineEnd hsupply, lineSent_of_noLine (by exact hwire) (by exact hbuffer), pump_pump]
      rfl
    refine ⟨fun r rs hr => ?_, fun n ns hr hm hwait hn => ?_, fun hr h => ?_⟩ <;> rw [hexec]
    · rw [pump_reply rfl (by exact hr)]
      rfl
    · rw [pump_notice rfl (by exact hr) (by exact hm) (by exact hwait) (by exact hn)]
      rfl
    · rw [pump_idle (by exact hr) (by exact h)]
  · have hpump : pump (State.modDv { s with supv := v } fun d => { d with wire := none }) =
        { s with supv := v, dv := { s.dv with wire := some (.reply r), replies := rs } } :=
      pump_reply rfl hr
    have hroom : rs.length < Config.replySize := by
      rw [hr, List.length_cons] at hfull
      omega
    rw [exec_transmitLineEnd hsupply, lineSent_of_wire (by exact hwire), hpump]
    simp [hbuffer, takeWaiting, canTake, hroom, hwait, State.modDv]

/-! ## Raises and ATTN (R8, R11) -/

/-- The notice of a pair that is pending is replaced where it stands. -/
theorem putNotice_pending (n : Notice) {l : List Notice} (hnodup : (l.map Notice.pair).Nodup)
    (h : l.any (fun m => m.unit == n.unit && m.kind == n.kind) = true) :
    putNotice n l = l.map fun m => if m.unit = n.unit ∧ m.kind = n.kind then n else m := by
  induction l with
  | nil => cases h
  | cons m ms ih =>
    rw [List.map_cons, List.nodup_cons] at hnodup
    by_cases e : m.unit = n.unit ∧ m.kind = n.kind
    · have hrest : ∀ x ∈ ms, ¬(x.unit = n.unit ∧ x.kind = n.kind) := fun x hx hxe =>
        hnodup.1 (List.mem_map.2 ⟨x, hx, Prod.ext (hxe.1.trans e.1.symm) (hxe.2.trans e.2.symm)⟩)
      have hmap : ms.map (fun m => if m.unit = n.unit ∧ m.kind = n.kind then n else m) = ms :=
        (List.map_congr_left fun x hx => if_neg (hrest x hx)).trans (List.map_id _)
      rw [putNotice, if_pos e, List.map_cons, if_pos e, hmap]
    · have hms : ms.any (fun m => m.unit == n.unit && m.kind == n.kind) = true := by
        simpa [e] using h
      rw [putNotice, if_neg e, List.map_cons, if_neg e, ih hnodup.2 hms]

theorem pending_iff (d : Dv) (u : UnitName) (k : NKind) :
    d.pending u k = true ↔ (u, k) ∈ d.notices.map Notice.pair := by
  simp [Dv.pending, Notice.pair]

/-- Settles O11. -/
theorem attnAndRaises : Obligations.AttnAndRaises := by
  refine ⟨fun s hsupply => ⟨fun hlevel => ?_, fun hpulse => ?_, ?_⟩, fun u k fs s hnodup => ⟨fun h => ?_, fun h => ?_, fun hpulse => ?_⟩⟩
  · simp [State.attn, hsupply, hlevel]
  · simp [State.attn, hsupply, hpulse]
  · exact event_on (fun t => t.modDv fun d => { d with attnPulse := false }) hsupply
  · refine putNotice_new ⟨u, k, fs⟩ _ fun hmem => ?_
    rw [(pending_iff _ _ _).2 hmem] at h
    cases h
  · exact putNotice_pending ⟨u, k, fs⟩ hnodup h
  · simp [raise, hpulse]

end Sys2Proof.Proofs.LinkEvents

/-! PROOFS. The step, the passing of a millisecond and the tick of the clock (log 4, R18). -/

namespace Sys2Proof.Proofs.StepAndTick

open Sys2Proof Sys2Proof.Machine Sys2Proof.Proofs.Valves

/-- A pass that updates each bay leaves all but the bays. -/
theorem forBays_modBay_frame (f : State → Bay → BayUnit → BayUnit) (s : State) :
    forBays (fun b t => t.modBay b (f t b)) s = { s with bays := (forBays (fun b t => t.modBay b (f t b)) s).bays } :=
  List.foldlRecOn (motive := fun t : State => t = { s with bays := t.bays }) allBays _ rfl fun t ht b _ =>
    congrArg (fun x : State => { x with bays := (t.modBay b (f t b)).bays }) ht

theorem dl_elapse (d : Dl) :
    d.elapse = { d with reclaim := if d.writing = none ∧ d.accesses = 0 then
                          d.reclaim.map fun r => { r with work := r.work - 1 } else d.reclaim } := by
  unfold Dl.elapse
  by_cases h : d.writing = none ∧ d.accesses = 0 <;> simp [Dl.storeFree, h]

theorem bay_elapse {s : State} (h : s.supply = true) (b : Bay) :
    (elapse s).bay b = (s.bay b).elapse ((s.entry b).pause * 60000) := by
  rw [elapse, if_pos h]
  exact bay_forBays_modBay (g := fun t b => BayUnit.elapse ((t.entry b).pause * 60000)) fun t ht => by
    simp only [State.entry, ht]

/-- A millisecond with the supply reaches the bays, the time since the calibration, the erase work and the apply work. -/
theorem elapse_frame {s : State} (h : s.supply = true) :
    elapse s = { s with bays := (elapse s).bays, ts := s.ts.elapse, dl := s.dl.elapse,
                        st := { s.st with apply := s.st.apply.map (· - 1) } } := by
  have helapse : elapse s = forBays (fun b t => t.modBay b (BayUnit.elapse ((t.entry b).pause * 60000)))
      { s with ts := s.ts.elapse, dl := s.dl.elapse, st := { s.st with apply := s.st.apply.map (· - 1) } } := if_pos h
  rw [helapse]
  exact forBays_modBay_frame (fun t b => BayUnit.elapse ((t.entry b).pause * 60000)) _

/-- Settles O1. -/
theorem stepRunsTheFrontCommand : Obligations.StepRunsTheFrontCommand := by
  refine ⟨fun c rest s hp => by simp only [step, hp], fun s hp => ?_⟩
  have hstep : step s = .next (elapse s) := by simp only [step, hp]
  rw [hstep]
  refine ⟨fun hoff => by simp [elapse, hoff], fun hon => ⟨elapse s, rfl, ?_, fun b => ?_⟩⟩
  · rw [elapse_frame hon, dl_elapse]
    rfl
  · rw [bay_elapse hon]
    unfold BayUnit.elapse
    rcases hst : (s.bay b).state <;> simp only [hst]
    case PAUSED => rw [Nat.mul_comm, State.entry]
    case FINISHING =>
      cases (s.bay b).ctx with
      | none => rfl
      | some c =>
        obtain ⟨comp, preset, halt, bond, pauseMs, settleMs, settled, crossings, final⟩ := c
        cases settled <;> rfl

/-- Settles O12. -/
theorem clockTickAdvancesTheCount : Obligations.ClockTickAdvancesTheCount := by
  intro s
  refine ⟨_, rfl, ?_⟩
  have hmoved : min 4294967295 (s.ck.count + 1) ≠ s.ck.count ∧ min 4294967295 (s.ck.count + 1) % 60 = 0 ↔
      s.ck.count < 4294967295 ∧ (s.ck.count + 1) % 60 = 0 := by omega
  simp [Config.maxCount, and_assoc, hmoved]

/-- Settles O60: each invariant is a finite check of the one state. -/
theorem theInvariantsHoldAtReset : Obligations.TheInvariantsHoldAtReset := by
  have hsettings : SettingsLegal Settings.factory := by decide +kernel
  have hbindings : Bindings State.reset := by
    refine ⟨?_, ?_, ?_, ?_, ?_, ?_, ?_, ?_, ?_⟩ <;> decide +kernel
  refine ⟨?_, ?_, ?_, ?_, ⟨hsettings, hsettings, hsettings⟩, ?_, ?_, ?_, ?_, hbindings⟩ <;> decide +kernel

end Sys2Proof.Proofs.StepAndTick

/-! PROOFS. What a raise and a post leave, in the words of the statements (R8, R174). -/

namespace Sys2Proof.Proofs.Telling

open Sys2Proof Sys2Proof.Machine Sys2Proof.Laws.Basic

theorem linkKept_refl (s : State) : LinkKept s s := ⟨rfl, rfl, rfl, rfl⟩

theorem linkKept_trans {s t u : State} (h : LinkKept s t) (k : LinkKept t u) : LinkKept s u := by
  obtain ⟨h1, h2, h3, h4⟩ := h
  obtain ⟨k1, k2, k3, k4⟩ := k
  refine ⟨?_, k2.trans h2, k3.trans h3, k4.trans h4⟩
  rw [k1, h1]

theorem linkKept_raise (u : UnitName) (k : NKind) (fs : List Fld) (s : State) : LinkKept s (raise u k fs s) :=
  ⟨rfl, rfl, rfl, rfl⟩

theorem linkKept_raiseIf (c : Bool) (u : UnitName) (k : NKind) (fs : List Fld) (s : State) :
    LinkKept s (raiseIf c u k fs s) := by
  cases c
  · exact linkKept_refl s
  · exact linkKept_raise u k fs s

theorem linkKept_changeBay (b : Bay) (r : String) (l : Bool) (o : NoticeOrder) (f : BayUnit → BayUnit) (s : State) :
    LinkKept s (changeBay b r l o f s) :=
  ⟨dv_changeBay .., pending_changeBay .., supply_changeBay .., fresh_changeBay ..⟩

theorem linkKept_postFrom (src : LogSource) (s : State) : LinkKept s (postFrom src s) :=
  ⟨by rw [dv_postFrom], pending_postFrom .., supply_postFrom .., fresh_postFrom ..⟩

/-! ## Posts (R174) -/

/-- A post changes the append queue alone. -/
theorem postFrom_frame (src : LogSource) (s : State) : postFrom src s = { s with dl := (postFrom src s).dl } := by
  rcases postFrom_cases src s with h | ⟨_, _, _, _, h⟩ <;> rw [h] <;> rfl

theorem outbox_postFrom (src c : LogSource) (s : State) : (postFrom src s).outbox c = s.outbox c := by
  rw [postFrom_frame]
  cases c <;> rfl

theorem dl_postFrom (src : LogSource) (s : State) : (postFrom src s).dl =
    { s.dl with
      queue := s.dl.queue ++
        if s.dl.hasAppend src then [] else (s.outbox src).head?.toList.map fun r => ⟨src, r⟩ } := by
  unfold postFrom
  split
  · simp only [List.append_nil]
  · rcases s.outbox src with _ | ⟨r, rs⟩
    · simp only [List.head?_nil, Option.toList_none, List.map_nil, List.append_nil]
    · rfl

/-- A post counts as the source's after changes that left the log as it was. -/
theorem posted_postFrom (src : LogSource) {s t : State} (h : t.dl = s.dl) : Posted src s (postFrom src t) := by
  unfold Posted
  rw [outbox_postFrom, dl_postFrom, h]

end Sys2Proof.Proofs.Telling

/-! PROOFS. The clock: day close, DST, the loss of the supply, and its requests (R21 to R32). -/

namespace Sys2Proof.Proofs.ClockRows

open Sys2Proof Sys2Proof.Machine Sys2Proof.Laws.Basic Sys2Proof.Laws.Requests
open Sys2Proof.Proofs.Telling Sys2Proof.Proofs.LinkRequests

/-! ## Day close (R28, R29) -/

theorem mayFire_iff (c : Ck) (date : Nat) : c.mayFire date = true ↔ ∀ d ∈ c.lastFired, d < date := by
  unfold Ck.mayFire
  cases c.lastFired <;> simp

theorem dl_ckRecord (r : LogRec) (s : State) :
    ckRecord r s = { s with dl := (ckRecord r s).dl, ck := { s.ck with outbox := s.ck.outbox ++ [r] } } :=
  postFrom_frame .CK _

theorem linkKept_ckRecord (r : LogRec) (s : State) : LinkKept s (ckRecord r s) :=
  linkKept_postFrom .CK (s.modCk fun c => { c with outbox := c.outbox ++ [r] })

theorem posted_ckRecord (r : LogRec) {s t : State} (h : t.dl = s.dl) : Posted .CK s (ckRecord r t) :=
  posted_postFrom .CK (t := t.modCk fun c => { c with outbox := c.outbox ++ [r] }) h

/-- What a firing leaves: the date, and the record in CK's outbox. -/
theorem fireDay_frame (date : Nat) (s : State) : fireDay date s =
    { s with
      dl := (fireDay date s).dl
      ck := { s.ck with
        lastFired := some date
        outbox := s.ck.outbox ++ [s.makeRec (.DAY_CLOSE DayCounts.zero)] } } :=
  dl_ckRecord _ _

theorem posted_fireDay (date : Nat) {s t : State} (h : t.dl = s.dl) : Posted .CK s (fireDay date t) :=
  posted_ckRecord _ (t := t.modCk fun c => { c with lastFired := some date }) h

theorem testMinute_fires {m : Nat} {s : State} (hmatch : s.ck.minuteMatches m = true)
    (hdate : ∀ d ∈ s.ck.lastFired, d < m / 1440) : testMinute m s = fireDay (m / 1440) s := by
  rw [testMinute, hmatch, (mayFire_iff _ _).2 hdate]
  rfl

theorem testMinute_quiet {m : Nat} {s : State}
    (h : ¬(s.ck.minuteMatches m = true ∧ ∀ d ∈ s.ck.lastFired, d < m / 1440)) : testMinute m s = s := by
  rw [← mayFire_iff, ← Bool.and_eq_true] at h
  rw [testMinute, if_neg h]

/-- Settles O13. -/
theorem minuteReachedTestsTheMatch : Obligations.MinuteReachedTestsTheMatch := by
  intro s hsupply hset hdue hdst
  have hexec : exec .minuteReached s =
      .next (pump (testMinute s.localMin (s.modCk fun c => { c with minuteDue := false }))) := by
    have hrow : exec .minuteReached s = .next (pump (minuteReached s)) := event_on minuteReached hsupply
    rw [hrow]
    simp only [minuteReached, hsupply, hset, hdue, hdst, beq_self_eq_true, Bool.and_self, if_true]
  refine ⟨fun ⟨hmatch, hdate⟩ => ?_, fun hquiet => ?_⟩
  · rw [hexec, testMinute_fires (by exact hmatch) (by exact hdate)]
    exact ⟨_, rfl, fireDay_frame _ (s.modCk fun c => { c with minuteDue := false }),
      posted_fireDay _ (t := s.modCk fun c => { c with minuteDue := false }) rfl⟩
  · rw [hexec, testMinute_quiet (by exact hquiet)]
    rfl

/-! ## DST instants (R27, R30) -/

theorem skippedMatches_iff (c : Ck) (f : Nat) :
    skippedMatches c f = true ↔ ∃ k : Fin 60, c.minuteMatches (f / 60 + k) = true := by
  rw [skippedMatches, List.any_eq_true]
  constructor
  · rintro ⟨i, hi, h⟩
    exact ⟨⟨i, List.mem_range.1 hi⟩, h⟩
  · rintro ⟨k, h⟩
    exact ⟨k, List.mem_range.2 k.isLt, h⟩

/-- The state after the rules gave a new DST state at `at_`, with its notice raised. -/
def dstTold (at_ : Nat) (s : State) : State :=
  raise .CK .DST (dstFields { s.ck with dst := s.ck.inForce } s.ck.dst at_) (s.modCk fun c => { c with dst := c.inForce })

section
variable {s : State} (hsupply : s.supply = true) (hset : s.ck.isSet = true) (hdst : s.ck.dst ≠ s.ck.inForce)
include hsupply hset hdst

theorem dstReached_on : dstReached s =
    if s.ck.inForce = true ∧ (∃ k : Fin 60, s.ck.minuteMatches (reachedInstant s.ck.fwd s.ck.rev s.ck.count / 60 + k) = true) ∧
        ∀ d ∈ s.ck.lastFired, d < reachedInstant s.ck.fwd s.ck.rev s.ck.count / 86400 then
      fireDay (reachedInstant s.ck.fwd s.ck.rev s.ck.count / 86400)
        (dstTold (reachedInstant s.ck.fwd s.ck.rev s.ck.count) s)
    else dstTold (reachedInstant s.ck.fwd s.ck.rev s.ck.count) s := by
  have hcond : (s.ck.inForce && skippedMatches s.ck (reachedInstant s.ck.fwd s.ck.rev s.ck.count) &&
      s.ck.mayFire (reachedInstant s.ck.fwd s.ck.rev s.ck.count / 86400)) = true ↔ s.ck.inForce = true ∧
        (∃ k : Fin 60, s.ck.minuteMatches (reachedInstant s.ck.fwd s.ck.rev s.ck.count / 60 + k) = true) ∧
        ∀ d ∈ s.ck.lastFired, d < reachedInstant s.ck.fwd s.ck.rev s.ck.count / 86400 := by
    rw [Bool.and_eq_true, Bool.and_eq_true, skippedMatches_iff, mayFire_iff, and_assoc]
  simp only [dstReached, hsupply, hset, bne_iff_ne.2 hdst, Bool.and_self, if_true]
  exact if_congr hcond rfl rfl

/-- A DST instant changes the clock, the log's queue and the notices. -/
theorem dstReached_frame : dstReached s = { s with ck := (dstReached s).ck, dl := (dstReached s).dl, dv := (dstReached s).dv } ∧
    LinkKept s (dstReached s) ∧ (dstReached s).dv.notices =
      putNotice ⟨.CK, .DST, dstFields { s.ck with dst := s.ck.inForce } s.ck.dst
        (reachedInstant s.ck.fwd s.ck.rev s.ck.count)⟩ s.dv.notices := by
  rw [dstReached_on hsupply hset hdst]
  split
  · rw [fireDay_frame]
    exact ⟨rfl, ⟨rfl, rfl, rfl, rfl⟩, rfl⟩
  · exact ⟨rfl, ⟨rfl, rfl, rfl, rfl⟩, rfl⟩

end

/-- Settles O14. -/
theorem dstInstantChangesTheState : Obligations.DstInstantChangesTheState := by
  intro s hset hdst
  refine ⟨fun hoff => ?_, fun hon => ?_⟩
  · have hexec : exec .dstInstant s = .next (dstReached s) := congrArg Host.Outcome.next (if_neg (by simp [hoff]))
    rw [hexec, LinkQueues.dstReached_off hoff, if_pos (by simp [hset, hdst])]
    rfl
  · obtain ⟨hframe, hlink, hnotices⟩ := dstReached_frame hon hset hdst
    refine ⟨dstReached s, congrArg Host.Outcome.next (if_pos hon), hnotices, ⟨fun hfires => ?_, fun hquiet => ?_⟩, hlink, ?_⟩
    · rw [dstReached_on hon hset hdst, if_pos hfires]
      refine ⟨?_, posted_fireDay _ rfl⟩
      rw [fireDay_frame]
      simp [dstTold, hfires.1, State.makeRec, State.stamp, hset, Ck.localAt, dstOffset]
    · rw [dstReached_on hon hset hdst, if_neg hquiet]
      exact ⟨rfl, rfl⟩
    · rw [hframe]
      exact ⟨rfl, rfl, rfl, rfl, rfl⟩

/-! ## The loss of the supply (R32) -/

/-- A loss of the supply reaches the clock, the outputs of the bays and the link. -/
theorem supplyLost_frame (s : State) : supplyLost s =
    { s with supply := false, ck := (supplyLost s).ck, dv := (supplyLost s).dv, bays := (supplyLost s).bays } := by
  unfold supplyLost
  dsimp only
  rw [StepAndTick.forBays_modBay_frame (fun _ _ x => { x with release := false })]
  rfl

/-- Settles O15. -/
theorem supplyLossStampsTheTime : Obligations.SupplyLossStampsTheTime := by
  intro s hsupply
  refine ⟨supplyLost s, Clearstamp.exec_mainSupplyLoss_on hsupply, rfl, Clearstamp.ck_supplyLost s,
    Valves.bay_supplyLost s, LinkQueues.dv_supplyLost s, ?_⟩
  rw [supplyLost_frame]
  exact ⟨rfl, rfl, rfl, rfl, rfl⟩

/-! ## Setting the time (R21 to R24) -/

section
variable {a : CkSetArgs} {s : State} {n : Nat} (htime : setTime a = some n)
include htime

theorem ckSet_busy (h : s.anyBayBusy = true ∨ s.dl.scan = true ∨ 2 ≤ s.ck.outbox.length) :
    ckSet (some a) s = (s, er .BUSY) := by
  have hbusy : (s.anyBayBusy || s.dl.scan || decide (2 ≤ s.ck.outbox.length)) = true := by
    rw [Bool.or_eq_true, Bool.or_eq_true, decide_eq_true_iff, or_assoc]
    exact h
  simp only [ckSet, htime, hbusy, if_true]

variable (hbay : s.anyBayBusy = false) (hscan : s.dl.scan = false) (hroom : s.ck.outbox.length < 2)
include hbay hscan hroom

theorem ckSet_history (h : ∃ p ∈ historyPoint s, n < p) : ckSet (some a) s = (s, er .TIME_BEFORE_HISTORY) := by
  obtain ⟨p, hp, hlt⟩ := h
  simp [ckSet, htime, hbay, hscan, Nat.not_le.2 hroom, Option.mem_def.1 hp, hlt]

theorem ckSet_taken (h : ∀ p ∈ historyPoint s, p ≤ n) :
    ckSet (some a) s =
      let old := if s.ck.isSet then some s.ck.count else none
      let s1 := recomputeDst (fun o n => o != n || !s.ck.isSet)
        (s.modCk fun c => { c with count := n, isSet := true, minuteDue := false })
      (ckRecord (s1.makeRec (.CLOCK_SET old n)) s1, ok [fld "OLD" (timeOrNone old), fld "NEW" (timeText n)]) := by
  have hhist : ((historyPoint s).any fun p => decide (n < p)) = false := by
    rcases hp : historyPoint s with _ | p
    · rfl
    · exact decide_eq_false (Nat.not_lt.2 (h p hp))
  simp [ckSet, htime, hbay, hscan, Nat.not_le.2 hroom, hhist]

end

/-- A recomputation changes the DST state, and the link's notices where it is told. -/
theorem recomputeDst_frame (tell : Bool → Bool → Bool) (s : State) :
    let c := { s.ck with dst := s.ck.inForce }
    let t := recomputeDst tell s
    t = { s with ck := c, dv := t.dv } ∧ LinkKept s t ∧
      t.dv.notices = if tell s.ck.dst c.dst then putNotice ⟨.CK, .DST, dstFields c s.ck.dst s.ck.count⟩ s.dv.notices
        else s.dv.notices := by
  intro c t
  have ht : t = raiseIf (tell s.ck.dst c.dst) .CK .DST (dstFields c s.ck.dst s.ck.count)
      (s.modCk fun c => { c with dst := c.inForce }) := rfl
  rw [ht]
  refine ⟨?_, linkKept_raiseIf _ _ _ _ _, notices_raiseIf ..⟩
  cases tell s.ck.dst c.dst <;> rfl

/-- Settles O16. -/
theorem clockSetTakesTheTime : Obligations.ClockSetTakesTheTime := by
  intro h a s hready
  refine ⟨fun htime => ?_, fun n htime => ⟨fun hbusy => ?_, fun hbay hscan hroom => ⟨fun hhist => ?_, fun hhist => ?_⟩⟩⟩
  · refine exec_act (c := .ckSet h (some a)) rfl hready ?_
    simp only [ckSet, htime]
  · exact exec_act (c := .ckSet h (some a)) rfl hready (ckSet_busy htime hbusy)
  · exact exec_act (c := .ckSet h (some a)) rfl hready (ckSet_history htime hbay hscan hroom hhist)
  · refine ⟨_, exec_act (c := .ckSet h (some a)) rfl hready (ckSet_taken htime hbay hscan hroom hhist), ?_⟩
    obtain ⟨hframe, hlink, hnotices⟩ := recomputeDst_frame (fun o n => o != n || !s.ck.isSet)
      ((underKey h s).modCk fun c => { c with count := n, isSet := true, minuteDue := false })
    dsimp only
    generalize recomputeDst (fun o n => o != n || !s.ck.isSet)
      ((underKey h s).modCk fun c => { c with count := n, isSet := true, minuteDue := false }) = s1 at hframe hlink hnotices ⊢
    have hck := congrArg State.ck hframe
    have hrec (b : Body) : s1.makeRec b =
        ⟨some ⟨n, n + dstOffset (inForceAt s.ck.fwd s.ck.rev n), inForceAt s.ck.fwd s.ck.rev n⟩, b⟩ := by
      simp [State.makeRec, State.stamp, hck, Ck.localAt, Ck.inForce]
    refine ⟨?_, ?_, linkKept_trans (by exact hlink) (linkKept_ckRecord _ s1), posted_ckRecord _ (by rw [hframe]; rfl), ?_⟩
    · rw [dl_ckRecord, hrec, hck]
      rfl
    · have hcond : ((s.ck.dst != inForceAt s.ck.fwd s.ck.rev n) || !s.ck.isSet) = true ↔
          s.ck.dst ≠ inForceAt s.ck.fwd s.ck.rev n ∨ s.ck.isSet = false := by
        simp
      rw [dl_ckRecord, hrec, hck]
      exact hnotices.trans (if_congr hcond rfl rfl)
    · rw [dl_ckRecord, hframe]
      exact ⟨rfl, rfl, rfl, rfl, rfl⟩

/-! ## The rules and the match (R25, R28) -/

/-- Rules written at a clock that otherwise stands change the DST state, told on a set clock. -/
theorem writeRules_frame {f : Ck → Ck} {s : State} {fwd rev : Option DstRule}
    (hf : f s.ck = { s.ck with fwd := fwd, rev := rev }) :
    let c := { s.ck with fwd := fwd, rev := rev, dst := inForceAt fwd rev s.ck.count }
    let t := writeRules f s
    t = { s with ck := c, dv := t.dv } ∧ LinkKept s t ∧
      t.dv.notices = if s.ck.isSet = true ∧ s.ck.dst ≠ c.dst then
        putNotice ⟨.CK, .DST, dstFields c s.ck.dst s.ck.count⟩ s.dv.notices else s.dv.notices := by
  intro c t
  obtain ⟨hframe, hlink, hnotices⟩ := recomputeDst_frame (fun o n => o != n && s.ck.isSet) (s.modCk f)
  rw [State.ck_modCk, hf] at hframe hnotices
  refine ⟨hframe, hlink, ?_⟩
  have hcond : (s.ck.dst != c.dst && s.ck.isSet) = true ↔ s.ck.isSet = true ∧ s.ck.dst ≠ c.dst := by
    rw [Bool.and_eq_true, bne_iff_ne, and_comm]
  exact hnotices.trans (if_congr hcond rfl rfl)

/-- The same, in the words of the statement. -/
theorem writeRules_written {f : Ck → Ck} {s : State} {fwd rev : Option DstRule}
    (hf : f s.ck = { s.ck with fwd := fwd, rev := rev }) :
    let t := writeRules f s
    t.ck.fwd = fwd ∧ t.ck.rev = rev ∧
      t.ck = { s.ck with fwd := t.ck.fwd, rev := t.ck.rev, dst := inForceAt t.ck.fwd t.ck.rev s.ck.count } ∧
      t.dv.notices = (if s.ck.isSet = true ∧ s.ck.dst ≠ t.ck.dst then
        putNotice ⟨.CK, .DST, dstFields t.ck s.ck.dst s.ck.count⟩ s.dv.notices else s.dv.notices) ∧
      LinkKept s t ∧ t.dt = s.dt ∧ t.cp = s.cp ∧ t.bays = s.bays ∧ t.ts = s.ts ∧ t.dl = s.dl ∧ t.st = s.st := by
  obtain ⟨hframe, hlink, hnotices⟩ := writeRules_frame hf
  have hck := congrArg State.ck hframe
  refine ⟨congrArg Ck.fwd hck, congrArg Ck.rev hck, ?_, ?_, hlink, ?_⟩
  · rw [hck]
  · rw [hnotices, hck]
  · rw [hframe]
    exact ⟨rfl, rfl, rfl, rfl, rfl, rfl⟩

theorem ckDstrule_fwd {a : RuleArgs} {r : DstRule} {s : State} (hrule : ruleInRange s.ck a = some (.FWD, r))
    (hbay : s.anyBayBusy = false) :
    ckDstrule (some a) s = (writeRules (fun c => { c with fwd := some r }) s, ok (ruleEcho .FWD r)) := by
  simp only [ckDstrule, hrule, hbay, Bool.false_eq_true, if_false]

theorem ckDstrule_rev {a : RuleArgs} {r : DstRule} {s : State} (hrule : ruleInRange s.ck a = some (.REV, r))
    (hbay : s.anyBayBusy = false) :
    ckDstrule (some a) s = (writeRules (fun c => { c with rev := some r }) s, ok (ruleEcho .REV r)) := by
  simp only [ckDstrule, hrule, hbay, Bool.false_eq_true, if_false]

theorem ckDstrule_busy {a : RuleArgs} {s : State} (hrule : (ruleInRange s.ck a).isSome = true)
    (hbay : s.anyBayBusy = true) : ckDstrule (some a) s = (s, er .BUSY) := by
  obtain ⟨⟨n, r⟩, h⟩ := Option.isSome_iff_exists.1 hrule
  simp only [ckDstrule, h, hbay, if_true]

theorem ckDstruleOff_busy {s : State} (hbay : s.anyBayBusy = true) : ckDstruleOff (some ()) s = (s, er .BUSY) := by
  simp only [ckDstruleOff, hbay, if_true]

theorem ckDstruleOff_taken {s : State} (hbay : s.anyBayBusy = false) :
    ckDstruleOff (some ()) s = (writeRules (fun c => { c with fwd := none, rev := none }) s, ok [bare "OFF"]) := by
  simp only [ckDstruleOff, hbay, Bool.false_eq_true, if_false]

/-- The tests of DAYCLOSE on three fields that are numbers or OFF. -/
theorem matchTests_iff (mi ho wd : Option Nat) :
    (mi.all (fun m => decide (m ≤ 59)) && ho.all (fun h => decide (h ≤ 23)) && wd.all fun d => decide (d ≤ 6)) = true ↔
      (∀ m ∈ mi, m ≤ 59) ∧ (∀ m ∈ ho, m ≤ 23) ∧ ∀ d ∈ wd, d ≤ 6 := by
  simp only [Bool.and_eq_true, Option.all_eq_true, decide_eq_true_iff, Option.mem_def, and_assoc]

theorem ckDayclose_legal {mi ho wd : Option Nat} (h : (∀ m ∈ mi, m ≤ 59) ∧ (∀ m ∈ ho, m ≤ 23) ∧ ∀ d ∈ wd, d ≤ 6) (s : State) :
    ckDayclose (some ⟨some mi, some ho, some wd⟩) s =
      (s.modCk fun c => { c with matchMin := mi, matchHour := ho, matchWday := wd },
       ok [fld "MIN" (numberOrOff mi), fld "HOUR" (numberOrOff ho), fld "WDAY" (numberOrOff wd)]) :=
  if_pos ((matchTests_iff mi ho wd).2 h)

theorem ckDayclose_illegal {mi ho wd : Option Nat} (h : ¬((∀ m ∈ mi, m ≤ 59) ∧ (∀ m ∈ ho, m ≤ 23) ∧ ∀ d ∈ wd, d ≤ 6))
    (s : State) : ckDayclose (some ⟨some mi, some ho, some wd⟩) s = (s, er .RANGE) :=
  if_neg fun hall => h ((matchTests_iff mi ho wd).1 hall)

/-- A field that is neither a number nor OFF. -/
theorem ckDayclose_badWord {a : DaycloseArgs} (h : a.minute = none ∨ a.hour = none ∨ a.wday = none) (s : State) :
    ckDayclose (some a) s = (s, er .RANGE) := by
  obtain ⟨mi, ho, wd⟩ := a
  rcases h with h | h | h <;> dsimp only at h <;> subst h
  · rfl
  · cases mi <;> rfl
  · cases mi <;> cases ho <;> rfl

/-- Settles O17. -/
theorem rulesAndMatchAreWritten : Obligations.RulesAndMatchAreWritten := by
  refine ⟨fun h s hready => ⟨fun a n r hrule hbay => ?_, fun hbay => ?_, fun hbay => ⟨?_, fun a hrule => ?_⟩⟩,
    fun h a s hready => ⟨fun hbad => ?_, ?_⟩⟩
  · cases n
    · exact ⟨_, exec_act (c := .ckDstrule h (some a)) rfl hready (ckDstrule_fwd hrule hbay),
        writeRules_written (f := fun c => { c with fwd := some r }) rfl⟩
    · exact ⟨_, exec_act (c := .ckDstrule h (some a)) rfl hready (ckDstrule_rev hrule hbay),
        writeRules_written (f := fun c => { c with rev := some r }) rfl⟩
  · refine ⟨_, exec_act (c := .ckDstruleOff h (some ())) rfl hready (ckDstruleOff_taken hbay), ?_⟩
    obtain ⟨hfwd, hrev, hck, hnotices, hrest⟩ := writeRules_written (f := fun c => { c with fwd := none, rev := none })
      (s := underKey h s) rfl
    rw [hfwd, hrev] at hck
    refine ⟨hck, hnotices.trans ?_, hrest⟩
    rw [hck]
    cases hdst : s.ck.dst <;> simp [inForceAt, hdst]
  · exact exec_act (c := .ckDstruleOff h (some ())) rfl hready (ckDstruleOff_busy hbay)
  · exact exec_act (c := .ckDstrule h (some a)) rfl hready (ckDstrule_busy hrule hbay)
  · exact exec_act (c := .ckDayclose h (some a)) rfl hready (ckDayclose_badWord hbad _)
  · rintro mi ho wd rfl
    exact ⟨fun hlegal => exec_act (c := .ckDayclose h (some _)) rfl hready (ckDayclose_legal hlegal _),
      fun hillegal => exec_act (c := .ckDayclose h (some _)) rfl hready (ckDayclose_illegal hillegal _)⟩

end Sys2Proof.Proofs.ClockRows

/-! PROOFS. The sequence numbers of the log over every step (R173, R174, R177, R184 to R189). -/

namespace Sys2Proof.Proofs.LogNumbers

open Sys2Proof Sys2Proof.Machine Sys2Proof.Laws.Basic Sys2Proof.Laws.Log Sys2Proof.Proofs.Steps Sys2Proof.Proofs.Keeping
open Sys2Proof.Proofs.Telling

/-! ## The law of the numbers, of the log alone -/

/-- `LogNumbered` says of the log alone what it says (R170, R173, R174, R184). -/
structure Numbered (d : Dl) : Prop where
  sources : d.sources.Nodup
  nodup : (d.stored.map (·.seq)).Nodup
  below : ∀ r ∈ d.stored, r.seq < d.nextSeq
  highMark : d.highMark < d.nextSeq
  writing : ∀ w ∈ d.writing, d.scan = false ∧ w.seq < d.nextSeq ∧ (d.segs[w.seg]).state = .ACTIVE ∧
    (w.opened = true → (d.segs[w.seg]).records = []) ∧ ∀ r ∈ d.stored, r.seq < w.seq
  oneActive : ∀ i j : SegNo, d.segs[i].state = .ACTIVE → d.segs[j].state = .ACTIVE → i = j
  oneReclaiming : ∀ i j : SegNo, d.segs[i].state = .RECLAIMING → d.segs[j].state = .RECLAIMING → i = j
  empty : ∀ i : SegNo, d.segs[i].state = .ERASED ∨ d.segs[i].state = .DAMAGED → d.segs[i].records = []
  lost : ∀ i : SegNo, d.segs[i].state = .RECLAIMING → ∀ r ∈ d.segs[i].records, r.seq ≤ d.highMark
  reclaim : ∀ r ∈ d.reclaim, d.segs[r.seg].state = .RECLAIMING

theorem logNumbered_iff (s : State) : LogNumbered s ↔ Numbered s.dl :=
  ⟨fun ⟨h1, h2, h3, h4, h5, h6, h7, h8, h9, h10⟩ => ⟨h1, h2, h3, h4, h5, h6, h7, h8, h9, h10⟩,
    fun ⟨h1, h2, h3, h4, h5, h6, h7, h8, h9, h10⟩ => ⟨h1, h2, h3, h4, h5, h6, h7, h8, h9, h10⟩⟩

/-- What one step does to the numbers of the log. -/
structure NumberStep (d e : Dl) : Prop where
  numbered : Numbered d → Numbered e
  kept : Numbered d → NumbersKept d e

/-- What keeps every number may come before the one act that does not. -/
theorem NumberStep.after {s t : State} {e : Dl} (h : LogKept s t) (k : NumberStep t.dl e) : NumberStep s.dl e := by
  have hnumbered : Numbered s.dl → Numbered t.dl := fun hs => (logNumbered_iff t).1 (h.numbered ((logNumbered_iff s).2 hs))
  refine ⟨k.numbered ∘ hnumbered, fun hs => ?_⟩
  obtain ⟨hhigh, hnext, hleft, hentered, hbegun⟩ := k.kept (hnumbered hs)
  rw [h.scan, h.nextSeq] at hnext
  rw [h.stored] at hleft hentered
  rw [h.writing] at hentered hbegun
  rw [h.nextSeq] at hbegun
  exact ⟨Nat.le_trans h.highMark hhigh, hnext, hleft, hentered, hbegun⟩

/-- And after it. -/
theorem NumberStep.before {d : Dl} {t u : State} (k : NumberStep d t.dl) (h : LogKept t u) : NumberStep d u.dl := by
  refine ⟨fun hd => (logNumbered_iff u).1 (h.numbered ((logNumbered_iff t).2 (k.numbered hd))), fun hd => ?_⟩
  obtain ⟨hhigh, hnext, hleft, hentered, hbegun⟩ := k.kept hd
  refine ⟨Nat.le_trans hhigh h.highMark, fun hscan => (hnext hscan).trans_eq h.nextSeq.symm, fun r hr => ?_, ?_, ?_⟩
  · rw [h.stored]
    exact (hleft r hr).imp_right fun hle => Nat.le_trans hle h.highMark
  · rw [h.stored]
    exact hentered
  · rw [h.writing]
    exact hbegun

theorem NumberStep.refl (d : Dl) : NumberStep d d :=
  ⟨id, fun _ => ⟨Nat.le_refl _, fun _ => Nat.le_refl _, fun _ hr => .inl hr, fun _ hr => .inl hr, fun _ hw => .inl hw⟩⟩

/-- The law may be used to show what a step does to it. -/
theorem NumberStep.of_imp {d e : Dl} (h : Numbered d → NumberStep d e) : NumberStep d e :=
  ⟨fun hd => (h hd).numbered hd, fun hd => (h hd).kept hd⟩

theorem NumberStep.of_kept {s t : State} (h : LogKept s t) : NumberStep s.dl t.dl := (NumberStep.refl s.dl).before h

/-! ## Segments that lose their records -/

/-- Records taken from segments are taken from the store. -/
theorem stored_sublist {d e : Dl} (h : ∀ i : SegNo, e.segs[i].records = d.segs[i].records ∨ e.segs[i].records = []) :
    e.stored.Sublist d.stored := by
  have hseg (i : SegNo) : (e.segs[i].records).Sublist d.segs[i].records := by
    rcases h i with h | h <;> rw [h]
    exact List.nil_sublist _
  rw [stored_eq, stored_eq]
  induction allSegs with
  | nil => exact .refl _
  | cons i l ih => exact (hseg i).append ih

/-- The log stays numbered when no record is written and segments lose records or change their states as R170 allows. -/
theorem Numbered.shrunk {d e : Dl} (h : Numbered d) (hsources : e.sources.Nodup) (hwriting : e.writing = none)
    (hrecs : ∀ i : SegNo, e.segs[i].records = d.segs[i].records ∨ e.segs[i].records = [])
    (hactive : ∀ i j : SegNo, e.segs[i].state = .ACTIVE → e.segs[j].state = .ACTIVE → i = j)
    (hreclaiming : ∀ i : SegNo, e.segs[i].state = .RECLAIMING → d.segs[i].state = .RECLAIMING)
    (hempty : ∀ i : SegNo, e.segs[i].state = .ERASED ∨ e.segs[i].state = .DAMAGED → e.segs[i].records = [])
    (hbelow : ∀ r ∈ e.stored, r.seq < e.nextSeq) (hhigh : e.highMark = d.highMark) (hlt : d.highMark < e.nextSeq)
    (hreclaim : ∀ r ∈ e.reclaim, e.segs[r.seg].state = .RECLAIMING) : Numbered e where
  sources := hsources
  nodup := h.nodup.sublist ((stored_sublist hrecs).map _)
  below := hbelow
  highMark := hhigh ▸ hlt
  writing := fun w hw => by rw [hwriting] at hw; exact nomatch hw
  oneActive := hactive
  oneReclaiming := fun i j hi hj => h.oneReclaiming i j (hreclaiming i hi) (hreclaiming j hj)
  empty := hempty
  lost := fun i hi r hr => by
    rcases hrecs i with hsame | hnone
    · rw [hhigh]
      exact h.lost i (hreclaiming i hi) r (hsame ▸ hr)
    · rw [hnone] at hr
      exact nomatch hr
  reclaim := hreclaim

/-- Nothing enters the store, and what leaves it is under the high mark. -/
theorem numbersKept_shrunk {d e : Dl} (hhigh : e.highMark = d.highMark)
    (hnext : d.scan = false → e.nextSeq = d.nextSeq) (hwriting : e.writing = none)
    (hrecs : ∀ i : SegNo, e.segs[i].records = d.segs[i].records ∨
      (e.segs[i].records = [] ∧ ∀ r ∈ d.segs[i].records, r.seq ≤ d.highMark)) : NumbersKept d e := by
  refine ⟨Nat.le_of_eq hhigh.symm, fun hs => Nat.le_of_eq (hnext hs).symm, fun r hr => ?_, fun r hr => ?_, ?_⟩
  · obtain ⟨i, hi⟩ := mem_stored.1 hr
    rcases hrecs i with hsame | ⟨-, hlost⟩
    · exact .inl (mem_stored.2 ⟨i, hsame ▸ hi⟩)
    · exact .inr (hhigh ▸ hlost r hi)
  · exact .inl ((stored_sublist fun i => (hrecs i).imp_right (·.1)).subset hr)
  · rw [hwriting]
    exact fun _ hw => nomatch hw

/-! ## Serving an append (R174 to R177) -/

/-- A write begins with the next number in an ACTIVE segment. -/
theorem numberStep_begun {d : Dl} {a : Append} {q : List Append} {w : Writing} (hqueue : d.queue = a :: q)
    (hidle : d.writing = none) (hscan : d.scan = false) (hsource : w.source = a.source) (hseq : w.seq = d.nextSeq)
    (hseg : d.segs[w.seg].state = .ACTIVE) (hopened : w.opened = true → d.segs[w.seg].records = []) :
    NumberStep d { d with queue := d.queue.drop 1, nextSeq := d.nextSeq + 1, writing := some w } where
  numbered h := {
    sources := by
      have hsources := h.sources
      simp only [Dl.sources, hidle, hqueue, Option.toList_none, List.map_nil, List.nil_append, List.map_cons] at hsources
      simpa [Dl.sources, hsource, hqueue] using hsources
    nodup := h.nodup
    below := fun r hr => Nat.lt_succ_of_lt (h.below r hr)
    highMark := Nat.lt_succ_of_lt h.highMark
    writing := fun v hv => by
      obtain rfl : w = v := Option.some.inj hv
      exact ⟨hscan, hseq ▸ Nat.lt_succ_self _, hseg, hopened, fun r hr => hseq ▸ h.below r hr⟩
    oneActive := h.oneActive
    oneReclaiming := h.oneReclaiming
    empty := h.empty
    lost := h.lost
    reclaim := h.reclaim }
  kept _ := ⟨Nat.le_refl _, fun _ => Nat.le_succ _, fun _ hr => .inl hr, fun _ hr => .inl hr, fun v hv => by
    obtain rfl : w = v := Option.some.inj hv
    exact .inr hseq⟩

theorem active_state {d : Dl} {i : SegNo} (h : d.active = some i) : d.segs[i].state = .ACTIVE := by
  simpa using List.find?_some h

theorem nextErased_state {d : Dl} {i : SegNo} (h : nextErased d = some i) : d.segs[i].state = .ERASED := by
  simpa using List.find?_some h

/-- Of the segments an opening makes one ACTIVE and empty, and closes the one that was ACTIVE. -/
theorem segs_opening (i j : SegNo) (o : Option Nat) (d : Dl) : (opening i o d).segs[j] =
    if i = j then { Segment.erased with state := .ACTIVE, opened := o }
    else if d.active = some j then closeSeg .FILLED d.segs[j] else d.segs[j] := by
  unfold opening
  rcases hactive : d.active with _ | k
  · simp only [segs_modSeg, reduceCtorEq, if_false]
  · simp only [segs_modSeg, Option.some.injEq]
    split
    · rfl
    · split
      · rename_i hk; subst hk; rfl
      · rfl

/-- The first of the ACTIVE segments is found. -/
theorem active_of_state {d : Dl} (h : Numbered d) {j : SegNo} (hj : d.segs[j].state = .ACTIVE) : d.active = some j := by
  rcases hfind : d.active with _ | k
  · have := List.find?_eq_none.1 hfind j (List.mem_finRange j)
    exact absurd hj (by simpa using this)
  · rw [h.oneActive k j (active_state hfind) hj]

/-- Opening an ERASED segment keeps the log numbered. -/
theorem numbered_opening {d : Dl} {i : SegNo} (o : Option Nat) (h : Numbered d) (hidle : d.writing = none)
    (hi : d.segs[i].state = .ERASED) : Numbered (opening i o d) ∧ (opening i o d).stored = d.stored := by
  have hframe := opening_frame i o d
  have hsegs (j : SegNo) := segs_opening i j o d
  have hstored : (opening i o d).stored = d.stored := stored_congr fun j => by
    rw [hsegs]
    split
    · rename_i hj
      rw [← hj, h.empty i (.inl hi)]
      rfl
    · split <;> rfl
  have hstate (j : SegNo) (hj : (opening i o d).segs[j].state = .ACTIVE) : i = j := by
    rw [hsegs] at hj
    split at hj
    · assumption
    · split at hj
      · simp [closeSeg] at hj
      · exact absurd (active_of_state h hj) ‹_›
  have hother (j : SegNo) (st : SegState) (hst : st ≠ .ACTIVE) (hst' : st ≠ .CLOSED)
      (hj : (opening i o d).segs[j].state = st) : d.segs[j].state = st ∧ (opening i o d).segs[j] = d.segs[j] := by
    rw [hsegs] at hj ⊢
    split at hj
    · exact absurd hj.symm hst
    · split at hj
      · exact absurd hj.symm hst'
      · rw [if_neg ‹_›, if_neg ‹_›]
        exact ⟨hj, rfl⟩
  refine ⟨h.shrunk (by rw [hframe]; exact h.sources) (by rw [hframe]; exact hidle) (fun j => ?_)
    (fun j k hj hk => (hstate j hj).symm.trans (hstate k hk)) (fun j hj => (hother j .RECLAIMING nofun nofun hj).1)
    (fun j hj => ?_) (fun r hr => ?_) (by rw [hframe]) (by rw [hframe]; exact h.highMark) (fun r hr => ?_), hstored⟩
  · rw [hsegs]
    split
    · exact .inr rfl
    · split <;> exact .inl rfl
  · rcases hj with hj | hj
    · obtain ⟨hd, he⟩ := hother j .ERASED nofun nofun hj
      rw [he]
      exact h.empty j (.inl hd)
    · obtain ⟨hd, he⟩ := hother j .DAMAGED nofun nofun hj
      rw [he]
      exact h.empty j (.inr hd)
  · rw [hstored] at hr
    rw [hframe]
    exact h.below r hr
  · rw [hframe] at hr
    have hrec := h.reclaim r hr
    have hne : i ≠ r.seg := by rintro rfl; rw [hi] at hrec; exact nomatch hrec
    have hnot : d.active ≠ some r.seg := fun ha => by rw [active_state ha] at hrec; exact nomatch hrec
    rw [hsegs, if_neg hne, if_neg hnot]
    exact hrec

/-- Opening an ERASED segment, with what is told of it. -/
theorem logKept_openSegment {s : State} {i : SegNo} (h : Numbered s.dl) (hidle : s.dl.writing = none)
    (hi : s.dl.segs[i].state = .ERASED) : LogKept s (openSegment i s) := by
  obtain ⟨c, fs, heq⟩ := openSegment_eq i s
  rw [heq]
  obtain ⟨hnumbered, hstored⟩ := numbered_opening (if s.ck.isSet then some s.ck.count else none) h hidle hi
  have hopen : LogKept s (s.modDl (opening i (if s.ck.isSet then some s.ck.count else none))) :=
    ⟨by rw [State.dl_modDl, opening_frame], by rw [State.dl_modDl, opening_frame], by rw [State.dl_modDl, opening_frame],
      hstored, by rw [State.dl_modDl, opening_frame], fun _ => (logNumbered_iff (State.modDl s _)).2 hnumbered⟩
  exact hopen.trans (Kept.raiseIf (by simp [noticeKinds]) _ _ _).log

/-- The head append may leave the queue without a write. -/
theorem logKept_dropHead (s : State) : LogKept s (s.modDl fun d => { d with queue := d.queue.drop 1 }) := by
  refine ⟨rfl, rfl, rfl, rfl, Nat.le_refl _, fun h => ?_⟩
  obtain ⟨hsources, hrest⟩ := h
  refine ⟨hsources.sublist ?_, hrest⟩
  exact (List.Sublist.refl _).append ((List.drop_sublist 1 _).map _)

theorem logKept_refuseAppend (a : Append) (s : State) : LogKept s (refuseAppend a s) := by
  have hsource := (logKept_dropHead s).trans (Kept.reportRefused a.source a.record _).log
  have hcount (t : State) : LogKept t (t.modDl fun d => { d with refused := satAdd Config.maxCount16 d.refused 1 }) :=
    .of_marks rfl rfl rfl rfl rfl rfl fun _ => ⟨rfl, rfl⟩
  have htold := (hsource.trans (hcount _)).trans (Kept.tellSpace _).log
  unfold refuseAppend
  dsimp only
  split
  · exact htold.trans (Kept.raise (by simp [noticeKinds]) _ _).log
  · exact htold

/-- The places of R175: the ACTIVE segment, else an ERASED one. -/
theorem placeFor_fits {d : Dl} {k : Nat} {i : SegNo} (h : placeFor d k = .fits i) : d.segs[i].state = .ACTIVE := by
  unfold placeFor at h
  split at h
  · exact nomatch h
  · split at h
    · rename_i j hj
      obtain rfl : j = i := Place.fits.inj h
      exact active_state (Option.eq_some_of_filter_eq_some hj)
    · split at h <;> exact nomatch h

theorem placeFor_opens {d : Dl} {k : Nat} {i : SegNo} (h : placeFor d k = .opens i) : d.segs[i].state = .ERASED := by
  unfold placeFor at h
  split at h
  · exact nomatch h
  · split at h
    · exact nomatch h
    · split at h
      · rename_i j hj
        obtain rfl : j = i := Place.opens.inj h
        exact nextErased_state hj
      · exact nomatch h

/-- Opening a segment neither takes the append from the queue nor starts a scan. -/
theorem queue_openSegment (i : SegNo) (s : State) : (openSegment i s).dl.queue = s.dl.queue := by
  obtain ⟨c, fs, heq⟩ := openSegment_eq i s
  rw [heq, dl_raiseIf, State.dl_modDl, opening_frame]

theorem segs_openSegment (i : SegNo) (s : State) : (openSegment i s).dl.segs[i] =
    { Segment.erased with state := .ACTIVE, opened := if s.ck.isSet then some s.ck.count else none } := by
  obtain ⟨c, fs, heq⟩ := openSegment_eq i s
  rw [heq, dl_raiseIf, State.dl_modDl, segs_opening, if_pos rfl]

theorem numberStep_serveAppend (s : State) : NumberStep s.dl (serveAppend s).dl := by
  unfold serveAppend
  split
  · exact .refl _
  rename_i hidle
  simp only [Bool.or_eq_true, not_or, Bool.not_eq_true, Option.isSome_eq_false_iff, Option.isNone_iff_eq_none] at hidle
  obtain ⟨hscan, hidle⟩ := hidle
  split
  · exact .refl _
  rename_i a q hqueue
  split
  · rename_i i hplace
    exact numberStep_begun (w := ⟨a.source, _, _, i, false⟩) hqueue hidle hscan rfl rfl (placeFor_fits hplace) nofun
  · rename_i i hplace
    refine .of_imp fun h => ?_
    have hopen := logKept_openSegment h hidle (placeFor_opens hplace)
    have hseg := segs_openSegment i s
    exact NumberStep.after hopen (numberStep_begun (w := ⟨a.source, _, _, i, true⟩) ((queue_openSegment i s).trans hqueue)
      (hopen.writing.trans hidle) (hopen.scan.trans hscan) rfl rfl (by rw [hseg]) fun _ => by rw [hseg]; rfl)
  · exact .of_kept (logKept_refuseAppend a s)

/-! ## A write that completes (R177, R178) -/

/-- A record more in one segment is a record more in the store. -/
theorem stored_perm {d e : Dl} {i : SegNo} {r : StoredRec}
    (h : ∀ j : SegNo, e.segs[j].records = if i = j then d.segs[j].records ++ [r] else d.segs[j].records) :
    e.stored.Perm (r :: d.stored) := by
  have hother (l : List SegNo) (hl : i ∉ l) :
      (l.flatMap fun j => e.segs[j].records) = l.flatMap fun j => d.segs[j].records :=
    List.flatMap_congr fun j hj => by rw [h, if_neg fun hij : i = j => hl (hij ▸ hj)]
  obtain ⟨pre, post, hsplit, hpre⟩ := List.eq_append_cons_of_mem (List.mem_finRange i)
  have hpost : i ∉ post := by
    have hnodup : (pre ++ i :: post).Nodup := hsplit ▸ List.nodup_finRange 32
    exact (List.nodup_cons.1 (List.nodup_append.1 hnodup).2.1).1
  rw [stored_eq, stored_eq, allSegs, hsplit, List.flatMap_append, List.flatMap_append, List.flatMap_cons,
    List.flatMap_cons, hother pre hpre, hother post hpost, h, if_pos rfl]
  have hmiddle := List.perm_middle (a := r) (l₁ := (pre.flatMap fun j => d.segs[j].records) ++ d.segs[i].records)
    (l₂ := post.flatMap fun j => d.segs[j].records)
  simpa only [List.append_assoc, List.singleton_append] using hmiddle

theorem segs_placeRecord (w : Writing) (c : Option Word16) (d : Dl) (j : SegNo) : (placeRecord w c d).segs[j] =
    if w.seg = j then { d.segs[j] with records := d.segs[j].records ++ [⟨w.seq, w.record, c⟩] } else d.segs[j] := by
  have h := segs_modSeg w.seg j (fun g => { g with records := g.records ++ [⟨w.seq, w.record, c⟩] }) d
  refine h.trans ?_
  split
  · rename_i hj; subst hj; rfl
  · rfl

/-- A record enters the store with the number it was begun with. -/
theorem numberStep_placed {d : Dl} {w : Writing} (c : Option Word16) (hw : d.writing = some w) :
    NumberStep d (placeRecord w c d) := by
  refine .of_imp fun h => ?_
  obtain ⟨-, hseq, hactive, -, hnew⟩ := h.writing w hw
  have hsegs := segs_placeRecord w c d
  have hstate (j : SegNo) : (placeRecord w c d).segs[j].state = d.segs[j].state := by
    rw [hsegs]; split <;> rfl
  have hother (j : SegNo) (hj : d.segs[j].state ≠ .ACTIVE) : (placeRecord w c d).segs[j].records = d.segs[j].records := by
    rw [hsegs, if_neg fun e : w.seg = j => hj (e ▸ hactive)]
  have hperm : (placeRecord w c d).stored.Perm (⟨w.seq, w.record, c⟩ :: d.stored) :=
    stored_perm (i := w.seg) fun j => by rw [hsegs]; split <;> rfl
  have hmem (r : StoredRec) : r ∈ (placeRecord w c d).stored ↔ r = ⟨w.seq, w.record, c⟩ ∨ r ∈ d.stored := by
    rw [hperm.mem_iff, List.mem_cons]
  refine ⟨fun h => ⟨?_, ?_, fun r hr => ?_, h.highMark, nofun, fun i j hi hj => ?_, fun i j hi hj => ?_, fun i hi => ?_,
    fun i hi r hr => ?_, fun r hr => ?_⟩, fun _ => ⟨Nat.le_refl _, fun _ => Nat.le_refl _, fun r hr => .inl ((hmem r).2 (.inr hr)),
    fun r hr => ?_, nofun⟩⟩
  · refine h.sources.sublist ?_
    exact (List.nil_sublist _).append (.refl _)
  · rw [(hperm.map (·.seq)).nodup_iff, List.map_cons, List.nodup_cons]
    refine ⟨fun hmem => ?_, h.nodup⟩
    obtain ⟨r, hr, heq⟩ := List.mem_map.1 hmem
    exact absurd heq (Nat.ne_of_lt (hnew r hr))
  · rcases (hmem r).1 hr with rfl | hr
    · exact hseq
    · exact h.below r hr
  · rw [hstate] at hi hj
    exact h.oneActive i j hi hj
  · rw [hstate] at hi hj
    exact h.oneReclaiming i j hi hj
  · rw [hstate] at hi
    rw [hother i fun ha => by rw [ha] at hi; exact hi.elim nofun nofun]
    exact h.empty i hi
  · rw [hstate] at hi
    rw [hother i fun ha => by rw [ha] at hi; exact nomatch hi] at hr
    exact h.lost i hi r hr
  · rw [hstate]
    exact h.reclaim r hr
  · rcases (hmem r).1 hr with rfl | hr
    · exact .inr ⟨w, hw, rfl⟩
    · exact .inl hr

/-- Of the log the append queue alone changed. -/
def QueueAlone (s t : State) : Prop := t.dl = { s.dl with queue := t.dl.queue }

theorem QueueAlone.of_eq {s t : State} (h : t.dl = s.dl) : QueueAlone s t := by
  unfold QueueAlone
  rw [h]

theorem QueueAlone.postFrom {s t : State} (src : LogSource) (h : t.dl = s.dl) : QueueAlone s (postFrom src t) := by
  unfold QueueAlone
  rw [dl_postFrom, h]

theorem dl_dtComplete (v : Nat) (b : Bay) (doc : String) (s : State) : (dtComplete v b doc s).dl = s.dl := rfl

/-- A source that is told of its written record changes of the log the queue at most. -/
theorem queueAlone_reportWritten (src : LogSource) (r : LogRec) (seq : Nat) (s : State) :
    QueueAlone s (reportWritten src r seq s) := by
  cases src with
  | DV => exact .of_eq rfl
  | CK => exact .postFrom .CK (t := s.modCk fun c => { c with outbox := c.outbox.drop 1 }) rfl
  | DT => exact .postFrom .DT (t := s.modDt fun d => { d with outbox := d.outbox.drop 1 }) rfl
  | ST => exact .of_eq rfl
  | B b =>
    show QueueAlone s (bayWritten b r s)
    unfold bayWritten
    split
    · dsimp only
      refine .postFrom (.B b) (t := State.modBay _ b _) ?_
      split
      · exact dl_changeBay ..
      · rfl
    · exact .postFrom (.B b) (t := s.modBay b _) rfl

/-- The segment of a written DAY_CLOSE record closes. -/
theorem logKept_closeDay {s : State} {i : SegNo} (n : DayCounts) (hi : s.dl.segs[i].state = .ACTIVE)
    (hidle : s.dl.writing = none) :
    LogKept s (s.modDl fun d => { modSeg i (closeSeg .DAY) d with day := n }) := by
  have hsegs (j : SegNo) : (modSeg i (closeSeg .DAY) s.dl).segs[j] =
      if i = j then closeSeg .DAY s.dl.segs[i] else s.dl.segs[j] := segs_modSeg ..
  have hrecs (j : SegNo) : (modSeg i (closeSeg .DAY) s.dl).segs[j].records = s.dl.segs[j].records := by
    rw [hsegs]
    split
    · rename_i hj; rw [← hj]; rfl
    · rfl
  have hstate (j : SegNo) (st : SegState) (hst : st ≠ .CLOSED) (hj : (modSeg i (closeSeg .DAY) s.dl).segs[j].state = st) :
      s.dl.segs[j].state = st := by
    rw [hsegs] at hj
    split at hj
    · exact absurd hj.symm hst
    · exact hj
  refine ⟨rfl, rfl, rfl, stored_congr hrecs, Nat.le_refl _, fun h => (logNumbered_iff (State.modDl s _)).2 ?_⟩
  rw [logNumbered_iff] at h
  refine h.shrunk h.sources hidle (fun j => .inl (hrecs j)) (fun j k hj hk => ?_)
    (fun j hj => hstate j .RECLAIMING nofun hj) (fun j hj => (hrecs j).trans (h.empty j ?_)) (fun r hr => ?_) rfl h.highMark
    fun r hr => ?_
  · exact h.oneActive j k (hstate j .ACTIVE nofun hj) (hstate k .ACTIVE nofun hk)
  · exact hj.imp (hstate j .ERASED nofun) (hstate j .DAMAGED nofun)
  · exact h.below r (stored_congr hrecs ▸ hr)
  · have hrec := h.reclaim r hr
    have hne : i ≠ r.seg := by rintro rfl; rw [hi] at hrec; exact nomatch hrec
    exact (congrArg Segment.state ((hsegs r.seg).trans (if_neg hne))).trans hrec

theorem numberStep_writeDone (s : State) : NumberStep s.dl (writeDone s).dl := by
  unfold writeDone
  split
  · exact .refl _
  rename_i w hw
  refine .of_imp fun h => ?_
  obtain ⟨-, -, hactive, -, -⟩ := h.writing w hw
  have hplaced : NumberStep s.dl (s.modDl fun d => { placeRecord w (some (recordCheck w.seq w.record)) d with
      day := countRecord w.record.body (placeRecord w (some (recordCheck w.seq w.record)) d).day }).dl :=
    NumberStep.before (t := s.modDl (placeRecord w (some (recordCheck w.seq w.record)))) (numberStep_placed _ hw)
      (.of_marks rfl rfl rfl rfl rfl rfl fun _ => ⟨rfl, rfl⟩)
  have hsource := hplaced.before (Kept.reportWritten w.source w.record w.seq _).log
  have hqueue := queueAlone_reportWritten w.source w.record w.seq
    (s.modDl fun d => { placeRecord w (some (recordCheck w.seq w.record)) d with
      day := countRecord w.record.body (placeRecord w (some (recordCheck w.seq w.record)) d).day })
  dsimp only
  split
  · refine hsource.before ((logKept_closeDay _ ?_ ?_).trans (Kept.raise (by simp [noticeKinds]) _ _).log)
    · rw [hqueue]
      refine (congrArg Segment.state (segs_placeRecord w _ s.dl w.seg)).trans ?_
      rw [if_pos rfl]
      exact hactive
    · rw [hqueue]
      rfl
  · exact hsource

end Sys2Proof.Proofs.LogNumbers

/-! PROOFS. The sequence numbers over an erase, a scan, a start and every other row (R173, R186 to R189, R192). -/

namespace Sys2Proof.Proofs.LogNumbers

open Sys2Proof Sys2Proof.Machine Sys2Proof.Laws.Basic Sys2Proof.Laws.Log Sys2Proof.Proofs.Steps Sys2Proof.Proofs.Keeping
open Sys2Proof.Proofs.Telling

/-! ## An erase that ends (R186) -/

theorem numberStep_erased {d : Dl} {r : Reclaim} (hr : d.reclaim = some r) (hidle : d.writing = none) :
    NumberStep d { modSeg r.seg (fun _ => Segment.erased) d with reclaim := none } := by
  refine .of_imp fun h => ?_
  have hrec := h.reclaim r hr
  have hsegs (j : SegNo) : (modSeg r.seg (fun _ => Segment.erased) d).segs[j] =
      if r.seg = j then Segment.erased else d.segs[j] := segs_modSeg ..
  have hstate (j : SegNo) (st : SegState) (hst : st ≠ .ERASED)
      (hj : (modSeg r.seg (fun _ => Segment.erased) d).segs[j].state = st) : d.segs[j].state = st := by
    rw [hsegs] at hj
    split at hj
    · exact absurd hj.symm hst
    · exact hj
  have hrecs (j : SegNo) : (modSeg r.seg (fun _ => Segment.erased) d).segs[j].records = d.segs[j].records ∨
      ((modSeg r.seg (fun _ => Segment.erased) d).segs[j].records = [] ∧ ∀ x ∈ d.segs[j].records, x.seq ≤ d.highMark) := by
    rw [hsegs]
    split
    · rename_i hj; subst hj; exact .inr ⟨rfl, h.lost r.seg hrec⟩
    · exact .inl rfl
  refine ⟨fun h => h.shrunk h.sources hidle (fun j => (hrecs j).imp_right (·.1)) (fun j k hj hk => ?_)
    (fun j hj => hstate j .RECLAIMING nofun hj) (fun j hj => ?_) (fun x hx => ?_) rfl h.highMark nofun,
    fun _ => numbersKept_shrunk rfl (fun _ => rfl) hidle hrecs⟩
  · exact h.oneActive j k (hstate j .ACTIVE nofun hj) (hstate k .ACTIVE nofun hk)
  · have hcases := hsegs j
    split at hcases
    · exact congrArg Segment.records hcases
    · refine (congrArg Segment.records hcases).trans (h.empty j ?_)
      exact hj.imp (fun hj => (congrArg Segment.state hcases).symm.trans hj) (hstate j .DAMAGED nofun)
  · exact h.below x ((stored_sublist fun j => (hrecs j).imp_right (·.1)).subset hx)

theorem numberStep_reclaimDone (s : State) : NumberStep s.dl (reclaimDone s).dl := by
  unfold reclaimDone
  split
  · exact .refl _
  rename_i r hr
  split
  · rename_i hfree
    have hidle : s.dl.writing = none := by
      simp only [Dl.storeFree, Bool.and_eq_true, Option.isNone_iff_eq_none] at hfree
      exact hfree.1
    exact NumberStep.before (t := s.modDl fun d => { modSeg r.seg (fun _ => Segment.erased) d with reclaim := none })
      (numberStep_erased hr hidle)
      ((Kept.tellReclaim _ _ _).trans (.tellSpaceIfPending _)).log
  · exact .refl _

/-! ## A scan (R187 to R189) -/

/-- What the scan makes of a segment: a RECLAIMING one is DAMAGED and empty, an ACTIVE one may close. -/
theorem scanSegment_records (g : Segment) :
    (scanSegment g).records = g.records ∨ ((scanSegment g).records = [] ∧ g.state = .RECLAIMING) := by
  unfold scanSegment
  split
  · exact .inr ⟨rfl, ‹_›⟩
  · split <;> exact .inl rfl
  · exact .inl rfl

theorem scanSegment_state {g : Segment} (h : (scanSegment g).state = .ACTIVE) : g.state = .ACTIVE := by
  unfold scanSegment at h
  split at h
  · exact nomatch h
  · assumption
  · exact h

theorem scanSegment_ne_reclaiming (g : Segment) : (scanSegment g).state ≠ .RECLAIMING := by
  unfold scanSegment
  split
  · exact nofun
  · split
    · exact nofun
    · rw [‹g.state = .ACTIVE›]; exact nofun
  · assumption

theorem scanSegment_empty {g : Segment} (hg : g.state = .ERASED ∨ g.state = .DAMAGED → g.records = [])
    (h : (scanSegment g).state = .ERASED ∨ (scanSegment g).state = .DAMAGED) : (scanSegment g).records = [] := by
  unfold scanSegment at h ⊢
  split
  · rfl
  · rename_i hst
    rw [hst] at h
    dsimp only at h
    split at h
    · exact h.elim nofun nofun
    · rw [hst] at h; exact h.elim nofun nofun
  · rename_i h1 h2
    split at h
    · exact absurd ‹g.state = .RECLAIMING› h1
    · exact absurd ‹g.state = .ACTIVE› h2
    · exact hg h

/-- Segments are scanned, some or all, and the numbers stay: the record of a segment that a scan finds RECLAIMING is under
the high mark. -/
theorem numberStep_scanned {d e : Dl} (hsources : d.sources.Nodup → e.sources.Nodup) (hwriting : e.writing = none)
    (hreclaim : e.reclaim = none) (hhigh : e.highMark = d.highMark)
    (hsegs : ∀ i : SegNo, e.segs[i] = scanSegment d.segs[i] ∨ e.segs[i] = d.segs[i])
    (hnext : Numbered d → (d.scan = false → e.nextSeq = d.nextSeq) ∧ (∀ r ∈ e.stored, r.seq < e.nextSeq) ∧
      d.highMark < e.nextSeq) : NumberStep d e := by
  refine .of_imp fun h => ?_
  obtain ⟨hscan, hbelow, hlt⟩ := hnext h
  have hrecs (i : SegNo) : e.segs[i].records = d.segs[i].records ∨
      (e.segs[i].records = [] ∧ ∀ r ∈ d.segs[i].records, r.seq ≤ d.highMark) := by
    rcases hsegs i with hi | hi <;> rw [hi]
    · exact (scanSegment_records _).imp_right fun ⟨hnil, hst⟩ => ⟨hnil, h.lost i hst⟩
    · exact .inl rfl
  have hactive (i : SegNo) (hi : e.segs[i].state = .ACTIVE) : d.segs[i].state = .ACTIVE := by
    rcases hsegs i with hs | hs <;> rw [hs] at hi
    · exact scanSegment_state hi
    · exact hi
  refine ⟨fun h => h.shrunk (hsources h.sources) hwriting (fun i => (hrecs i).imp_right (·.1))
    (fun i j hi hj => h.oneActive i j (hactive i hi) (hactive j hj)) (fun i hi => ?_) (fun i hi => ?_) hbelow hhigh hlt
    (fun r hr => by rw [hreclaim] at hr; exact nomatch hr), fun _ => numbersKept_shrunk hhigh hscan hwriting hrecs⟩
  · rcases hsegs i with hs | hs <;> rw [hs] at hi
    · exact absurd hi (scanSegment_ne_reclaiming _)
    · exact hi
  · rcases hsegs i with hs | hs <;> rw [hs] at hi ⊢
    · exact scanSegment_empty (h.empty i) hi
    · exact h.empty i hi

theorem segs_scanned (d : Dl) (i : SegNo) : (scanned d).segs[i] = scanSegment d.segs[i] := by
  simp [scanned]

theorem le_foldl_max (l : List Nat) (m : Nat) : m ≤ l.foldl max m ∧ ∀ n ∈ l, n ≤ l.foldl max m := by
  induction l generalizing m with
  | nil => exact ⟨Nat.le_refl _, nofun⟩
  | cons a l ih =>
    obtain ⟨hm, hl⟩ := ih (max m a)
    refine ⟨Nat.le_trans (Nat.le_max_left _ _) hm, ?_⟩
    rintro n (_ | ⟨_, hn⟩)
    · exact Nat.le_trans (Nat.le_max_right _ _) hm
    · exact hl n hn

/-- The segments as a scan leaves them. -/
def scannedSegs (d : Dl) : Dl := { d with segs := d.segs.map scanSegment }

/-- The number a scan finds is over the high mark and over every readable record. -/
theorem nextSeq_scanned (d : Dl) :
    (scanned d).nextSeq = (d.highMark :: (scannedSegs d).readable.map fun p => p.2.seq).foldl max 0 + 1 := rfl

theorem mem_readable {d : Dl} {i : SegNo} {r : StoredRec} :
    (i, r) ∈ d.readable ↔ (d.segs[i].state = .ACTIVE ∨ d.segs[i].state = .CLOSED) ∧ r ∈ d.segs[i].records := by
  unfold Dl.readable
  simp only [List.mem_flatMap]
  constructor
  · rintro ⟨j, -, h⟩
    split at h
    · obtain ⟨x, hx, heq⟩ := List.mem_map.1 h
      obtain ⟨rfl, rfl⟩ := Prod.mk.inj heq
      exact ⟨‹_›, hx⟩
    · exact nomatch h
  · rintro ⟨hst, hr⟩
    refine ⟨i, List.mem_finRange i, ?_⟩
    rw [if_pos hst]
    exact List.mem_map_of_mem hr

/-- After a scan every record of the store is readable. -/
theorem readable_of_stored_scanned {d : Dl} (h : Numbered d) {r : StoredRec} {i : SegNo}
    (hr : r ∈ (scanSegment d.segs[i]).records) : (i, r) ∈ (scannedSegs d).readable := by
  have hseg : (scannedSegs d).segs[i] = scanSegment d.segs[i] := segs_scanned d i
  rw [mem_readable, hseg]
  refine ⟨?_, hr⟩
  have hempty := scanSegment_empty (h.empty i)
  rcases hst : (scanSegment d.segs[i]).state
  · rw [hempty (.inl hst)] at hr; exact nomatch hr
  · exact .inl rfl
  · exact .inr rfl
  · exact absurd hst (scanSegment_ne_reclaiming _)
  · rw [hempty (.inr hst)] at hr; exact nomatch hr

theorem numberStep_scanEnds {d : Dl} (hscan : d.scan = true) : NumberStep d { scanned d with scan := false } := by
  refine .of_imp fun h => ?_
  have hidle : d.writing = none := by
    rcases hw : d.writing with _ | w
    · rfl
    · have := (h.writing w hw).1
      rw [hscan] at this
      exact nomatch this
  refine numberStep_scanned (fun hs => hs) hidle rfl rfl (fun i => .inl (segs_scanned d i)) fun h => ⟨fun hoff => ?_,
    fun r hr => ?_, ?_⟩
  · rw [hscan] at hoff; exact nomatch hoff
  · obtain ⟨i, hi⟩ := mem_stored.1 hr
    have hread := readable_of_stored_scanned h (i := i) (segs_scanned d i ▸ hi)
    show r.seq < (scanned d).nextSeq
    rw [nextSeq_scanned]
    exact Nat.lt_succ_of_le ((le_foldl_max _ _).2 _ (.tail _ (List.mem_map.2 ⟨_, hread, rfl⟩)))
  · show d.highMark < (scanned d).nextSeq
    rw [nextSeq_scanned]
    exact Nat.lt_succ_of_le ((le_foldl_max _ _).2 _ (.head _))

theorem numberStep_scanDone (s : State) : NumberStep s.dl (scanDone s).dl := by
  unfold scanDone
  split
  · rename_i hscan
    have hends : NumberStep s.dl (reportLog (s.modDl fun d => { scanned d with scan := false })).dl :=
      NumberStep.before (t := s.modDl fun d => { scanned d with scan := false }) (numberStep_scanEnds hscan)
        (Kept.reportLog _).log
    dsimp only
    have hcut (o : Option SegNo) : NumberStep s.dl (match o with
        | some i => tellReclaim "INTERRUPTED" i (reportLog (s.modDl fun d => { scanned d with scan := false }))
        | none => reportLog (s.modDl fun d => { scanned d with scan := false })).dl := by
      split
      · exact hends.before (Kept.tellReclaim _ _ _).log
      · exact hends
    split
    · exact (hcut _).before (Kept.tellSpace _).log
    · exact hcut _
  · exact .refl _

/-! ## The starts (R177, R188, R192) -/

theorem ne_of_states {d : Dl} {i j : SegNo} (hi : d.segs[i].state = .ACTIVE) (hj : d.segs[j].state = .RECLAIMING) : i ≠ j := by
  rintro rfl
  rw [hi] at hj
  exact nomatch hj

/-- A segment that was opened for a write cut off before it is ERASED again (R188). -/
theorem numberStep_unopened {d : Dl} {w : Writing} (hw : d.writing = some w) (hopened : w.opened = true) :
    NumberStep d { modSeg w.seg (fun _ => Segment.erased) d with writing := none } := by
  refine .of_imp fun h => ?_
  obtain ⟨-, -, hactive, hempty, -⟩ := h.writing w hw
  have hsegs (j : SegNo) : (modSeg w.seg (fun _ => Segment.erased) d).segs[j] =
      if w.seg = j then Segment.erased else d.segs[j] := segs_modSeg ..
  have hrecs (j : SegNo) : (modSeg w.seg (fun _ => Segment.erased) d).segs[j].records = d.segs[j].records := by
    rw [hsegs]
    split
    · rename_i hj; rw [← hj, hempty hopened]; rfl
    · rfl
  have hstate (j : SegNo) (st : SegState) (hst : st ≠ .ERASED)
      (hj : (modSeg w.seg (fun _ => Segment.erased) d).segs[j].state = st) : d.segs[j].state = st := by
    rw [hsegs] at hj
    split at hj
    · exact absurd hj.symm hst
    · exact hj
  refine ⟨fun h => h.shrunk (h.sources.sublist ((List.nil_sublist _).append (.refl _))) rfl (fun j => .inl (hrecs j))
    (fun j k hj hk => ?_) (fun j hj => hstate j .RECLAIMING nofun hj) (fun j hj => ?_) (fun x hx => ?_) rfl h.highMark
    (fun r hr => ?_), fun _ => numbersKept_shrunk rfl (fun _ => rfl) rfl fun j => .inl (hrecs j)⟩
  · exact h.oneActive j k (hstate j .ACTIVE nofun hj) (hstate k .ACTIVE nofun hk)
  · have hcases := hsegs j
    split at hcases
    · exact congrArg Segment.records hcases
    · refine (hrecs j).trans (h.empty j ?_)
      exact hj.imp (fun hj => (congrArg Segment.state hcases).symm.trans hj) (hstate j .DAMAGED nofun)
  · exact h.below x (stored_congr hrecs ▸ hx)
  · have hrec := h.reclaim r hr
    exact (congrArg Segment.state ((hsegs r.seg).trans (if_neg (ne_of_states hactive hrec)))).trans hrec

/-- A write that is cut off leaves no number twice (R177, log 42). -/
theorem numberStep_cutAppend (cut : CutPoint) (d : Dl) : NumberStep d (cutAppend cut d) := by
  rcases hw : d.writing with _ | w
  · rw [cutAppend_idle cut d hw]
    exact .refl d
  have hdropped : NumberStep d { d with writing := none } :=
    ⟨fun h => h.shrunk (h.sources.sublist ((List.nil_sublist _).append (.refl _))) rfl (fun _ => .inl rfl) h.oneActive
      (fun _ => id) h.empty h.below rfl h.highMark h.reclaim,
      fun _ => numbersKept_shrunk rfl (fun _ => rfl) rfl fun _ => .inl rfl⟩
  unfold cutAppend
  rw [hw]
  cases cut with
  | beforeFirstSlot => exact hdropped
  | torn => exact numberStep_placed none hw
  | completed => exact numberStep_placed _ hw
  | beforeOpening =>
    dsimp only
    split
    · exact numberStep_unopened hw ‹_›
    · exact hdropped

theorem writing_cutAppend (cut : CutPoint) (d : Dl) : (cutAppend cut d).writing = none := by
  rw [cutAppend_frame]

/-- The rest of what a start makes of the log: the queue is emptied, and a scan begins. -/
theorem NumberStep.scanBegun {d c : Dl} (h : NumberStep d c) (hidle : c.writing = none) (b : Bool) :
    NumberStep d { c with queue := [], refused := 0, cursor := none, reclaim := none, scan := true, accesses := 0,
                          countsFromStore := b } where
  numbered hd := by
    have hc := h.numbered hd
    exact hc.shrunk (by simp [Dl.sources, hidle]) hidle (fun _ => .inl rfl) hc.oneActive (fun _ => id) hc.empty hc.below rfl
      hc.highMark nofun
  kept := h.kept

theorem segs_cutScan_cases (wrote : List SegNo) (d : Dl) (i : SegNo) :
    (cutScan wrote d).segs[i] = scanSegment d.segs[i] ∨ (cutScan wrote d).segs[i] = d.segs[i] := by
  rcases hscan : d.scan
  · rw [cutScan_idle wrote d hscan]
    exact .inr rfl
  · rw [segs_cutScan wrote d i hscan]
    split
    · exact .inl rfl
    · exact .inr rfl

/-- A start makes of the log what R192 says: at most one of a write and a scan is cut off. -/
theorem numberStep_started (cold : Bool) (e : StartEnv) (d : Dl) : NumberStep d (d.started cold e) := by
  refine .of_imp fun h => ?_
  rcases hw : d.writing with _ | w
  · have hframe := cutScan_frame e.wrote d
    have hidle : (cutScan e.wrote d).writing = none := by rw [hframe]; exact hw
    have hsegs := segs_cutScan_cases e.wrote d
    have hstored : (cutScan e.wrote d).stored.Sublist d.stored := stored_sublist fun i => by
      rcases hsegs i with hi | hi <;> rw [hi]
      · exact (scanSegment_records _).imp_right (·.1)
      · exact .inl rfl
    have hnext : (cutScan e.wrote d).nextSeq = d.nextSeq := by rw [hframe]
    unfold Dl.started
    rw [cutAppend_idle e.cut d hw]
    refine numberStep_scanned (fun _ => ?_) hidle rfl ?_ hsegs fun h => ⟨fun _ => hnext, fun r hr => ?_, ?_⟩
    · simp [Dl.sources, hidle]
    · dsimp only
      rw [hframe]
    · exact (h.below r (hstored.subset hr)).trans_eq hnext.symm
    · exact h.highMark.trans_eq hnext.symm
  · have hscan : (cutAppend e.cut d).scan = false := by
      rw [cutAppend_frame]
      exact (h.writing w hw).1
    unfold Dl.started
    rw [cutScan_idle e.wrote _ hscan]
    exact (numberStep_cutAppend e.cut d).scanBegun (writing_cutAppend e.cut d) _

/-! ## Every row -/

theorem logKept_linkFree : LinkFree LogKept := ⟨.refl, .trans, fun _ _ => .of_eq rfl⟩

theorem logKept_foldl {α : Type} {f : State → α → State} (h : ∀ t a, LogKept t (f t a)) (l : List α) (s : State) :
    LogKept s (l.foldl f s) := by
  induction l generalizing s with
  | nil => exact .refl s
  | cons a l ih => exact (h s a).trans (ih _)

theorem logKept_restartBay (b : Bay) (s : State) : LogKept s (restartBay b s) :=
  .trans (t := s.modBay b BayUnit.warm) (.of_eq rfl) (Kept.restartBay b s).log

theorem logKept_restartBays (s : State) : LogKept s (restartBays s) := by
  have hbays : LogKept s (forBays restartBay s) := logKept_foldl (fun t b => logKept_restartBay b t) _ s
  unfold restartBays
  dsimp only
  split
  · exact hbays.trans (Kept.forBays Kept.closeBay _).log
  · exact hbays

theorem numberStep_warmStart (k : StartKind) (fromLoss : Bool) (e : StartEnv) (s : State) :
    NumberStep s.dl (warmStart k fromLoss e s).dl := by
  rw [warmStart_eq]
  have hbase : NumberStep s.dl (startBase k e s).dl := numberStep_started _ e s.dl
  have hwarm : LogKept (startBase k e s) (warmBase k e s) :=
    (Kept.reportDefaults (startBase k e s)).log.trans (.of_eq rfl)
  exact hbase.before ((((hwarm.trans (Kept.warmClock _ _).log).trans (logKept_restartBays _)).trans
    (Kept.startPosts k e _).log).trans (logKept_linkFree.pump_rel _))

theorem numberStep_coldStart (e : StartEnv) (s : State) : NumberStep s.dl (coldStart e s).dl := by
  rw [coldStart_eq]
  have hbase : NumberStep s.dl (startBase .COLD e s).dl := numberStep_started _ e s.dl
  have hday (t : State) : LogKept t (t.modDl fun d => { d with day := DayCounts.zero }) :=
    .of_marks rfl rfl rfl rfl rfl rfl fun _ => ⟨rfl, rfl⟩
  have hcold : LogKept (startBase .COLD e s) (coldBase e s) :=
    ((Kept.reportDefaults (startBase .COLD e s)).log.trans (hday _)).trans (.of_eq rfl)
  have hbays (t : State) : LogKept t (forBays (fun b t => t.modBay b (coldBay (t.entry b).enabled)) t) :=
    logKept_foldl (f := fun t b => t.modBay b (coldBay (t.entry b).enabled)) (fun _ _ => .of_eq rfl) _ t
  exact hbase.before (((hcold.trans (hbays _)).trans (Kept.startPosts .COLD e _).log).trans (logKept_linkFree.pump_rel _))

/-- A millisecond takes from the erase work alone (R185). -/
theorem logKept_elapse (s : State) : LogKept s (elapse s) := by
  have hwork : LogKept s (s.modDl Dl.elapse) := by
    have hmap {P : SegNo → Prop} (hP : ∀ x ∈ s.dl.reclaim, P x.seg) : ∀ r ∈ (Dl.elapse s.dl).reclaim, P r.seg := by
      rw [StepAndTick.dl_elapse]
      dsimp only
      split
      · intro r hr
        obtain ⟨x, hx, rfl⟩ := Option.map_eq_some_iff.1 hr
        exact hP x hx
      · exact hP
    have hframe := StepAndTick.dl_elapse s.dl
    refine ⟨by rw [State.dl_modDl, hframe], by rw [State.dl_modDl, hframe], by rw [State.dl_modDl, hframe],
      by rw [State.dl_modDl, hframe]; rfl, by rw [State.dl_modDl, hframe], fun h => ?_⟩
    obtain ⟨h1, h2, h3, h4, h5, h6, h7, h8, h9, h10⟩ := (logNumbered_iff s).1 h
    refine (logNumbered_iff (State.modDl s _)).2 ?_
    rw [State.dl_modDl]
    have hreclaim := hmap (P := fun i => s.dl.segs[i].state = .RECLAIMING) h10
    rw [hframe] at hreclaim ⊢
    exact ⟨h1, h2, h3, h4, h5, h6, h7, h8, h9, hreclaim⟩
  rcases hs : s.supply
  · rw [elapse, hs]
    exact .refl s
  · rw [StepAndTick.elapse_frame hs]
    exact hwork.trans (.of_eq rfl)

theorem logKept_supplyLost (s : State) : LogKept s (supplyLost s) := .of_eq (by rw [ClockRows.supplyLost_frame])

theorem logKept_unpowered (c : Instr) (s : State) : LogKept s (unpoweredAct c s) := by
  unfold unpoweredAct
  split
  · exact (Kept.dstReached s).log
  · exact .of_eq rfl
  · exact .of_eq rfl
  · exact .refl s

theorem logKept_act : ∀ c r s, effect c = some r → LogKept s (r.act s).1 := fun _ _ s he => (Kept.act he s).log

theorem numberStep_event {c : Instr} {f : State → State} (hf : poweredAct c = some f) (s : State) :
    NumberStep s.dl (f s).dl := by
  by_cases hlink : linkRow c = true
  · refine .of_kept ?_
    cases c <;> cases hlink <;> cases hf
    · rename_i v
      exact .trans (t := { s with supv := v }) (.of_eq rfl) (logKept_linkFree.receive_rel logKept_act _ _)
    · exact logKept_linkFree.silence_rel s
    · rename_i v
      exact .trans (t := { s with supv := v }) (.of_eq rfl) (logKept_linkFree.lineSent_rel logKept_act _)
    · exact .of_eq rfl
  by_cases hstart : startRow c = true
  · cases c <;> cases hstart <;> cases hf
    · dsimp only
      split
      · exact numberStep_warmStart ..
      · exact .refl _
    · exact numberStep_warmStart ..
  by_cases hlog : logRow c = true
  · cases c <;> cases hlog <;> cases hf
    · exact numberStep_serveAppend s
    · exact numberStep_writeDone s
    · exact numberStep_reclaimDone s
    · exact numberStep_scanDone s
  · exact .of_kept (Kept.event hf (by simpa using hlink) (by simpa using hstart) (by simpa using hlog) s).log

theorem numberStep_anySupply {c : Instr} {f : State → State} (hf : anySupplyAct c = some f) (s : State) :
    NumberStep s.dl (f s).dl := by
  have hlost : LogKept s (lossSeen s) := by
    unfold lossSeen
    split
    · exact logKept_supplyLost s
    · exact .refl s
  cases c <;> cases hf
  case coldStart e => exact numberStep_coldStart e s
  case warmStart e => exact .after hlost (numberStep_warmStart ..)
  case mainSupplyLoss => exact .of_kept hlost
  case clockTick => exact .refl _

theorem numberStep_after (c : Instr) (s : State) : NumberStep s.dl (after c s).dl := by
  rcases row_kinds c with ⟨r, he⟩ | ⟨he, f, hf⟩ | ⟨he, hp, f, hf⟩
  · rw [after_request he]
    split
    · exact .of_kept (.trans (t := { s with supv := r.hdr.supv }) (.of_eq rfl)
        (logKept_linkFree.acceptLine_rel logKept_act c _))
    · exact .refl _
  · rw [after_event he hf]
    split
    · exact (numberStep_event hf s).before (logKept_linkFree.pump_rel _)
    · exact .of_kept (logKept_unpowered c s)
  · rw [after_anySupply he hp hf]
    exact numberStep_anySupply hf s

/-- Settles O58: a row keeps every number, or is one of the few that begin, place, erase or find one. -/
theorem sequenceNumbersAreNeverReused : Obligations.SequenceNumbersAreNeverReused := by
  intro s t h hstep
  rw [logNumbered_iff] at h ⊢
  rcases step_cases hstep with ⟨_, rfl⟩ | ⟨c, rest, _, rfl⟩
  · have hkept := NumberStep.of_kept (logKept_elapse s)
    exact ⟨hkept.numbered h, hkept.kept h⟩
  · have hrow := numberStep_after c { s with pending := rest }
    exact ⟨hrow.numbered h, hrow.kept h⟩

end Sys2Proof.Proofs.LogNumbers

/-! PROOFS. The requests that edit the staging copy (R194 to R197). -/

namespace Sys2Proof.Proofs.SettingsEdits

open Sys2Proof Sys2Proof.Machine Sys2Proof.Proofs.Keeping Sys2Proof.Proofs.LinkRequests

theorem applying_iff (s : State) : s.applying = true ↔ s.st.apply ≠ none := Option.isSome_iff_ne_none

theorem applying_of_busy {s : State} (h : s.st.apply ≠ none) : s.applying = true := (applying_iff s).2 h

theorem applying_of_free {s : State} (h : s.st.apply = none) : s.applying = false := by rw [State.applying, h]; rfl

/-! ## Products (R194, R197) -/

/-- The ranges of R194, in the words of the statement. -/
theorem productTests_iff (a : ProductArgs) :
    (unInRange a.un && decide (a.aCold ≤ 30000) && decide (a.aHot ≤ 30000) && decide (a.bCold ≤ 255) &&
        decide (a.bHot ≤ 255)) = true ↔
      1 ≤ a.un ∧ a.un ≤ 3599 ∧ a.aCold ≤ 30000 ∧ a.aHot ≤ 30000 ∧ a.bCold ≤ 255 ∧ a.bHot ≤ 255 := by
  simp only [unInRange, Bool.and_eq_true, decide_eq_true_iff, and_assoc]
  exact Iff.rfl

section
variable {a : ProductArgs} {k : HazClass} {pg : PackGroup} {x : Group} (hk : a.cls = some k) (hpg : a.pg = some pg)
  (hx : a.group = some x)
include hk hpg hx

theorem productInRange_taken
    (hlegal : 1 ≤ a.un ∧ a.un ≤ 3599 ∧ a.aCold ≤ 30000 ∧ a.aHot ≤ 30000 ∧ a.bCold ≤ 255 ∧ a.bHot ≤ 255) :
    productInRange a = some ⟨a.code, a.un, k, pg, x, a.aCold, a.bCold, a.aHot, a.bHot⟩ := by
  simp only [productInRange, hk, hpg, hx, (productTests_iff a).2 hlegal, if_true]

theorem productInRange_refused
    (hillegal : ¬(1 ≤ a.un ∧ a.un ≤ 3599 ∧ a.aCold ≤ 30000 ∧ a.aHot ≤ 30000 ∧ a.bCold ≤ 255 ∧ a.bHot ≤ 255)) :
    productInRange a = none := by
  simp only [productInRange, hk, hpg, hx, if_neg fun h => hillegal ((productTests_iff a).1 h)]

end

theorem hasProduct_of_exists {c : Settings} {code : String} (h : ∃ y ∈ c.products, y.code = code) :
    c.hasProduct code = true := (hasProduct_iff c code).2 (List.mem_map.2 h)

theorem hasProduct_of_forall {c : Settings} {code : String} (h : ∀ y ∈ c.products, y.code ≠ code) :
    c.hasProduct code = false := by
  rw [← Bool.not_eq_true, hasProduct_iff, List.mem_map]
  exact fun ⟨y, hy, he⟩ => h y hy he

theorem putProduct_replace {p : Product} {c : Settings} (h : ∃ y ∈ c.products, y.code = p.code) :
    putProduct p c = { c with products := c.products.map fun y => if y.code = p.code then p else y } := by
  simp only [putProduct, hasProduct_of_exists h, if_true, beq_iff_eq]

theorem putProduct_add {p : Product} {c : Settings} (h : ∀ y ∈ c.products, y.code ≠ p.code) :
    putProduct p c = { c with products := c.products ++ [p] } := by
  simp only [putProduct, hasProduct_of_forall h, Bool.false_eq_true, if_false]

section
variable {a : ProductArgs} {p : Product} {s : State} (hp : productInRange a = some p)
include hp

theorem stSetProduct_busy (hbusy : s.st.apply ≠ none) : stSetProduct (some a) s = (s, er .BUSY) := by
  simp only [stSetProduct, hp, applying_of_busy hbusy, if_true]

variable (hfree : s.st.apply = none)
include hfree

theorem stSetProduct_full (hnew : ∀ y ∈ s.st.staging.products, y.code ≠ p.code) (hfull : 24 ≤ s.st.staging.products.length) :
    stSetProduct (some a) s = (s, er .TABLE_FULL) := by
  simp [stSetProduct, hp, applying_of_free hfree, hasProduct_of_forall hnew, Config.maxProducts, hfull]

theorem stSetProduct_added (hnew : ∀ y ∈ s.st.staging.products, y.code ≠ p.code) (hroom : s.st.staging.products.length < 24) :
    stSetProduct (some a) s = (modStaging (fun c => { c with products := c.products ++ [p] }) s,
      ok (sectionWord .PRODUCT :: productFields p)) := by
  have hput : modStaging (putProduct p) s = modStaging (fun c => { c with products := c.products ++ [p] }) s :=
    congrArg (fun c => { s with st := { s.st with staging := c } }) (putProduct_add hnew)
  simp [stSetProduct, hp, applying_of_free hfree, Config.maxProducts, Nat.not_le.2 hroom, hput]

theorem stSetProduct_replaced (hold : ∃ y ∈ s.st.staging.products, y.code = p.code) :
    stSetProduct (some a) s =
      (modStaging (fun c => { c with products := c.products.map fun y => if y.code = p.code then p else y }) s,
        ok (sectionWord .PRODUCT :: productFields p)) := by
  have hput : modStaging (putProduct p) s =
      modStaging (fun c => { c with products := c.products.map fun y => if y.code = p.code then p else y }) s :=
    congrArg (fun c => { s with st := { s.st with staging := c } }) (putProduct_replace hold)
  simp [stSetProduct, hp, applying_of_free hfree, hasProduct_of_exists hold, hput]

end

/-! ## Bays and hours (R196, R197) -/

/-- A SET of bay i, with the fields given. -/
abbrev bayArgs (i : Bay) (en : Option Bool) (f step pause : Option Nat) : BayArgs :=
  ⟨i.val + 1, en.map some, f, step, pause⟩

section
variable (i : Bay) (en : Option Bool) {f : Option Nat} (step pause : Option Nat) {s : State}

theorem stSetBay_range (h : ∃ n ∈ f, n < 5000 ∨ 20000 < n) :
    stSetBay (some (bayArgs i en f step pause)) s = (s, er .RANGE) := by
  have hbad : within 5000 20000 f = false := by
    rw [← Bool.not_eq_true, within_iff]
    obtain ⟨n, hn, hout⟩ := h
    exact fun hall => by have := hall n hn; omega
  have hn : 1 ≤ i.val + 1 ∧ i.val + 1 ≤ 8 := ⟨Nat.le_add_left _ _, i.isLt⟩
  simp [stSetBay, hn, hbad]

variable (h : ∀ n ∈ f, 5000 ≤ n ∧ n ≤ 20000)
include h

theorem stSetBay_busy (hbusy : s.st.apply ≠ none) :
    stSetBay (some (bayArgs i en f step pause)) s = (s, er .BUSY) := by
  have hn : 1 ≤ i.val + 1 ∧ i.val + 1 ≤ 8 := ⟨Nat.le_add_left _ _, i.isLt⟩
  have hen : (en.map some == some none) = false := by cases en <;> rfl
  simp [stSetBay, hn, hen, (within_iff _ _ _).2 h, applying_of_busy hbusy]

theorem stSetBay_taken (hfree : s.st.apply = none) :
    stSetBay (some (bayArgs i en f step pause)) s =
      (modStaging (fun c => { c with bays := c.bays.set i ⟨en.getD c.bays[i].enabled, f.getD c.bays[i].factor,
          (step.map clampStep).getD c.bays[i].step, (pause.map clampPause).getD c.bays[i].pause⟩ }) s,
        ok ([sectionWord .BAY, fld "N" (dec (i.val + 1))] ++ fldIf en "ENABLE" yesNo ++ fldIf f "F" dec ++
          fldIf step "STEP" (fun n => dec (clampStep n)) ++ fldIf pause "PAUSE" fun n => dec (clampPause n))) := by
  have hn : 1 ≤ i.val + 1 ∧ i.val + 1 ≤ 8 := ⟨Nat.le_add_left _ _, i.isLt⟩
  have hen : (en.map some == some none) = false := by cases en <;> rfl
  have hjoin : (en.map some).join = en := by cases en <;> rfl
  simp [stSetBay, hn, hen, (within_iff _ _ _).2 h, applying_of_free hfree, hjoin, putBay]

end

theorem hoursInRange_iff (a : HoursArgs) : hoursInRange a = true ↔
    (∀ n ∈ a.dDay, 240 ≤ n ∧ n ≤ 720) ∧ (∀ n ∈ a.dCont, 120 ≤ n ∧ n ≤ 360) ∧ (∀ n ∈ a.bMin, 15 ≤ n ∧ n ≤ 90) ∧
      (∀ n ∈ a.rDaily, 480 ≤ n ∧ n ≤ 720) ∧ (∀ n ∈ a.dWeek, 1800 ≤ n ∧ n ≤ 4200) ∧ ∀ n ∈ a.sSpan, 600 ≤ n ∧ n ≤ 960 := by
  simp only [hoursInRange, Bool.and_eq_true, within_iff, and_assoc]

theorem clampMargin_eq : clampMargin = min 120 := funext fun _ => Nat.zero_max _

/-- The fields of a SET HOURS that its reply gives back. -/
def hoursEcho (a : HoursArgs) : List Fld :=
  fldIf a.dDay "DDAY" dec ++ fldIf a.dCont "DCONT" dec ++ fldIf a.bMin "BMIN" dec ++ fldIf a.rDaily "RDAILY" dec ++
    fldIf a.dWeek "DWEEK" dec ++ fldIf a.sSpan "SSPAN" dec ++ fldIf a.margin "M" fun n => dec (clampMargin n)

section
variable {a : HoursArgs} {s : State}

theorem stSetHours_range (h : hoursInRange a = false) : stSetHours (some a) s = (s, er .RANGE) := by
  simp [stSetHours, h]

theorem stSetHours_busy (h : hoursInRange a = true) (hbusy : s.st.apply ≠ none) :
    stSetHours (some a) s = (s, er .BUSY) := by
  simp [stSetHours, h, applying_of_busy hbusy]

theorem stSetHours_taken (h : hoursInRange a = true) (hfree : s.st.apply = none) :
    stSetHours (some a) s = (modStaging (fun c => { c with hours := ⟨a.dDay.getD c.hours.dDay,
      a.dCont.getD c.hours.dCont, a.bMin.getD c.hours.bMin, a.rDaily.getD c.hours.rDaily, a.dWeek.getD c.hours.dWeek,
      a.sSpan.getD c.hours.sSpan, (a.margin.map (min 120)).getD c.hours.margin⟩ }) s,
      ok (sectionWord .HOURS :: hoursEcho a)) := by
  rw [← clampMargin_eq]
  simp [stSetHours, h, applying_of_free hfree, putHours, hoursEcho]

end

/-! ## The rest (R195 to R197) -/

section
variable {a : ToleranceArgs} {s : State}

theorem toleranceTests_iff (a : ToleranceArgs) : (within 1 100 a.abs && within 0 20 a.permille) = true ↔
    (∀ n ∈ a.abs, 1 ≤ n ∧ n ≤ 100) ∧ ∀ n ∈ a.permille, n ≤ 20 := by
  simp only [Bool.and_eq_true, within_iff, Nat.zero_le, true_and]

theorem stSetTolerance_range (h : ¬((∀ n ∈ a.abs, 1 ≤ n ∧ n ≤ 100) ∧ ∀ n ∈ a.permille, n ≤ 20)) :
    stSetTolerance (some a) s = (s, er .RANGE) := by
  rw [← toleranceTests_iff, Bool.not_eq_true] at h
  rw [stSetTolerance, ← Bool.not_and, h]
  rfl

variable (h : (∀ n ∈ a.abs, 1 ≤ n ∧ n ≤ 100) ∧ ∀ n ∈ a.permille, n ≤ 20)
include h

theorem stSetTolerance_legal : stSetTolerance (some a) s = if s.applying then (s, er .BUSY) else
    (modStaging (fun c => { c with tol := ⟨a.abs.getD c.tol.abs, a.permille.getD c.tol.permille⟩ }) s,
      ok (sectionWord .TOLERANCE :: (fldIf a.abs "ABS" dec ++ fldIf a.permille "PERMILLE" dec))) := by
  rw [stSetTolerance, ← Bool.not_and, (toleranceTests_iff a).2 h]
  rfl

end

/-- Settles O52: each request by its tests in their order, with what it writes to the staging copy. -/
theorem setsWriteTheStagingCopy : Obligations.SetsWriteTheStagingCopy := by
  intro h s hready g busy free refused staged
  have hbusyAct (hb : busy) : (underKey h s).applying = true := applying_of_busy hb
  have hfreeAct (hf : free) : (underKey h s).applying = false := applying_of_free (s := underKey h s) hf
  refine ⟨fun hb => ?_, fun hf => ?_, fun a k pg x hk hpg hx => ⟨fun hill => ?_, fun hlegal hb => ?_, fun hlegal hf =>
    ⟨fun hold => ?_, fun hnew => ⟨fun hroom => ?_, fun hfull => ?_⟩⟩⟩, fun c => ⟨fun hb => ?_, fun hf hnew => ?_, fun hf hold => ?_⟩,
    fun x y e => ⟨fun hb => ?_, fun hf => ?_⟩, fun i en f step pause => ⟨fun hbad => ?_, fun hok hb => ?_, fun hok hf => ?_⟩,
    fun a => ⟨fun hill => ?_, fun hlegal hb => ?_, fun hlegal hf => ?_⟩,
    fun a => ⟨fun hill => ?_, fun hlegal hb => ?_, fun hlegal hf => ?_⟩, fun d => ⟨fun hill => ?_, fun hlegal hb => ?_, fun hlegal hf => ?_⟩,
    fun m => ⟨fun h1 h10 => ?_, fun hlegal hb => ?_, fun hlegal hf => ?_⟩, fun m => ⟨fun hb => ?_, fun hf => ?_⟩⟩
  · refine exec_act (c := .stDiscard h (some ())) rfl hready ?_
    simp only [stDiscard, hbusyAct hb, if_true]
  · refine exec_act (c := .stDiscard h (some ())) rfl hready ?_
    simp only [stDiscard, hfreeAct hf]
    rfl
  · refine exec_act (c := .stSetProduct h (some a)) rfl hready ?_
    simp only [stSetProduct, productInRange_refused hk hpg hx hill]
  · exact exec_act (c := .stSetProduct h (some a)) rfl hready (stSetProduct_busy (productInRange_taken hk hpg hx hlegal) hb)
  · exact exec_act (c := .stSetProduct h (some a)) rfl hready
      (stSetProduct_replaced (productInRange_taken hk hpg hx hlegal) hf hold)
  · exact exec_act (c := .stSetProduct h (some a)) rfl hready
      (stSetProduct_added (productInRange_taken hk hpg hx hlegal) hf hnew hroom)
  · exact exec_act (c := .stSetProduct h (some a)) rfl hready
      (stSetProduct_full (productInRange_taken hk hpg hx hlegal) hf hnew hfull)
  · refine exec_act (c := .stSetProductDelete h (some c)) rfl hready ?_
    simp only [stSetProductDelete, hbusyAct hb, if_true]
  · refine exec_act (c := .stSetProductDelete h (some c)) rfl hready ?_
    simp only [stSetProductDelete, hfreeAct hf, hasProduct_of_forall (c := (underKey h s).st.staging) hnew]
    rfl
  · refine exec_act (c := .stSetProductDelete h (some c)) rfl hready ?_
    simp only [stSetProductDelete, hfreeAct hf, hasProduct_of_exists (c := (underKey h s).st.staging) hold]
    rfl
  · refine exec_act (c := .stSetSegregation h (some _)) rfl hready ?_
    simp only [stSetSegregation, hbusyAct hb, if_true]
  · refine ⟨putPair x y e g, exec_act (c := .stSetSegregation h (some _)) rfl hready ?_, rfl,
      fun u v => segEntry_putPair x y e g u v⟩
    simp only [stSetSegregation, hfreeAct hf]
    rfl
  · exact exec_act (c := .stSetBay h (some _)) rfl hready (stSetBay_range i en step pause hbad)
  · exact exec_act (c := .stSetBay h (some _)) rfl hready (stSetBay_busy i en step pause hok hb)
  · exact exec_act (c := .stSetBay h (some _)) rfl hready (stSetBay_taken i en step pause hok hf)
  · refine exec_act (c := .stSetHours h (some a)) rfl hready (stSetHours_range ?_)
    rw [← Bool.not_eq_true, hoursInRange_iff]
    exact hill
  · exact exec_act (c := .stSetHours h (some a)) rfl hready (stSetHours_busy ((hoursInRange_iff a).2 hlegal) hb)
  · exact ⟨hoursEcho a, exec_act (c := .stSetHours h (some a)) rfl hready
      (stSetHours_taken ((hoursInRange_iff a).2 hlegal) hf)⟩
  · exact exec_act (c := .stSetTolerance h (some a)) rfl hready (stSetTolerance_range hill)
  · refine exec_act (c := .stSetTolerance h (some a)) rfl hready ?_
    dsimp only
    rw [stSetTolerance_legal hlegal, hbusyAct hb]
    rfl
  · refine exec_act (c := .stSetTolerance h (some a)) rfl hready ?_
    dsimp only
    rw [stSetTolerance_legal hlegal, hfreeAct hf]
    rfl
  · refine exec_act (c := .stSetCalendar h (some d)) rfl hready ?_
    simp only [stSetCalendar, hill, if_true]
  · refine exec_act (c := .stSetCalendar h (some d)) rfl hready ?_
    simp only [stSetCalendar, Nat.not_lt.2 hlegal, hbusyAct hb, if_true, if_false]
  · refine exec_act (c := .stSetCalendar h (some d)) rfl hready ?_
    simp only [stSetCalendar, Nat.not_lt.2 hlegal, hfreeAct hf, if_false]
    rfl
  · refine exec_act (c := .stSetSampler h (some m)) rfl hready ?_
    simp only [stSetSampler, ne_eq, h1, h10, not_false_eq_true, and_self, if_true]
  · refine exec_act (c := .stSetSampler h (some m)) rfl hready ?_
    have hin : ¬(m ≠ 1 ∧ m ≠ 10) := by omega
    simp only [stSetSampler, hin, hbusyAct hb, if_true, if_false]
  · refine exec_act (c := .stSetSampler h (some m)) rfl hready ?_
    have hin : ¬(m ≠ 1 ∧ m ≠ 10) := by omega
    simp only [stSetSampler, hin, hfreeAct hf, if_false]
    rfl
  · refine exec_act (c := .stSetLink h (some (some m))) rfl hready ?_
    simp only [stSetLink, hbusyAct hb, if_true]
  · refine exec_act (c := .stSetLink h (some (some m))) rfl hready ?_
    simp only [stSetLink, hfreeAct hf]
    rfl

end Sys2Proof.Proofs.SettingsEdits

/-! PROOFS. Notices that stay pending, and passes over the bays (R8, R113). -/

namespace Sys2Proof.Proofs.Telling

open Sys2Proof Sys2Proof.Machine Sys2Proof.Laws.Basic Sys2Proof.Proofs.Valves

/-- A raise of another pair leaves a pending notice as it is. -/
theorem mem_putNotice_of_ne {m n : Notice} {l : List Notice} (hm : m ∈ l) (hne : ¬(m.unit = n.unit ∧ m.kind = n.kind)) :
    m ∈ putNotice n l := by
  induction l with
  | nil => exact nomatch hm
  | cons x xs ih =>
    unfold putNotice
    split
    · rename_i hx
      rcases List.mem_cons.1 hm with rfl | hm
      · exact absurd hx hne
      · exact List.mem_cons_of_mem _ hm
    · rcases List.mem_cons.1 hm with rfl | hm
      · exact List.mem_cons_self
      · exact List.mem_cons_of_mem _ (ih hm)

theorem mem_raise_of_ne {m : Notice} {u : UnitName} {k : NKind} {fs : List Fld} {s : State} (hm : m ∈ s.dv.notices)
    (hne : ¬(m.unit = u ∧ m.kind = k)) : m ∈ (raise u k fs s).dv.notices := mem_putNotice_of_ne hm hne

/-- A change of a bay leaves the notices of the other units as they are. -/
theorem mem_changeBay_of_ne {m : Notice} {b : Bay} {r : String} {l : Bool} {o : NoticeOrder} {f : BayUnit → BayUnit}
    {s : State} (hm : m ∈ s.dv.notices) (hne : m.unit ≠ .B b) : m ∈ (changeBay b r l o f s).dv.notices := by
  have hkeep (c : Bool) (k : NKind) (fs : List Fld) (t : State) (ht : m ∈ t.dv.notices) :
      m ∈ (raiseIf c (.B b) k fs t).dv.notices := by
    cases c
    · exact ht
    · exact mem_raise_of_ne ht fun h => hne h.1
  cases o
  · exact hkeep _ _ _ _ (hkeep _ _ _ _ (hkeep _ _ _ _ hm))
  · exact hkeep _ _ _ _ (hkeep _ _ _ _ (hkeep _ _ _ _ hm))

/-- A change of a bay reaches the bays and the link alone. -/
theorem changeBay_frame (b : Bay) (r : String) (l : Bool) (o : NoticeOrder) (f : BayUnit → BayUnit) (s : State) :
    changeBay b r l o f s = { s with bays := (changeBay b r l o f s).bays, dv := (changeBay b r l o f s).dv } := by
  have hstate (t u : State) (hpending : t.pending = u.pending) (hsupply : t.supply = u.supply) (hfresh : t.fresh = u.fresh)
      (hsupv : t.supv = u.supv) (hck : t.ck = u.ck) (hdv : t.dv = u.dv) (hdt : t.dt = u.dt) (hcp : t.cp = u.cp)
      (hbays : t.bays = u.bays) (hts : t.ts = u.ts) (hdl : t.dl = u.dl) (hst : t.st = u.st) : t = u := by
    cases t
    cases u
    simp_all
  apply hstate <;> simp

/-- What the other bays keep before and after, and the bay itself brings about, holds after a pass. -/
theorem forBays_brings {f : Bay → State → State} {b : Bay} {P Q : State → Prop}
    (hbefore : ∀ c t, c ≠ b → P t → P (f c t)) (hself : ∀ t, P t → Q (f b t)) (hafter : ∀ c t, c ≠ b → Q t → Q (f c t))
    {s : State} (hs : P s) : Q (forBays f s) := by
  obtain ⟨pre, post, hsplit, hpre⟩ := List.eq_append_cons_of_mem (mem_allBays b)
  have hpost : b ∉ post := by
    have hnodup : (pre ++ b :: post).Nodup := hsplit ▸ (by decide : allBays.Nodup)
    exact (List.nodup_cons.1 (List.nodup_append.1 hnodup).2.1).1
  unfold forBays
  rw [hsplit, List.foldl_append, List.foldl_cons]
  refine List.foldlRecOn (motive := Q) post _ (hself _ ?_) fun t ht c hc => hafter c t (fun e => hpost (e ▸ hc)) ht
  exact List.foldlRecOn (motive := P) pre _ hs fun t ht c hc => hbefore c t (fun e => hpre (e ▸ hc)) ht

/-- What the action at every bay keeps holds after a pass. -/
theorem forBays_holds {f : Bay → State → State} {P : State → Prop} (h : ∀ c t, P t → P (f c t)) {s : State} (hs : P s) :
    P (forBays f s) :=
  List.foldlRecOn (motive := P) allBays _ hs fun t ht c _ => h c t ht

/-- A report of a component reaches the link alone, with the notices that the rule gives (R13). -/
theorem setComponents_frame (g : Dv → Dv) (s : State)
    (hg : g s.dv = { s.dv with marks := (g s.dv).marks, sampler := (g s.dv).sampler, log := (g s.dv).log,
                               settings := (g s.dv).settings }) :
    setComponents g s = { s with dv := (setComponents g s).dv } ∧
      (setComponents g s).dv = { g s.dv with notices := (setComponents g s).dv.notices,
                                             attnPulse := (setComponents g s).dv.attnPulse } ∧
      (setComponents g s).dv.notices = toldFault s.dv (g s.dv) s.dv.notices := by
  have hnotices : (g s.dv).notices = s.dv.notices := by rw [hg]
  have hcond : (!s.dv.sameComponents (g s.dv) && (s.dv.pending .DV .FAULT || (!s.dv.faultSet && (g s.dv).faultSet))) = true ↔
      (s.dv.marks ≠ (g s.dv).marks ∨ s.dv.sampler ≠ (g s.dv).sampler ∨ s.dv.log ≠ (g s.dv).log ∨
        s.dv.settings ≠ (g s.dv).settings) ∧
      (s.dv.pending .DV .FAULT = true ∨ (s.dv.faultSet = false ∧ (g s.dv).faultSet = true)) := by
    simp [Dv.sameComponents, Classical.or_iff_not_imp_left, and_imp]
  unfold setComponents
  refine ⟨?_, dv_raiseIf .., ?_⟩
  · dsimp only
    unfold raiseIf
    split <;> rfl
  · refine (notices_raiseIf ..).trans ?_
    rw [State.dv_modDv, hnotices]
    exact if_congr hcond rfl rfl

end Sys2Proof.Proofs.Telling

/-! PROOFS. The apply of the staging copy (R194, R199, R200). -/

namespace Sys2Proof.Proofs.Apply

open Sys2Proof Sys2Proof.Machine Sys2Proof.Laws.Basic Sys2Proof.Laws.Requests Sys2Proof.Proofs.Valves
open Sys2Proof.Proofs.Telling Sys2Proof.Proofs.LinkRequests Sys2Proof.Proofs.SettingsEdits

/-! ## The tests (R199) -/

theorem busy_iff (u : BayUnit) : u.busy = true ↔ u.state ≠ .IDLE ∧ u.state ≠ .CLOSED := by
  simp [BayUnit.busy]

theorem activeBay_none_iff (s : State) : activeBay s = none ↔
    ∀ b : Bay, (s.bay b).state ≠ .IDLE → (s.bay b).state ≠ .CLOSED →
      s.st.applied.bays[b] = s.st.staging.bays[b] ∧ ((s.bay b).state = .DISPATCHING →
        s.st.applied.weekStart = s.st.staging.weekStart ∧ s.st.applied.hours.rDaily = s.st.staging.hours.rDaily) := by
  unfold activeBay
  rw [List.find?_eq_none]
  refine ⟨fun h b hidle hclosed => ?_, fun h b _ => ?_⟩
  · have hb := h b (mem_allBays b)
    simp only [Bool.and_eq_true, busy_iff, Bool.or_eq_true, bne_iff_ne, beq_iff_eq, not_and_or, not_or, not_not, hidle, hclosed,
      not_true_eq_false, or_false, ne_eq, not_false_eq_true] at hb
    exact ⟨hb.1, fun hd => hb.2.resolve_right fun hn => hn hd⟩
  · simp only [Bool.and_eq_true, busy_iff, Bool.or_eq_true, bne_iff_ne, beq_iff_eq]
    rintro ⟨hchange, hidle, hclosed⟩
    obtain ⟨hentry, hcal⟩ := h b hidle hclosed
    rcases hchange with hne | ⟨hne, hd⟩
    · exact hne hentry
    · obtain ⟨hweek, hrest⟩ := hcal hd
      exact hne.elim (fun hn => hn hweek) fun hn => hn hrest

theorem identityChanged_iff (g : Settings) (p : Product) : identityChanged g p = true ↔ IdentityChanges g p := by
  unfold identityChanged IdentityChanges
  cases h : g.products.find? (fun x => x.code == p.code) with
  | none => simp
  | some x => simp [or_assoc]

theorem coefficientsChanged_iff (g : Settings) (p : Product) : coefficientsChanged g p = true ↔ CoefficientsChange g p := by
  unfold coefficientsChanged CoefficientsChange
  cases h : g.products.find? (fun x => x.code == p.code) with
  | none => simp
  | some x => simp [or_assoc]

theorem onMeter_iff (s : State) (code : String) : onMeter s code = true ↔ OnMeter s code := by
  simp [onMeter, OnMeter, mem_allBays, Option.any_eq_true]

theorem onDocument_iff (s : State) (code : String) :
    onDocument s code = true ↔ ∃ x ∈ s.cp.docs, ∃ l ∈ x.lines, l.product = code := by
  simp [onDocument]

/-- Test 5 of R199 of one product. -/
theorem productBusy_iff (s : State) (p : Product) :
    (((identityChanged s.st.staging p || coefficientsChanged s.st.staging p) && onMeter s p.code) ||
      (identityChanged s.st.staging p && onDocument s p.code)) = true ↔ ProductBusy s p := by
  simp only [Bool.or_eq_true, Bool.and_eq_true, identityChanged_iff, coefficientsChanged_iff, onMeter_iff, onDocument_iff]

theorem productInUse_none_iff (s : State) : productInUse s = none ↔ ∀ p ∈ s.st.applied.products, ¬ProductBusy s p := by
  unfold productInUse
  rw [List.find?_eq_none]
  simp only [productBusy_iff]

theorem productInUse_first {s : State} {pre post : List Product} {p : Product}
    (hsplit : s.st.applied.products = pre ++ p :: post) (hpre : ∀ q ∈ pre, ¬ProductBusy s q) (hp : ProductBusy s p) :
    productInUse s = some p := by
  refine List.find?_eq_some_iff_append.2 ⟨(productBusy_iff s p).2 hp, pre, post, hsplit, fun q hq => ?_⟩
  rw [Bool.not_eq_true', ← Bool.not_eq_true, productBusy_iff]
  exact hpre q hq

/-! ## The request (R199) -/

section
variable {s : State}

theorem stApply_busy (h : s.st.apply ≠ none ∨ s.st.outbox ≠ none) : stApply (some ()) s = (s, er .BUSY) := by
  have hbusy : (s.applying || s.st.outbox.isSome) = true := by
    rw [Bool.or_eq_true, applying_iff, Option.isSome_iff_ne_none]
    exact h
  simp only [stApply, hbusy, if_true]

variable (hfree : s.st.apply = none) (hout : s.st.outbox = none)
include hfree hout

theorem stApply_noKey (hkey : s.supv = false) : stApply (some ()) s = (s, er .KEY_REQUIRED) := by
  simp [stApply, applying_of_free hfree, hout, hkey]

variable (hkey : s.supv = true)
include hkey

theorem stApply_refused {e : Refused} (h : applyRefusal s = some e) : stApply (some ()) s = (s, er e.1 e.2) := by
  simp [stApply, applying_of_free hfree, hout, hkey, h]

theorem stApply_taken (h : applyRefusal s = none) : stApply (some ()) s =
    (s.modSt fun t => { t with apply := some 200 }, ok [fld "CHANGED" (sectionsText s.changed), fld "WORK" "200"]) := by
  have hwork : dec Config.applyWork = "200" := by decide
  simp [stApply, applying_of_free hfree, hout, hkey, h, hwork]
  rfl

end

/-! ## The commit (R200) -/

/-- A bay after an apply: its state follows its enable (R114). -/
def appliedBay (en : Bool) (u : BayUnit) : BayUnit :=
  match u.state with
  | .IDLE => if en then u else { u with state := .CLOSED, release := false }
  | .CLOSED => if en then { u with state := .IDLE, stray := 0, release := false } else u
  | _ => u

theorem appliedBay_idle {en : Bool} {u : BayUnit} (h : u.state = .IDLE) :
    appliedBay en u = if en then u else { u with state := .CLOSED, release := false } := by
  simp only [appliedBay, h]

theorem appliedBay_closed {en : Bool} {u : BayUnit} (h : u.state = .CLOSED) :
    appliedBay en u = if en then { u with state := .IDLE, stray := 0, release := false } else u := by
  simp only [appliedBay, h]

theorem appliedBay_busy {en : Bool} {u : BayUnit} (hidle : u.state ≠ .IDLE) (hclosed : u.state ≠ .CLOSED) :
    appliedBay en u = u := by
  unfold appliedBay
  split
  · contradiction
  · contradiction
  · rfl

theorem drive_of_not_loading {u : BayUnit} (h : u.state ≠ .LOADING) : u.drive = { u with release := false } := by
  rw [BayUnit.drive, Keeping.mayRelease_of_not_loading h]

/-- What `bayApply` does at its bay, and what it tells. -/
theorem bayApply_cases (b : Bay) (s : State) :
    (bayApply b s = s ∧ appliedBay (s.entry b).enabled (s.bay b) = s.bay b) ∨
    ∃ f, bayApply b s = changeBay b "APPLY" false .stateFirst f s ∧
      (f (s.bay b)).drive = appliedBay (s.entry b).enabled (s.bay b) := by
  by_cases hidle : (s.bay b).state = .IDLE
  · cases hen : (s.entry b).enabled
    · refine .inr ⟨fun u => { u with state := .CLOSED }, by simp [bayApply, hidle, hen], ?_⟩
      exact (drive_of_not_loading (by simp)).trans (by simp [appliedBay_idle hidle])
    · exact .inl ⟨by simp [bayApply, hidle, hen], appliedBay_idle hidle⟩
  by_cases hclosed : (s.bay b).state = .CLOSED
  · cases hen : (s.entry b).enabled
    · exact .inl ⟨by simp [bayApply, hclosed, hen], appliedBay_closed hclosed⟩
    · refine .inr ⟨fun u => { u with state := .IDLE, stray := 0 }, by simp [bayApply, hclosed, hen], ?_⟩
      exact (drive_of_not_loading (by simp)).trans (by simp [appliedBay_closed hclosed])
  refine .inl ⟨?_, appliedBay_busy hidle hclosed⟩
  unfold bayApply
  split
  · contradiction
  · contradiction
  · rfl

theorem bay_bayApply_self (b : Bay) (s : State) : (bayApply b s).bay b = appliedBay (s.entry b).enabled (s.bay b) := by
  rcases bayApply_cases b s with ⟨h, hbay⟩ | ⟨f, h, hbay⟩ <;> rw [h]
  · exact hbay.symm
  · rw [bay_changeBay_self, hbay]

theorem bay_bayApply_ne {b c : Bay} (hne : c ≠ b) (s : State) : (bayApply c s).bay b = s.bay b := by
  rcases bayApply_cases c s with ⟨h, -⟩ | ⟨f, h, -⟩ <;> rw [h]
  exact bay_changeBay_ne _ _ _ _ _ _ _ hne

/-- The bays follow their enables and leave the rest of the state but for the link's notices. -/
theorem bayApply_frame (b : Bay) (s : State) :
    bayApply b s = { s with bays := (bayApply b s).bays, dv := (bayApply b s).dv } ∧ LinkKept s (bayApply b s) := by
  rcases bayApply_cases b s with ⟨h, -⟩ | ⟨f, h, -⟩ <;> rw [h]
  · exact ⟨rfl, linkKept_refl s⟩
  · exact ⟨changeBay_frame .., linkKept_changeBay ..⟩

theorem mem_bayApply_of_ne {m : Notice} {b : Bay} {s : State} (hm : m ∈ s.dv.notices) (hne : m.unit ≠ .B b) :
    m ∈ (bayApply b s).dv.notices := by
  rcases bayApply_cases b s with ⟨h, -⟩ | ⟨f, h, -⟩ <;> rw [h]
  · exact hm
  · exact mem_changeBay_of_ne hm hne

/-- A changed state is told with reason APPLY. -/
theorem told_bayApply {b : Bay} {s : State} (hne : ((bayApply b s).bay b).state ≠ (s.bay b).state) :
    (⟨.B b, .STATE, stateFields ((bayApply b s).bay b) "APPLY"⟩ : Notice) ∈ (bayApply b s).dv.notices := by
  rcases bayApply_cases b s with ⟨h, -⟩ | ⟨f, h, -⟩ <;> rw [h] at hne ⊢
  · exact absurd rfl hne
  · rw [bay_changeBay_self] at hne ⊢
    rw [notices_changeBay_first]
    have hstate : ((s.bay b).state != (f (s.bay b)).drive.state) = true := bne_iff_ne.2 hne.symm
    simp only [hstate, if_true, Bool.false_eq_true, if_false]
    split
    · exact mem_putNotice_of_ne (mem_putNotice _ _) nofun
    · exact mem_putNotice _ _

/-- Two changes of the bays and the link alone are one. -/
theorem baysAndLink_trans {s t u : State} (h : t = { s with bays := t.bays, dv := t.dv })
    (k : u = { t with bays := u.bays, dv := u.dv }) : u = { s with bays := u.bays, dv := u.dv } :=
  k.trans (congrArg (fun v => { v with bays := u.bays, dv := u.dv }) h)

/-- After the pass every bay has followed its entry, told every changed state, and left the other units' notices. -/
theorem forBays_bayApply (s : State) :
    forBays bayApply s = { s with bays := (forBays bayApply s).bays, dv := (forBays bayApply s).dv } ∧
      LinkKept s (forBays bayApply s) ∧
      (∀ m ∈ s.dv.notices, (∀ b, m.unit ≠ .B b) → m ∈ (forBays bayApply s).dv.notices) ∧
      ∀ b : Bay, (forBays bayApply s).bay b = appliedBay (s.entry b).enabled (s.bay b) ∧
        (((forBays bayApply s).bay b).state ≠ (s.bay b).state →
          (⟨.B b, .STATE, stateFields ((forBays bayApply s).bay b) "APPLY"⟩ : Notice) ∈ (forBays bayApply s).dv.notices) := by
  have hst (c : Bay) (t : State) (h : t.st = s.st) : (bayApply c t).st = s.st := by
    rw [(bayApply_frame c t).1]
    exact h
  refine ⟨?_, ?_, fun m hm hunit => ?_, fun b => ?_⟩
  · refine forBays_holds (f := bayApply) (s := s) (P := fun t => t = { s with bays := t.bays, dv := t.dv }) (fun c t h => ?_) rfl
    exact baysAndLink_trans h (bayApply_frame c t).1
  · exact forBays_holds (f := bayApply) (s := s) (P := LinkKept s) (fun c t h => linkKept_trans h (bayApply_frame c t).2) (linkKept_refl s)
  · exact forBays_holds (f := bayApply) (s := s) (P := fun t => m ∈ t.dv.notices) (fun c t h => mem_bayApply_of_ne h (hunit c)) hm
  · refine (forBays_brings (f := bayApply) (s := s) (b := b) (P := fun t => t.st = s.st ∧ t.bay b = s.bay b)
      (Q := fun t => t.bay b = appliedBay (s.entry b).enabled (s.bay b) ∧ ((t.bay b).state ≠ (s.bay b).state →
        (⟨.B b, .STATE, stateFields (t.bay b) "APPLY"⟩ : Notice) ∈ t.dv.notices)) ?_ ?_ ?_ ⟨rfl, rfl⟩)
    · exact fun c t hne ⟨hs, hbay⟩ => ⟨hst c t hs, (bay_bayApply_ne hne t).trans hbay⟩
    · intro t ⟨hs, hbay⟩
      have hentry : t.entry b = s.entry b := by
        unfold State.entry
        rw [hs]
      rw [← hentry, ← hbay]
      exact ⟨bay_bayApply_self b t, told_bayApply⟩
    · intro c t hne ⟨hbay, htold⟩
      rw [bay_bayApply_ne hne t]
      exact ⟨hbay, fun h => mem_bayApply_of_ne (htold h) fun e => hne (UnitName.B.inj e).symm⟩

/-- The staging copy is committed and the fault component of the settings clears. -/
@[irreducible] def committed (s : State) : State :=
  setComponents (fun d => { d with settings := false })
    (if s.st.staging.attn != s.st.applied.attn then (s.modSt St.commit).modDv fun d => { d with attnPulse := false }
      else s.modSt St.commit)

theorem committed_frame (s : State) :
    committed s = { s with st := s.st.commit, dv := (committed s).dv } ∧
      (committed s).dv = { s.dv with settings := false, notices := (committed s).dv.notices,
                                     attnPulse := (committed s).dv.attnPulse } ∧
      (s.dv.settings = true → s.dv.pending .DV .FAULT = true →
        (⟨.DV, .FAULT, faultFields (committed s).dv⟩ : Notice) ∈ (committed s).dv.notices) := by
  unfold committed
  generalize hu : (if s.st.staging.attn != s.st.applied.attn then
    (s.modSt St.commit).modDv fun d => { d with attnPulse := false } else s.modSt St.commit) = u
  have hstate : u = { s with st := s.st.commit, dv := { s.dv with attnPulse := u.dv.attnPulse } } := by
    rw [← hu]
    split <;> rfl
  have hdv : u.dv = { s.dv with attnPulse := u.dv.attnPulse } := congrArg State.dv hstate
  obtain ⟨hframe, hkept, hnotices⟩ := setComponents_frame (fun d => { d with settings := false }) u rfl
  refine ⟨?_, ?_, fun hset hpending => ?_⟩
  · rw [hframe, hstate]
  · rw [hkept, hdv]
  · have htold : toldFault u.dv { u.dv with settings := false } u.dv.notices =
        putNotice ⟨.DV, .FAULT, faultFields { u.dv with settings := false }⟩ u.dv.notices := by
      refine if_pos ⟨.inr (.inr (.inr ?_)), .inl ?_⟩
      · rw [hdv]
        exact fun h => Bool.noConfusion (hset.symm.trans h)
      · rw [hdv]
        exact hpending
    rw [hnotices, htold, hkept]
    exact mem_putNotice ..

/-- A shorter period that has passed makes a calibration due (R149). -/
theorem periodCheck_frame (s : State) : periodCheck s = { s with ts :=
    if ∃ n ∈ s.ts.sinceCal, 60000 * s.st.applied.period ≤ n then
      { s.ts with due := true, conv := if s.ts.conv = .FREE then .CAL else s.ts.conv }
    else s.ts } := by
  have hpassed : (s.ts.sinceCal.any fun n => decide (s.periodMs ≤ n)) = true ↔
      ∃ n ∈ s.ts.sinceCal, 60000 * s.st.applied.period ≤ n := by
    cases s.ts.sinceCal with
    | none => simp
    | some n =>
      rw [Option.any_some, decide_eq_true_iff, State.periodMs, Nat.mul_comm]
      simp
  simp only [periodCheck, hpassed]
  split
  · unfold calDue chooseWork
    cases hconv : s.ts.conv <;> simp [State.modTs, hconv]
  · rfl

/-- The bays after they have followed the committed entries. -/
@[irreducible] def followed (s : State) : State := forBays bayApply (committed s)

theorem followed_eq (s : State) : followed s = forBays bayApply (committed s) := by
  unfold followed
  rfl

/-- The sampler's table after an apply (R149). -/
def periodApplied (s : State) : Ts :=
  if s.st.staging.period ≠ s.st.applied.period ∧ ∃ n ∈ s.ts.sinceCal, 60000 * s.st.staging.period ≤ n then
    { s.ts with due := true, conv := if s.ts.conv = .FREE then .CAL else s.ts.conv } else s.ts

/-- The state after the copies are committed and the bays have followed them, with the record in the outbox. -/
@[irreducible] def recorded (s : State) : State :=
  (followed s).modSt fun t => { t with outbox := some ⟨s.stamp, .SETTINGS s.changed⟩ }

theorem recorded_frame (s : State) : recorded s = { s with
    st := { s.st.commit with outbox := some ⟨s.stamp, .SETTINGS s.changed⟩ }
    bays := (followed s).bays
    dv := (followed s).dv } := by
  obtain ⟨hcommitted, -, -⟩ := committed_frame s
  obtain ⟨hpass, -, -, -⟩ := forBays_bayApply (committed s)
  rw [← followed_eq] at hpass
  unfold recorded
  generalize followed s = p at hpass
  generalize (committed s).dv = d at hcommitted
  rw [hpass, hcommitted]
  rfl

theorem recorded_parts (s : State) : (recorded s).st = { s.st.commit with outbox := some ⟨s.stamp, .SETTINGS s.changed⟩ } ∧
    (recorded s).dv = (followed s).dv ∧ (recorded s).bays = (followed s).bays ∧
    (recorded s).ck = s.ck ∧ (recorded s).ts = s.ts ∧ (recorded s).dl = s.dl := by
  rw [recorded_frame]
  exact ⟨rfl, rfl, rfl, rfl, rfl, rfl⟩

theorem commitApply_eq (s : State) : commitApply s =
    if s.st.staging.period != s.st.applied.period then
      periodCheck (raise .ST .APPLIED (appliedFields s.changed "PENDING") (postFrom .ST (recorded s)))
    else raise .ST .APPLIED (appliedFields s.changed "PENDING") (postFrom .ST (recorded s)) := by
  have hrecord : (followed s).makeRec (.SETTINGS s.changed) = ⟨s.stamp, .SETTINGS s.changed⟩ := by
    obtain ⟨hcommitted, -, -⟩ := committed_frame s
    obtain ⟨hpass, -, -, -⟩ := forBays_bayApply (committed s)
    rw [← followed_eq] at hpass
    have hck : (followed s).ck = s.ck := by
      rw [hpass]
      dsimp only
      rw [hcommitted]
    simp only [State.makeRec, State.stamp, hck]
  unfold recorded
  rw [← hrecord, followed_eq]
  unfold committed
  rfl

/-- The record is posted, the apply told, and the sampler meets a shorter period. -/
theorem commitApply_frame (s : State) : commitApply s = { recorded s with
    dl := (postFrom .ST (recorded s)).dl
    dv := (raise .ST .APPLIED (appliedFields s.changed "PENDING") (recorded s)).dv
    ts := periodApplied s } := by
  obtain ⟨hst, -, -, -, hts, -⟩ := recorded_parts s
  have happlied : (recorded s).st.applied = s.st.staging := by rw [hst]; rfl
  have htold : raise .ST .APPLIED (appliedFields s.changed "PENDING") (postFrom .ST (recorded s)) =
      { recorded s with
        dl := (postFrom .ST (recorded s)).dl
        dv := (raise .ST .APPLIED (appliedFields s.changed "PENDING") (recorded s)).dv } := by
    have hpost := postFrom_frame .ST (recorded s)
    generalize postFrom .ST (recorded s) = p at hpost
    rw [hpost]
    rfl
  rw [commitApply_eq]
  dsimp only
  rw [htold, periodCheck_frame]
  dsimp only
  rw [hts, happlied]
  unfold periodApplied
  by_cases hperiod : s.st.staging.period = s.st.applied.period
  · simp [hperiod, ← hts]
  · simp [hperiod]

theorem posted_commitApply (s : State) : Posted .ST s (commitApply s) := by
  obtain ⟨-, -, -, -, -, hdl⟩ := recorded_parts s
  have hposted : Posted .ST s (postFrom .ST (recorded s)) := posted_postFrom .ST hdl
  have houtbox : (postFrom .ST (recorded s)).outbox .ST = (commitApply s).outbox .ST := by
    rw [outbox_postFrom, commitApply_frame]
    rfl
  have hdl' : (commitApply s).dl = (postFrom .ST (recorded s)).dl := by rw [commitApply_frame]
  unfold Posted at hposted ⊢
  rw [hdl', hposted, houtbox]

/-! ## The completion (R200) -/

theorem applyRefusal_eq_none {s : State} (h : applyRefusal s = none) : activeBay s = none ∧ productInUse s = none := by
  unfold applyRefusal at h
  cases hb : activeBay s with
  | some b => simp [hb] at h
  | none => exact ⟨rfl, by simpa [hb] using h⟩

/-- A notice of another unit than a bay stands until the end of the apply. -/
theorem mem_commitApply {s : State} {m : Notice} (hm : m ∈ (followed s).dv.notices)
    (hunit : m.unit ≠ .ST) : m ∈ (commitApply s).dv.notices := by
  obtain ⟨-, hdv, -, -, -, -⟩ := recorded_parts s
  rw [commitApply_frame]
  refine mem_raise_of_ne ?_ fun h => hunit h.1
  rwa [hdv]

theorem dv_commitApply (s : State) : (commitApply s).dv = { s.dv with
    settings := false
    notices := (commitApply s).dv.notices
    attnPulse := (commitApply s).dv.attnPulse } := by
  obtain ⟨-, hdv, -, -, -, -⟩ := recorded_parts s
  obtain ⟨-, ⟨hpass, -⟩, -, -⟩ := forBays_bayApply (committed s)
  rw [← followed_eq] at hpass
  obtain ⟨-, hcommitted, -⟩ := committed_frame s
  have hraise : (commitApply s).dv = { (recorded s).dv with
      notices := (commitApply s).dv.notices
      attnPulse := (commitApply s).dv.attnPulse } := by
    rw [commitApply_frame]
    rfl
  rw [hraise, hdv, hpass, hcommitted]

/-- The commit as the completion leaves it. -/
theorem commitApply_completes (s : State) :
    ∃ t : State, t = commitApply s ∧
      t.st = ⟨s.st.staging, true, s.st.staging, s.st.staging, none, false, some ⟨s.stamp, .SETTINGS s.changed⟩⟩ ∧
      t.ts = periodApplied s ∧ t.ck = s.ck ∧ t.dt = s.dt ∧ t.cp = s.cp ∧ t.pending = s.pending ∧ t.supply = s.supply ∧
      t.fresh = s.fresh ∧ t.bays = (followed s).bays := by
  obtain ⟨hst, hdv, hbays, hck, hts, hdl⟩ := recorded_parts s
  have hframe := recorded_frame s
  refine ⟨_, rfl, ?_⟩
  rw [commitApply_frame]
  generalize recorded s = r at hframe hst hbays
  refine ⟨hst, rfl, ?_⟩
  rw [hframe]
  exact ⟨rfl, rfl, rfl, rfl, rfl, rfl, rfl⟩

theorem told_commitApply (s : State) :
    (⟨.ST, .APPLIED, appliedFields s.changed "PENDING"⟩ : Notice) ∈ (commitApply s).dv.notices := by
  rw [commitApply_frame]
  exact mem_putNotice ..

/-- The commit clears the fault component, and tells it while a FAULT notice is pending (R13). -/
theorem faultTold_commitApply {s : State} (hset : s.dv.settings = true) (hpending : s.dv.pending .DV .FAULT = true) :
    (⟨.DV, .FAULT, faultFields (commitApply s).dv⟩ : Notice) ∈ (commitApply s).dv.notices := by
  obtain ⟨-, hdv, htold⟩ := committed_frame s
  obtain ⟨-, -, hkept, -⟩ := forBays_bayApply (committed s)
  have hfields : faultFields (commitApply s).dv = faultFields (committed s).dv := by
    rw [dv_commitApply, hdv]
    rfl
  rw [hfields]
  refine mem_commitApply ?_ nofun
  rw [followed_eq]
  exact hkept _ (htold hset hpending) nofun

theorem bay_commitApply (s : State) (b : Bay) :
    (commitApply s).bay b = appliedBay s.st.staging.bays[b].enabled (s.bay b) ∧
      (((commitApply s).bay b).state ≠ (s.bay b).state →
        (⟨.B b, .STATE, stateFields ((commitApply s).bay b) "APPLY"⟩ : Notice) ∈ (commitApply s).dv.notices) := by
  obtain ⟨_, rfl, -, -, -, -, -, -, -, -, hbays⟩ := commitApply_completes s
  obtain ⟨hcommitted, -, -⟩ := committed_frame s
  obtain ⟨-, -, -, hpass⟩ := forBays_bayApply (committed s)
  obtain ⟨hbay, htold⟩ := hpass b
  have hpre : (committed s).bay b = s.bay b ∧ (committed s).entry b = s.st.staging.bays[b] := by
    generalize committed s = c at hcommitted
    rw [hcommitted]
    exact ⟨rfl, rfl⟩
  have hpost : (commitApply s).bay b = (followed s).bay b := by
    unfold State.bay
    rw [hbays]
  rw [hpre.1, hpre.2] at hbay
  rw [hpre.1] at htold
  rw [hpost]
  rw [← followed_eq] at hbay htold
  exact ⟨hbay, fun h => mem_commitApply (htold h) nofun⟩

theorem applyDone_free {s : State} (h : s.st.apply = none) : applyDone s = s := by
  simp [applyDone, applying_of_free h]

theorem applyDone_refused {s : State} (h : s.st.apply ≠ none) {e : Refused} (hrefused : applyRefusal s = some e) :
    applyDone s = raise .ST .APPLIED
      ([fld "RESULT" "REFUSED", fld "CHANGED" (sectionsText s.changed), fld "CODE" (codeText e.1)] ++ e.2)
      (s.modSt fun t => { t with apply := none }) := by
  have happlying : s.applying = true := applying_of_busy h
  simp [applyDone, happlying, hrefused]

theorem applyDone_commits {s : State} (h : s.st.apply ≠ none) (hrefused : applyRefusal s = none) :
    applyDone s = commitApply s := by
  have happlying : s.applying = true := applying_of_busy h
  simp [applyDone, happlying, hrefused]

theorem exec_applyComplete {s : State} (h : s.supply = true) : exec .applyComplete s = .next (pump (applyDone s)) :=
  event_on applyDone h

/-- Settles O53: the tests read as R199 states them, and the completion commits, posts and tells. -/
theorem applyCommitsTheStagingCopy : Obligations.ApplyCommitsTheStagingCopy := by
  unfold Obligations.ApplyCommitsTheStagingCopy
  refine ⟨activeBay_none_iff, fun s => ⟨productInUse_none_iff s, fun pre p post => productInUse_first⟩, ?_, ?_⟩
  · rintro ⟨tag, key⟩ s hready
    have hactive : activeBay (underKey ⟨tag, key⟩ s) = activeBay s := rfl
    have hproduct : productInUse (underKey ⟨tag, key⟩ s) = productInUse s := rfl
    refine ⟨fun h => exec_act (c := .stApply ⟨tag, key⟩ (some ())) rfl hready (stApply_busy h), fun hfree hout => ⟨?_, ?_⟩⟩
    · rintro rfl
      exact exec_act (c := .stApply ⟨tag, false⟩ (some ())) rfl hready (stApply_noKey hfree hout rfl)
    · rintro rfl
      have hrefused {e : Refused} (h : applyRefusal (underKey ⟨tag, true⟩ s) = some e) :=
        exec_act (c := .stApply ⟨tag, true⟩ (some ())) rfl hready
          (stApply_refused (s := underKey ⟨tag, true⟩ s) hfree hout rfl h)
      refine ⟨fun c hb => hrefused (e := (.BAY_ACTIVE, [fld "BAY" (bayText c)])) ?_,
        fun hb => ⟨fun p hp => hrefused (e := (.PRODUCT_IN_USE, [fld "PROD" p.code])) ?_, fun hp =>
          exec_act (c := .stApply ⟨tag, true⟩ (some ())) rfl hready
            (stApply_taken (s := underKey ⟨tag, true⟩ s) hfree hout rfl ?_)⟩⟩
      · simp only [applyRefusal, hactive, hb]
      · simp only [applyRefusal, hactive, hproduct, hb, hp, Option.map_some]
      · simp only [applyRefusal, hactive, hproduct, hb, hp, Option.map_none]
  · intro s hs
    refine ⟨fun h => ?_, fun h => ⟨fun code fs hrefused => ?_, fun hrefused => ?_⟩⟩
    · rw [exec_applyComplete hs, applyDone_free h]
    · rw [exec_applyComplete hs, applyDone_refused h hrefused]
      rfl
    · obtain ⟨t, ht, hst, hts, hck, hdt, hcp, hpending, hsupply, hfresh, -⟩ := commitApply_completes s
      refine ⟨commitApply s, by rw [exec_applyComplete hs, applyDone_commits h hrefused], ?_⟩
      rw [ht] at hst hts hck hdt hcp hpending hsupply hfresh
      refine ⟨hst, dv_commitApply s, told_commitApply s, faultTold_commitApply, hpending, hsupply, hfresh,
        fun b => (bay_commitApply s b).2, fun b => ?_, posted_commitApply s, hts, hck, hdt, hcp⟩
      have hbay := (bay_commitApply s b).1
      refine ⟨fun hst hen => ?_, fun hst hen => ?_, fun hst hen => ?_, fun hidle hclosed => ?_⟩
      · rw [hbay, appliedBay_idle hst, hen]
        rfl
      · rw [hbay, appliedBay_closed hst, hen]
        rfl
      · rw [hbay]
        rcases hst with hst | hst
        · rw [appliedBay_idle hst, hen.1 hst]
          rfl
        · have hoff : s.st.staging.bays[b].enabled = false :=
            Bool.eq_false_iff.2 fun h => nomatch hst.symm.trans (hen.2 h)
          rw [appliedBay_closed hst, hoff]
          rfl
      · rw [hbay, appliedBay_busy hidle hclosed]

end Sys2Proof.Proofs.Apply

/-! PROOFS. The readouts (R35, R67, R109, R150, R191, R198). -/

namespace Sys2Proof.Proofs.Readouts

open Sys2Proof Sys2Proof.Machine Sys2Proof.Proofs.LinkRequests

/-! ## What the key level does not touch (log 2) -/

section
variable (s : State) (v : Bool)

theorem nowMin_supv : State.nowMin { s with supv := v } = s.nowMin := rfl
theorem weekMin_supv : State.weekMin { s with supv := v } = s.weekMin := rfl
theorem figures_supv (l : List Entry) : State.figures { s with supv := v } l = s.figures l := rfl
theorem verdict_supv (l : List Entry) (p : Plan) : State.verdict { s with supv := v } l p = s.verdict l p := rfl
theorem bayStatusFields_supv (b : Bay) : bayStatusFields { s with supv := v } b = bayStatusFields s b := rfl

end

/-! ## The readouts that may be refused -/

section
variable {s : State} {n : Nat} {x : Driver} (hn : n ≠ 0) (hx : s.driverOf n = some x)
include hn hx

theorem dtQuery_taken (hset : s.ck.isSet = true) : dtQuery (some n) s = (s, ok (queryFields s x (s.figures x.list) ++
    [fld "DSTART" (twelve (s.figures x.list).dayStart), fld "CSTART" (twelve (s.figures x.list).contStart),
     fld "WSTART" (twelve s.weekMin), fld "DRIVE" (commas [dec (s.figures x.list).dayDrive, dec (s.figures x.list).weekDrive,
       dec (s.figures x.list).contDrive]), fld "SPAN" (dec (s.figures x.list).span)])) := by
  simp [dtQuery, driverZero, hn, hset, hx]

theorem dtQueryPlan_taken {p : Plan} (hp : planInRange p = true) (hset : s.ck.isSet = true) :
    ∃ rest, dtQueryPlan (some ⟨n, p⟩) s = (s, ok (rest ++
      [fld "VERDICT" (verdictText (s.verdict x.list p).verdict),
       fld "LEAST" (leastText (s.verdict x.list p).least (s.verdict x.list p).test),
       fld "MARKS" (commasOrNone ((s.verdict x.list p).marks.map testText))])) := by
  refine ⟨queryFields s x (s.figures x.list) ++ [fld "C" (dec (s.verdict x.list p).capacity),
    fld "SLACK" (commas [decInt (s.verdict x.list p).slackDay, decInt (s.verdict x.list p).slackWeek,
      decInt (s.verdict x.list p).slackSpan, decInt (s.verdict x.list p).slackCont])], ?_⟩
  simp [dtQueryPlan, driverZero, hn, hp, hset, hx]

theorem dtList_taken {i : Nat} (hi : 1 ≤ i) (hi' : i ≤ 32) : ∃ mid, dtList (some ⟨n, i⟩) s = (s, ok
    ([drvFld n, fld "STATUS" (statusText x.status)] ++ mid ++
      [fld "COUNT" (dec x.list.length), fld "FROM" (dec i), fld "E" (commas ((page i 6 x.list).map entryItem)),
       moreField i 6 x.list])) := by
  refine ⟨fldIf (statusBay x.status) "BAY" bayText ++ fldIf x.trip "TRIP" id ++
    (if x.pend then [fld "PEND" "YES"] else []) ++ fldIf x.last "VERDICT" (fun v => commas [verdictText v.verdict,
      decInt v.least, testText v.test, twelve v.now]), ?_⟩
  have hrange : (driverZero n || decide (i < 1) || decide (Config.maxEntries < i)) = false := by
    simp only [driverZero, Bool.or_eq_false_iff, beq_eq_false_iff_ne, decide_eq_false_iff_not, not_lt]
    exact ⟨⟨hn, hi⟩, hi'⟩
  simp only [dtList, hrange, Bool.false_eq_true, if_false, hx, List.append_assoc]

end

theorem bStatusLine_taken {s : State} {b : Bay} {c : Nat} {l : LineRec} (h1 : 1 ≤ c) (h8 : c ≤ 8)
    (hl : (s.bay b).lineOf c = some l) : bStatusLine b (some c) s = (s, ok (lineStatusFields l)) := by
  simp [bStatusLine, compInRange, h1, h8, hl]

theorem segOf_succ (i : SegNo) : segOf (i.val + 1) = some i := by
  have hi : 1 ≤ i.val + 1 ∧ i.val + 1 ≤ 32 := by omega
  simp [segOf, hi]

theorem dlStatusSeg_taken {s : State} {i : SegNo} (hscan : s.dl.scan = false) :
    dlStatusSeg (some (i.val + 1)) s = (s, ok (segStatusFields s.dl i)) := by
  simp [dlStatusSeg, segOf_succ, hscan]

theorem stShow_whole (x : Section) (staged : Bool) (s : State) : stShow (some ⟨x, staged, .whole⟩) s =
    (s, ok (bare (sectionText x) :: wholeFields (if staged then s.st.staging else s.st.applied) x)) := rfl

/-- Settles O22. -/
theorem readoutsChangeNothing : Obligations.ReadoutsChangeNothing := by
  intro h s hready
  refine ⟨⟨_, exec_act (c := .ckStatus h (some ())) rfl hready rfl, ?_, fun hset => ?_, ?_, ?_⟩,
    exec_act (c := .ckRules h (some ())) rfl hready rfl, fun n x hn hx hset => ?_, fun n p x hn hp hx hset => ?_,
    fun n i x hn hi hi' hx => ?_, fun b => ⟨_, exec_act (c := .bStatus h b (some ())) rfl hready rfl, ?_⟩,
    fun b c l h1 h8 hl => exec_act (c := .bStatusLine h b (some c)) rfl hready (bStatusLine_taken h1 h8 hl),
    ⟨_, exec_act (c := .tsStatus h (some ())) rfl hready rfl, ?_⟩,
    ⟨_, exec_act (c := .dlStatus h (some ())) rfl hready rfl, ?_⟩,
    fun i hscan => ⟨_, exec_act (c := .dlStatusSeg h (some (i.val + 1))) rfl hready (dlStatusSeg_taken hscan), ?_⟩,
    ⟨_, exec_act (c := .stStatus h (some ())) rfl hready rfl, ?_⟩,
    fun x _ staged => exec_act (c := .stShow h (some ⟨x, staged, .whole⟩)) rfl hready (stShow_whole x staged _)⟩
  · simp
  · simp [hset]
  · simp
  · simp
  · refine ⟨_, exec_act (c := .dtQuery h (some n)) rfl hready (dtQuery_taken hn hx hset), ?_⟩
    simp [queryFields, nowMin_supv, figures_supv]
  · obtain ⟨rest, hrest⟩ := dtQueryPlan_taken (s := underKey h s) hn hx hp hset
    exact ⟨_, exec_act (c := .dtQueryPlan h (some ⟨n, p⟩)) rfl hready hrest, by simp [verdict_supv]⟩
  · obtain ⟨mid, hmid⟩ := dtList_taken (s := underKey h s) hn hx hi hi'
    exact ⟨_, exec_act (c := .dtList h (some ⟨n, i⟩)) rfl hready hmid, by simp [page]⟩
  · rw [bayStatusFields_supv]
    simp [bayStatusFields]
  · simp [healthText]
  · exact ⟨by simp [logStatusFields], fun hscan => by simp [logStatusFields, hscan]⟩
  · simp [segStatusFields]
  · simp

end Sys2Proof.Proofs.Readouts

/-! PROOFS. The starts (R17, R36, R64, R107, R138, R152, R192, R202). -/

namespace Sys2Proof.Proofs.Starts

open Sys2Proof Sys2Proof.Machine Sys2Proof.Laws.Basic Sys2Proof.Proofs.Keeping Sys2Proof.Proofs.Valves
open Sys2Proof.Proofs.Telling

/-! ## The parts of a start -/

/-- The settings unit reports a failed check to the link alone (R202). -/
theorem reportDefaults_frame (s : State) :
    reportDefaults s = { s with dv := (reportDefaults s).dv } := by
  unfold reportDefaults
  obtain ⟨hframe, -, -⟩ := setComponents_frame (fun d => { d with settings := true }) s rfl
  split
  · generalize setComponents (fun d => { d with settings := true }) s = t at hframe
    rw [hframe]
    rfl
  · rfl

theorem startCommon_frame (k : StartKind) (e : StartEnv) (s : State) :
    startCommon k e s = { startBase k e s with dv := (startCommon k e s).dv } := reportDefaults_frame (startBase k e s)

/-- A post reaches the log alone. -/
theorem postAtStart_frame (k : StartKind) (src : LogSource) (s : State) :
    postAtStart k src s = { s with dl := (postAtStart k src s).dl } := by
  unfold postAtStart
  split
  · split <;> rfl
  · exact postFrom_frame _ s

theorem startPosts_frame (k : StartKind) (e : StartEnv) (s : State) :
    startPosts k e s = { s with dl := (startPosts k e s).dl } :=
  List.foldlRecOn (motive := fun t : State => t = { s with dl := t.dl }) (e.order ++ allSources) _ rfl fun t ht src _ =>
    (postAtStart_frame k src t).trans (congrArg (fun x : State => { x with dl := (postAtStart k src t).dl }) ht)

/-- Of the log the posts touch the queue alone. -/
theorem dl_postAtStart (k : StartKind) (src : LogSource) (s : State) :
    (postAtStart k src s).dl = { s.dl with queue := (postAtStart k src s).dl.queue } := by
  unfold postAtStart
  split
  · split <;> rfl
  · rw [dl_postFrom]

theorem dl_startPosts (k : StartKind) (e : StartEnv) (s : State) :
    (startPosts k e s).dl = { s.dl with queue := (startPosts k e s).dl.queue } :=
  List.foldlRecOn (motive := fun t : State => t.dl = { s.dl with queue := t.dl.queue }) (e.order ++ allSources) _ rfl
    fun t ht src _ =>
      (dl_postAtStart k src t).trans (congrArg (fun x : Dl => { x with queue := (postAtStart k src t).dl.queue }) ht)

/-! ## A cold start (R36, R64, R107, R138) -/

/-- Every bay of a cold start by its entry. -/
def coldBays (s : State) : State := forBays (fun b t => t.modBay b (coldBay (t.entry b).enabled)) s

theorem coldBays_frame (s : State) : coldBays s = { s with bays := (coldBays s).bays } :=
  StepAndTick.forBays_modBay_frame (fun t b => coldBay (t.entry b).enabled) s

theorem bay_coldBays (s : State) (b : Bay) : (coldBays s).bay b = coldBay (s.entry b).enabled (s.bay b) :=
  bay_forBays_modBay (g := fun t b => coldBay (t.entry b).enabled) fun t ht => by simp only [State.entry, ht]

theorem coldStart_parts (e : StartEnv) (s : State) :
    (coldStart e s).ck = { Ck.reset with count := (Config.coldCount s.fresh).toNat } ∧ (coldStart e s).dt = Dt.reset ∧
      (coldStart e s).cp = Cp.reset ∧ (coldStart e s).st = { s.st.started e.settingsGood with outbox := none } ∧
      (coldStart e s).dl = { s.dl.started true e with day := DayCounts.zero, queue := (coldStart e s).dl.queue } ∧
      (coldStart e s).ts = Ts.reset ∧
      ∀ b, (coldStart e s).bay b = coldBay (s.st.started e.settingsGood).applied.bays[b].enabled (s.bay b) := by
  have hcommon := startCommon_frame .COLD e s
  have hbase : coldBase e s = { startBase .COLD e s with
      ck := { Ck.reset with count := (Config.coldCount s.fresh).toNat }
      fresh := s.fresh + 1
      dt := Dt.reset
      cp := Cp.reset
      st := { s.st.started e.settingsGood with outbox := none }
      dl := { s.dl.started true e with day := DayCounts.zero }
      dv := (startCommon .COLD e s).dv } := by
    unfold coldBase
    generalize startCommon .COLD e s = t at hcommon
    rw [hcommon]
    rfl
  have hbays := coldBays_frame (coldBase e s)
  have hbay := bay_coldBays (coldBase e s)
  have hposts := startPosts_frame .COLD e (coldBays (coldBase e s))
  have hdl := dl_startPosts .COLD e (coldBays (coldBase e s))
  have hstart : coldStart e s = pump (startPosts .COLD e (coldBays (coldBase e s))) := rfl
  rw [hstart]
  simp only [ck_pump, dt_pump, cp_pump, st_pump, dl_pump, ts_pump, bay_pump]
  generalize coldBase e s = base at *
  generalize coldBays base = c at *
  generalize startPosts .COLD e c = p at *
  have hcdl : c.dl = base.dl := by rw [hbays]
  have hpbay (b : Bay) : p.bay b = c.bay b := by rw [hposts]; rfl
  refine ⟨?_, ?_, ?_, ?_, ?_, ?_, fun b => ?_⟩
  · rw [hposts, hbays, hbase]
  · rw [hposts, hbays, hbase]
  · rw [hposts, hbays, hbase]
  · rw [hposts, hbays, hbase]
  · rw [hdl, hcdl, hbase]
  · rw [hposts, hbays, hbase]
    rfl
  · rw [hpbay, hbay, hbase]
    rfl

/-- Settles O20. -/
theorem coldStartEmptiesTheTables : Obligations.ColdStartEmptiesTheTables := by
  intro e s
  obtain ⟨hck, hdt, hcp, hst, hdl, -, hbay⟩ := coldStart_parts e s
  refine ⟨coldStart e s, rfl, ?_, hdt, hcp, ?_, ?_, fun b => ?_⟩
  · rw [hck]
    rfl
  · rw [hst]
  · rw [hdl]
  · rw [hbay, hst]
    rfl

end Sys2Proof.Proofs.Starts

/-! PROOFS. The readout of the log (R180 to R182). -/

namespace Sys2Proof.Proofs.LogReads

open Sys2Proof Sys2Proof.Machine Sys2Proof.Proofs.LinkRequests Sys2Proof.Proofs.Readouts Sys2Proof.Laws.Requests

/-- The state after a readout that leaves the cursor at a number and a position. -/
abbrev cursorAt (n p : Nat) (s : State) : State :=
  { s with dl := { s.dl with cursor := some ⟨n, p⟩, accesses := s.dl.accesses + 1 } }

section
variable {s : State} (hscan : s.dl.scan = false)
include hscan

/-! ## OPEN (R180) -/

theorem dlOpenSeg_state {i : SegNo} (h1 : s.dl.segs[i].state ≠ .ACTIVE) (h2 : s.dl.segs[i].state ≠ .CLOSED) :
    dlOpenSeg (some (i.val + 1)) s = (s, er .STATE) := by
  simp only [dlOpenSeg, segOf_succ, hscan, Bool.false_eq_true, if_false, if_pos (And.intro h1 h2)]

section
variable {i : SegNo} (h : s.dl.segs[i].state = .ACTIVE ∨ s.dl.segs[i].state = .CLOSED)
include h

theorem dlOpenSeg_empty (hnone : s.dl.segs[i].records = []) :
    dlOpenSeg (some (i.val + 1)) s = (s, er .NOT_FOUND) := by
  have hfirst : s.dl.segs[i].first = none := by rw [Segment.first, hnone]; rfl
  simp only [dlOpenSeg, segOf_succ, hscan, Bool.false_eq_true, if_false, hfirst,
    if_neg fun hn : _ ∧ _ => h.elim hn.1 hn.2]

theorem dlOpenSeg_taken {x : StoredRec} {xs : List StoredRec} (hrecs : s.dl.segs[i].records = x :: xs) :
    dlOpenSeg (some (i.val + 1)) s =
      (cursorAt x.seq 0 s, ok (fld "SEG" (segText i) :: segMarks s.dl.segs[i])) := by
  have hfirst : s.dl.segs[i].first = some x.seq := by rw [Segment.first, hrecs]; rfl
  simp only [dlOpenSeg, segOf_succ, hscan, Bool.false_eq_true, if_false, hfirst,
    if_neg fun hn : _ ∧ _ => h.elim hn.1 hn.2]
  rfl

end

section
variable {n : Nat} (h1 : 1 ≤ n) (hmax : n ≤ 4294967295)
include h1 hmax

theorem dlOpenSeq_missing (hnone : ∀ p ∈ s.dl.readable, p.2.seq ≠ n) : dlOpenSeq (some n) s = (s, er .NOT_FOUND) := by
  have hrange : ¬(n < 1 ∨ Config.maxSeq < n) := not_or.2 ⟨Nat.not_lt.2 h1, Nat.not_lt.2 hmax⟩
  have hfind : (s.dl.readable.find? fun p => p.2.seq == n) = none := List.find?_eq_none.2 fun p hp => by simpa using hnone p hp
  simp only [dlOpenSeq, if_neg hrange, hscan, Bool.false_eq_true, if_false, hfind]

theorem dlOpenSeq_taken {i : SegNo} {r : StoredRec} (hfind : (s.dl.readable.find? fun p => p.2.seq == n) = some (i, r)) :
    dlOpenSeq (some n) s = (cursorAt n 0 s,
      ok ([fld "SEQ" (dec n), fld "SEG" (segText i)] ++ if r.complete then [] else [bare "TORN"])) := by
  have hrange : ¬(n < 1 ∨ Config.maxSeq < n) := not_or.2 ⟨Nat.not_lt.2 h1, Nat.not_lt.2 hmax⟩
  simp only [dlOpenSeq, if_neg hrange, hscan, Bool.false_eq_true, if_false, hfind]
  rfl

end

/-! ## READ (R181, R182) -/

theorem dlRead_noCursor (hcursor : s.dl.cursor = none) : dlRead (some ()) s = (s, er .STATE) := by
  simp only [dlRead, hscan, Bool.false_eq_true, if_false, hcursor]

variable {c : Cursor} (hcursor : s.dl.cursor = some c)
include hcursor

/-- The record at the cursor is read. -/
theorem dlRead_record {i : SegNo} {r : StoredRec}
    (hfind : (s.dl.readable.find? fun p => p.2.seq == c.seq) = some (i, r)) :
    dlRead (some ()) s = readRecord i r c.pos [] s := by
  simp only [dlRead, hscan, Bool.false_eq_true, if_false, hcursor, hfind]

theorem dlRead_end (hend : ∀ p ∈ s.dl.readable, p.2.seq < c.seq) :
    dlRead (some ()) s = (cursorAt c.seq c.pos s, ok [bare "END", fld "SEQ" (dec c.seq)]) := by
  have hfind : (s.dl.readable.find? fun p => p.2.seq == c.seq) = none :=
    List.find?_eq_none.2 fun p hp => by simpa using Nat.ne_of_lt (hend p hp)
  have hnext : nextReadable s.dl c.seq = none := by
    have hnone : (s.dl.readable.filter fun p => decide (c.seq < p.2.seq)) = [] :=
      List.filter_eq_nil_iff.2 fun p hp => by simpa using Nat.le_of_lt (hend p hp)
    rw [nextReadable, hnone]
    rfl
  have hstay : addAccess s = cursorAt c.seq c.pos s := by
    unfold addAccess cursorAt
    rw [← hcursor]
    rfl
  simp only [dlRead, hscan, Bool.false_eq_true, if_false, hcursor, hfind, hnext, hstay]

/-- Over a gap the next readable record is read. -/
theorem dlRead_gap {i : SegNo} {r : StoredRec} (hnone : ∀ p ∈ s.dl.readable, p.2.seq ≠ c.seq)
    (hnext : nextReadable s.dl c.seq = some (i, r)) :
    dlRead (some ()) s = readRecord i r 0 [fld "GAP" (dec (r.seq - c.seq))] s := by
  have hfind : (s.dl.readable.find? fun p => p.2.seq == c.seq) = none :=
    List.find?_eq_none.2 fun p hp => by simpa using hnone p hp
  simp only [dlRead, hscan, Bool.false_eq_true, if_false, hcursor, hfind, hnext]

end

/-- In a list without a number twice the record of a number is the one found. -/
theorem find?_seq_of_mem {l : List (SegNo × StoredRec)} (hnodup : (l.map fun p => p.2.seq).Nodup) {p : SegNo × StoredRec}
    (hp : p ∈ l) : (l.find? fun q => q.2.seq == p.2.seq) = some p := by
  cases hfind : l.find? fun q => q.2.seq == p.2.seq with
  | none => exact absurd (List.find?_eq_none.1 hfind p hp) (by simp)
  | some q =>
    have hq : q.2.seq = p.2.seq := by simpa using List.find?_some hfind
    rw [List.inj_on_of_nodup_map hnodup (List.mem_of_find?_eq_some hfind) hp hq]

/-- The record of the lowest number above n is the next readable one. -/
theorem nextReadable_of_least {d : Dl} {n : Nat} {p : SegNo × StoredRec} (hnodup : (d.readable.map fun p => p.2.seq).Nodup)
    (hp : p ∈ d.readable) (hn : n < p.2.seq) (hleast : ∀ q ∈ d.readable, n < q.2.seq → p.2.seq ≤ q.2.seq) :
    nextReadable d n = some p := by
  have habove : p ∈ d.readable.filter fun p => decide (n < p.2.seq) := List.mem_filter.2 ⟨hp, by simpa using hn⟩
  have hmin : ((d.readable.filter fun p => decide (n < p.2.seq)).map fun p => p.2.seq).min? = some p.2.seq := by
    rw [List.min?_eq_some_iff]
    refine ⟨List.mem_map_of_mem habove, fun m hm => ?_⟩
    obtain ⟨q, hq, rfl⟩ := List.mem_map.1 hm
    obtain ⟨hq, hlt⟩ := List.mem_filter.1 hq
    exact hleast q hq (by simpa using hlt)
  simp only [nextReadable, hmin, Option.bind_some]
  exact find?_seq_of_mem (hnodup.sublist (List.filter_sublist.map _)) habove

section
variable {i : SegNo} {r : StoredRec} {pos : Nat} {gap : List Fld} {s : State}

theorem readRecord_more (hcomplete : r.complete = true) (hmore : pos + 4 < bodyCount r.record.body) :
    readRecord i r pos gap s = (cursorAt r.seq (pos + 4) s, ok (recordFields i r pos ++ gap ++ [bare "MORE"])) := by
  simp only [readRecord, hcomplete, if_true, if_pos hmore]
  rfl

theorem readRecord_last (hcomplete : r.complete = true) (hlast : bodyCount r.record.body ≤ pos + 4) :
    readRecord i r pos gap s = (cursorAt (r.seq + 1) 0 s, ok (recordFields i r pos ++ gap)) := by
  simp only [readRecord, hcomplete, if_true, if_neg (Nat.not_lt.2 hlast)]
  rfl

theorem readRecord_torn (htorn : r.complete = false) : readRecord i r pos gap s =
    (cursorAt (r.seq + 1) 0 s, ok ([bare "TORN", fld "SEQ" (dec r.seq), fld "SEG" (segText i)] ++ gap)) := by
  simp only [readRecord, htorn, Bool.false_eq_true, if_false]
  rfl

end

/-- Settles O49. -/
theorem theCursorReadsTheLog : Obligations.TheCursorReadsTheLog := by
  refine ⟨fun h s hready hscan => ?_, fun s hs => event_on (fun t => t.modDl fun d => { d with accesses := d.accesses - 1 }) hs⟩
  have hseg {i : SegNo} {t : State} {a : Answer} (hact : dlOpenSeg (some (i.val + 1)) (underKey h s) = (t, a)) :=
    exec_act (c := .dlOpenSeg h (some (i.val + 1))) rfl hready hact
  have hseq {n : Nat} {t : State} {a : Answer} (hact : dlOpenSeq (some n) (underKey h s) = (t, a)) :=
    exec_act (c := .dlOpenSeq h (some n)) rfl hready hact
  have hread {t : State} {a : Answer} (hact : dlRead (some ()) (underKey h s) = (t, a)) :=
    exec_act (c := .dlRead h (some ())) rfl hready hact
  have hkey : (underKey h s).dl.scan = false := hscan
  refine ⟨fun i => ⟨fun h1 h2 => hseg (dlOpenSeg_state hkey h1 h2), fun hstate =>
      ⟨fun hnone => hseg (dlOpenSeg_empty hkey hstate hnone), fun x xs hrecs => hseg (dlOpenSeg_taken hkey hstate hrecs)⟩⟩,
    fun n h1 hmax => ⟨fun hnone => hseq (dlOpenSeq_missing hkey h1 hmax hnone), fun i r hfind =>
      hseq (dlOpenSeq_taken hkey h1 hmax hfind)⟩,
    fun hcursor => hread (dlRead_noCursor hkey hcursor), fun c hcursor => ?_⟩
  refine ⟨fun i r hfind => ⟨fun hcomplete => ⟨fun hmore => ?_, fun hlast => ?_⟩, fun htorn => ?_⟩,
    fun hend => hread (dlRead_end hkey hcursor hend), fun i r hnone hnodup hmem hlt hleast hcomplete hlast => ?_⟩
  · have hact := (dlRead_record hkey hcursor hfind).trans (readRecord_more hcomplete hmore)
    rw [List.append_nil] at hact
    exact hread hact
  · have hact := (dlRead_record hkey hcursor hfind).trans (readRecord_last hcomplete hlast)
    rw [List.append_nil] at hact
    exact hread hact
  · exact hread ((dlRead_record hkey hcursor hfind).trans (readRecord_torn htorn))
  · have hnext := nextReadable_of_least (p := (i, r)) hnodup hmem hlt hleast
    exact hread ((dlRead_gap hkey hcursor hnone hnext).trans (readRecord_last hcomplete (by omega)))

end Sys2Proof.Proofs.LogReads

/-! PROOFS. Export and reclaim of a segment, and the LOG component (R13, R183 to R186). -/

namespace Sys2Proof.Proofs.Telling

open Sys2Proof Sys2Proof.Machine Sys2Proof.Laws.Basic Sys2Proof.Laws.Log Sys2Proof.Proofs.LinkEvents

/-- After a raise the pair of the notice is pending with those that were. -/
theorem mem_pairs_putNotice (n : Notice) (l : List Notice) (p : UnitName × NKind) :
    p ∈ (putNotice n l).map Notice.pair ↔ p = n.pair ∨ p ∈ l.map Notice.pair := by
  by_cases h : n.pair ∈ l.map Notice.pair
  · rw [pairs_putNotice_pending n l h]
    exact ⟨.inr, fun hp => hp.elim (fun e => e ▸ h) id⟩
  · rw [putNotice_new n l h, List.map_append, List.mem_append, List.map_singleton, List.mem_singleton, or_comm]

/-- A raise of another pair leaves it open whether a pair is pending. -/
theorem pending_putNotice_of_ne {n : Notice} {u : UnitName} {k : NKind} (hne : (u, k) ≠ n.pair) {d e : Dv}
    (h : e.notices = putNotice n d.notices) : e.pending u k = d.pending u k := by
  rw [Bool.eq_iff_iff, pending_iff, pending_iff, h, mem_pairs_putNotice]
  exact ⟨fun hp => hp.resolve_left hne, .inr⟩

theorem pending_toldFault {u : UnitName} {k : NKind} (hne : (u, k) ≠ (.DV, .FAULT)) {d d' e : Dv}
    (h : e.notices = toldFault d d' d.notices) : e.pending u k = d.pending u k := by
  unfold toldFault at h
  split at h
  · exact pending_putNotice_of_ne hne h
  · unfold Dv.pending
    rw [h]

/-- What is told of the components does not depend on the notices. -/
theorem toldFault_congr (d : Dv) {e e' : Dv} (ns : List Notice)
    (h : e' = { e with notices := e'.notices, attnPulse := e'.attnPulse }) : toldFault d e' ns = toldFault d e ns := by
  rw [h]
  rfl

theorem raiseIfPending_frame (u : UnitName) (k : NKind) (fs : List Fld) (s : State) :
    raiseIfPending u k fs s = { s with dv := (raiseIfPending u k fs s).dv } ∧ LinkKept s (raiseIfPending u k fs s) ∧
      (raiseIfPending u k fs s).dv.notices =
        if s.dv.pending u k = true then putNotice ⟨u, k, fs⟩ s.dv.notices else s.dv.notices := by
  refine ⟨?_, linkKept_raiseIf .., notices_raiseIf ..⟩
  unfold raiseIfPending raiseIf
  split <;> rfl

/-! ## The LOG component (R13) -/

theorem damaged_pos_iff (d : Dl) : 0 < d.damaged ↔ ∃ j : SegNo, d.segs[j].state = .DAMAGED := by
  unfold Dl.damaged Dl.count
  rw [List.length_pos_iff_exists_mem]
  simp only [List.mem_filter, beq_iff_eq, Vector.mem_toList_iff]
  refine ⟨fun ⟨g, hg, hstate⟩ => ?_, fun ⟨j, hj⟩ => ⟨_, Vector.getElem_mem j.isLt, hj⟩⟩
  obtain ⟨i, hi, rfl⟩ := Vector.getElem_of_mem hg
  exact ⟨⟨i, hi⟩, hstate⟩

/-- The LOG component follows the DAMAGED segments, and what that changes is told. -/
theorem reportLog_frame (s : State) : reportLog s = { s with dv := (reportLog s).dv } ∧
    (reportLog s).dv = { s.dv with log := decide (∃ j : SegNo, s.dl.segs[j].state = .DAMAGED)
                                   notices := (reportLog s).dv.notices
                                   attnPulse := (reportLog s).dv.attnPulse } ∧
    (reportLog s).dv.notices = toldFault s.dv (reportLog s).dv s.dv.notices := by
  obtain ⟨hframe, hdv, hnotices⟩ := setComponents_frame (fun d => { d with log := decide (0 < s.dl.damaged) }) s rfl
  have hlog : decide (0 < s.dl.damaged) = decide (∃ j : SegNo, s.dl.segs[j].state = .DAMAGED) :=
    decide_eq_decide.2 (damaged_pos_iff s.dl)
  refine ⟨hframe, ?_, hnotices.trans (toldFault_congr _ _ hdv).symm⟩
  rw [← hlog]
  exact hdv

end Sys2Proof.Proofs.Telling

namespace Sys2Proof.Proofs.LogReclaims

open Sys2Proof Sys2Proof.Machine Sys2Proof.Laws.Basic Sys2Proof.Laws.Requests Sys2Proof.Proofs.LinkRequests
open Sys2Proof.Proofs.Readouts Sys2Proof.Proofs.Telling

/-! ## EXPORTED (R183) -/

section
variable {s : State} {i : SegNo} (hscan : s.dl.scan = false)
include hscan

theorem dlExported_state (h : s.dl.segs[i].state ≠ .CLOSED) : dlExported (some (i.val + 1)) s = (s, er .STATE) := by
  simp only [dlExported, segOf_succ, hscan, Bool.false_eq_true, if_false, if_pos h]

theorem dlExported_taken (h : s.dl.segs[i].state = .CLOSED) : dlExported (some (i.val + 1)) s =
    ({ s with dl := { s.dl with segs := s.dl.segs.set i { s.dl.segs[i] with exported := true } } },
      ok (fld "SEG" (segText i) :: segMarks s.dl.segs[i])) := by
  unfold dlExported
  dsimp only
  rw [segOf_succ]
  dsimp only
  rw [if_neg (by simp [hscan]), if_neg (not_not.2 h)]
  rfl

/-! ## RECLAIM (R184) -/

theorem dlReclaim_refused {c : ReplyCode} (h : reclaimRefusal s i = some c) :
    dlReclaim (some (i.val + 1)) s = (s, er c) := by
  simp only [dlReclaim, segOf_succ, hscan, Bool.false_eq_true, if_false, h]

theorem dlReclaim_taken (h : reclaimRefusal s i = none) : dlReclaim (some (i.val + 1)) s =
    (beginReclaim i s, ok [fld "SEG" (segText i), fld "WORK" "800"]) := by
  have hwork : dec Config.eraseWork = "800" := by decide
  simp only [dlReclaim, segOf_succ, hscan, Bool.false_eq_true, if_false, h, hwork]

end

theorem any_reclaiming_iff (d : Dl) :
    (d.segs.toList.any fun x => x.state == .RECLAIMING) = true ↔ ∃ j : SegNo, d.segs[j].state = .RECLAIMING := by
  simp only [List.any_eq_true, Vector.mem_toList_iff, beq_iff_eq]
  refine ⟨fun ⟨g, hg, hstate⟩ => ?_, fun ⟨j, hj⟩ => ⟨_, Vector.getElem_mem j.isLt, hj⟩⟩
  obtain ⟨i, hi, rfl⟩ := Vector.getElem_of_mem hg
  exact ⟨⟨i, hi⟩, hstate⟩

section
variable {s : State} {i : SegNo}

theorem reclaimRefusal_noKey (h : s.supv = false) : reclaimRefusal s i = some .KEY_REQUIRED := by
  simp [reclaimRefusal, h]

variable (hkey : s.supv = true)
include hkey

theorem reclaimRefusal_state (h1 : s.dl.segs[i].state ≠ .CLOSED) (h2 : s.dl.segs[i].state ≠ .DAMAGED) :
    reclaimRefusal s i = some .STATE := by
  simp only [reclaimRefusal, hkey, Bool.not_true, Bool.false_eq_true, if_false, if_pos (And.intro h1 h2)]

theorem reclaimRefusal_notExported (h1 : s.dl.segs[i].state = .CLOSED) (h2 : s.dl.segs[i].exported = false) :
    reclaimRefusal s i = some .NOT_EXPORTED := by
  unfold reclaimRefusal
  rw [if_neg (by simp [hkey]), if_neg fun hn => hn.1 h1, if_pos ⟨h1, h2⟩]

variable (h : (s.dl.segs[i].state = .CLOSED ∧ s.dl.segs[i].exported = true) ∨ s.dl.segs[i].state = .DAMAGED)
include h

theorem reclaimRefusal_eligible : reclaimRefusal s i =
    if s.dl.segs.toList.any fun x => x.state == .RECLAIMING then some .BUSY else none := by
  unfold reclaimRefusal
  rcases h with ⟨hstate, hexported⟩ | hstate
  · rw [if_neg (by simp [hkey]), if_neg fun hn => hn.1 hstate,
      if_neg fun hn => Bool.noConfusion (hn.2.symm.trans hexported)]
  · rw [if_neg (by simp [hkey]), if_neg fun hn => hn.2 hstate, if_neg fun hn => nomatch hn.1.symm.trans hstate]

theorem reclaimRefusal_busy (hbusy : ∃ j : SegNo, s.dl.segs[j].state = .RECLAIMING) :
    reclaimRefusal s i = some .BUSY := by
  rw [reclaimRefusal_eligible hkey h, if_pos ((any_reclaiming_iff s.dl).2 hbusy)]

theorem reclaimRefusal_free (hfree : ∀ j : SegNo, s.dl.segs[j].state ≠ .RECLAIMING) : reclaimRefusal s i = none := by
  rw [reclaimRefusal_eligible hkey h, if_neg fun hany => ?_]
  obtain ⟨j, hj⟩ := (any_reclaiming_iff s.dl).1 hany
  exact hfree j hj

end

/-- The segment is being reclaimed, the high mark has risen, and both notices follow (R13, R179, R184). -/
theorem beginReclaim_frame (i : SegNo) (s : State) : ∃ t : State, beginReclaim i s = t ∧
    t = { s with
      dl := { s.dl with segs := s.dl.segs.set i { s.dl.segs[i] with state := .RECLAIMING }
                        highMark := max s.dl.highMark s.dl.lastTaken
                        reclaim := some ⟨i, 800⟩ }
      dv := t.dv } ∧
    t.dv = { s.dv with log := decide (∃ j : SegNo, t.dl.segs[j].state = .DAMAGED), notices := t.dv.notices,
                       attnPulse := t.dv.attnPulse } ∧
    t.dv.notices = if s.dv.pending .DL .SPACE = true then
        putNotice ⟨.DL, .SPACE, spaceFields t.dl⟩ (toldFault s.dv t.dv s.dv.notices)
      else toldFault s.dv t.dv s.dv.notices := by
  refine ⟨_, rfl, ?_⟩
  generalize hu : (s.modDl fun d => { modSeg i (fun g => { g with state := .RECLAIMING }) d with
      highMark := max d.highMark d.lastTaken, reclaim := some ⟨i, Config.eraseWork⟩ }) = u
  have hbegin : beginReclaim i s = tellSpaceIfPending (reportLog u) := by rw [← hu]; rfl
  have hudv : u.dv = s.dv := by rw [← hu]; rfl
  have hustate : u = { s with
      dl := { s.dl with segs := s.dl.segs.set i { s.dl.segs[i] with state := .RECLAIMING }
                        highMark := max s.dl.highMark s.dl.lastTaken
                        reclaim := some ⟨i, 800⟩ } } := by
    rw [← hu]
    rfl
  obtain ⟨hlog, hlogdv, hlognotices⟩ := reportLog_frame u
  obtain ⟨hspace, ⟨hspacedv, -⟩, hspacenotices⟩ := raiseIfPending_frame .DL .SPACE (spaceFields (reportLog u).dl) (reportLog u)
  have hdl : (reportLog u).dl = u.dl := by rw [hlog]
  rw [hbegin]
  unfold tellSpaceIfPending
  generalize raiseIfPending .DL .SPACE (spaceFields (reportLog u).dl) (reportLog u) = t at *
  have htdl : t.dl = u.dl := by rw [hspace, hdl]
  have hpending : (reportLog u).dv.pending .DL .SPACE = s.dv.pending .DL .SPACE := by
    rw [pending_toldFault (by decide) hlognotices, hudv]
  have htold : toldFault s.dv t.dv s.dv.notices = (reportLog u).dv.notices := by
    rw [toldFault_congr _ _ hspacedv, hlognotices, hudv]
  refine ⟨?_, ?_, ?_⟩
  · rw [hspace, hlog, hustate]
  · rw [hspacedv, hlogdv, hudv, htdl]
  · rw [hspacenotices, htold, hpending, hdl, htdl]

theorem lastTaken_idle {d : Dl} (h : d.writing = none) : d.lastTaken = d.nextSeq - 1 := by
  unfold Dl.lastTaken
  rw [h]
  rfl

theorem lastTaken_writing {d : Dl} (h : d.writing ≠ none) : d.lastTaken = d.nextSeq - 2 := by
  obtain ⟨w, hw⟩ := Option.ne_none_iff_exists'.1 h
  unfold Dl.lastTaken
  rw [hw]
  rfl

/-! ## The work done (R185, R186) -/

theorem storeFree_iff (d : Dl) : d.storeFree = true ↔ d.writing = none ∧ d.accesses = 0 := by
  simp [Dl.storeFree]

theorem reclaimDone_blocked {s : State} (h : s.dl.writing ≠ none ∨ s.dl.accesses ≠ 0) : reclaimDone s = s := by
  have hfree : s.dl.storeFree = false := Bool.eq_false_iff.2 fun hf => by
    obtain ⟨hw, ha⟩ := (storeFree_iff _).1 hf
    exact h.elim (fun hn => hn hw) fun hn => hn ha
  unfold reclaimDone
  split
  · rfl
  · simp only [hfree, Bool.false_eq_true, if_false]

theorem reclaimDone_frame {s : State} {r : Reclaim} (hr : s.dl.reclaim = some r) (hw : s.dl.writing = none)
    (ha : s.dl.accesses = 0) : ∃ t : State, reclaimDone s = t ∧
    t = { s with
      dl := { s.dl with segs := s.dl.segs.set r.seg ⟨.ERASED, none, [], none, false⟩, reclaim := none }
      dv := t.dv } ∧
    LinkKept s t ∧
    t.dv.notices =
      (let ns := putNotice ⟨.DL, .RECLAIM, [fld "RESULT" "ERASED", fld "SEG" (segText r.seg),
         fld "ERASED" (dec t.dl.erased), fld "DAMAGED" (dec t.dl.damaged)]⟩ s.dv.notices
       if s.dv.pending .DL .SPACE = true then putNotice ⟨.DL, .SPACE, spaceFields t.dl⟩ ns else ns) := by
  refine ⟨_, rfl, ?_⟩
  generalize hu : tellReclaim "ERASED" r.seg
    (s.modDl fun d => { modSeg r.seg (fun _ => Segment.erased) d with reclaim := none }) = u
  have hdone : reclaimDone s = raiseIfPending .DL .SPACE (spaceFields u.dl) u := by
    simp only [reclaimDone, hr, (storeFree_iff _).2 ⟨hw, ha⟩, if_true, hu, tellSpaceIfPending]
  have hustate : u = { s with
      dl := { s.dl with segs := s.dl.segs.set r.seg ⟨.ERASED, none, [], none, false⟩, reclaim := none }
      dv := u.dv } := by
    rw [← hu]
    rfl
  have hukept : LinkKept s u := by rw [← hu]; exact ⟨rfl, rfl, rfl, rfl⟩
  have hunotices : u.dv.notices = putNotice ⟨.DL, .RECLAIM, [fld "RESULT" "ERASED", fld "SEG" (segText r.seg),
         fld "ERASED" (dec u.dl.erased), fld "DAMAGED" (dec u.dl.damaged)]⟩ s.dv.notices := by
    rw [← hu]
    rfl
  obtain ⟨hspace, hkept, hnotices⟩ := raiseIfPending_frame .DL .SPACE (spaceFields u.dl) u
  rw [hdone]
  generalize raiseIfPending .DL .SPACE (spaceFields u.dl) u = t at *
  have htdl : t.dl = u.dl := by rw [hspace]
  refine ⟨?_, linkKept_trans hukept hkept, ?_⟩
  · rw [hspace, hustate]
  · rw [hnotices, htdl, pending_putNotice_of_ne (by decide : (UnitName.DL, NKind.SPACE) ≠ (.DL, .RECLAIM)) hunotices]
    dsimp only
    rw [← hunotices]

/-- Settles O50. -/
theorem exportAndReclaim : Obligations.ExportAndReclaim := by
  refine ⟨fun h i s hready hscan => ?_, fun r s hs hr => ⟨fun hblocked => ?_, fun hw ha => ?_⟩⟩
  · obtain ⟨tag, key⟩ := h
    have hexported {t : State} {a : Answer} (hact : dlExported (some (i.val + 1)) (underKey ⟨tag, key⟩ s) = (t, a)) :=
      exec_act (c := .dlExported ⟨tag, key⟩ (some (i.val + 1))) rfl hready hact
    have hreclaim {t : State} {a : Answer} (hact : dlReclaim (some (i.val + 1)) (underKey ⟨tag, key⟩ s) = (t, a)) :=
      exec_act (c := .dlReclaim ⟨tag, key⟩ (some (i.val + 1))) rfl hready hact
    have hscan' : (underKey ⟨tag, key⟩ s).dl.scan = false := hscan
    refine ⟨fun hstate => hexported (dlExported_state hscan' hstate), fun hstate => hexported (dlExported_taken hscan' hstate),
      fun hkey => ?_, fun hkey => ?_⟩
    · exact hreclaim (dlReclaim_refused hscan' (reclaimRefusal_noKey hkey))
    · have hkey' : (underKey ⟨tag, key⟩ s).supv = true := hkey
      refine ⟨fun h1 h2 => hreclaim (dlReclaim_refused hscan' (reclaimRefusal_state hkey' h1 h2)),
        fun h1 h2 => hreclaim (dlReclaim_refused hscan' (reclaimRefusal_notExported hkey' h1 h2)), fun hfit =>
        ⟨fun hbusy => hreclaim (dlReclaim_refused hscan' (reclaimRefusal_busy hkey' hfit hbusy)), fun hfree => ?_⟩⟩
      obtain ⟨t, ht, hstate, hdv, hnotices⟩ := beginReclaim_frame i (underKey ⟨tag, key⟩ s)
      have htaken := dlReclaim_taken hscan' (reclaimRefusal_free hkey' hfit hfree)
      rw [ht] at htaken
      refine ⟨t, hreclaim htaken, ?_, fun hw => ?_, fun hw => ?_, hdv, hnotices, ?_⟩
      · rw [hstate]
      · rw [← lastTaken_idle hw, hstate]
      · rw [← lastTaken_writing hw, hstate]
      · rw [hstate]
        exact ⟨rfl, rfl, rfl, rfl, rfl, rfl, rfl, rfl, rfl⟩
  · have hdone := event_on reclaimDone hs
    rw [reclaimDone_blocked hblocked] at hdone
    exact hdone
  · obtain ⟨t, ht, hstate, hkept, hnotices⟩ := reclaimDone_frame hr hw ha
    refine ⟨t, ?_, ?_, hnotices, hkept, ?_⟩
    · rw [← ht]
      exact event_on reclaimDone hs
    · rw [hstate]
    · rw [hstate]
      exact ⟨rfl, rfl, rfl, rfl, rfl, rfl⟩

end Sys2Proof.Proofs.LogReclaims

/-! PROOFS. The end of the start-up scan (R187 to R189). -/

namespace Sys2Proof.Proofs.ScanEnds

open Sys2Proof Sys2Proof.Machine Sys2Proof.Laws.Basic Sys2Proof.Laws.Requests Sys2Proof.Proofs.Telling
open Sys2Proof.Proofs.LogNumbers

/-! ## What the scan finds (R189) -/

theorem foldl_max_attained (l : List Nat) (m : Nat) : l.foldl max m = m ∨ l.foldl max m ∈ l := by
  induction l generalizing m with
  | nil => exact .inl rfl
  | cons a l ih =>
    rcases ih (max m a) with h | h
    · rcases Nat.le_total a m with hle | hle
      · exact .inl (h.trans (Nat.max_eq_left hle))
      · exact .inr (List.mem_cons.2 (.inl (h.trans (Nat.max_eq_right hle))))
    · exact .inr (List.mem_cons_of_mem _ h)

theorem readable_scanned (d : Dl) : (scanned d).readable = (scannedSegs d).readable := rfl

theorem nextSeq_scanned_above (d : Dl) :
    d.highMark < (scanned d).nextSeq ∧ ∀ p ∈ (scanned d).readable, p.2.seq < (scanned d).nextSeq := by
  rw [nextSeq_scanned, readable_scanned]
  obtain ⟨-, hle⟩ := le_foldl_max (d.highMark :: (scannedSegs d).readable.map fun p => p.2.seq) 0
  exact ⟨Nat.lt_succ_of_le (hle _ List.mem_cons_self),
    fun p hp => Nat.lt_succ_of_le (hle _ (List.mem_cons_of_mem _ (List.mem_map_of_mem hp)))⟩

theorem nextSeq_scanned_least (d : Dl) :
    (scanned d).nextSeq = d.highMark + 1 ∨ ∃ p ∈ (scanned d).readable, (scanned d).nextSeq = p.2.seq + 1 := by
  rw [nextSeq_scanned, readable_scanned, List.foldl_cons, Nat.zero_max]
  rcases foldl_max_attained ((scannedSegs d).readable.map fun p => p.2.seq) d.highMark with h | h
  · exact .inl (congrArg (· + 1) h)
  · obtain ⟨p, hp, heq⟩ := List.mem_map.1 h
    exact .inr ⟨p, hp, congrArg (· + 1) heq.symm⟩

theorem day_scanned {d : Dl} (hstore : d.countsFromStore = false)
    (hopen : ∀ i : SegNo, d.segs[i].state = .ACTIVE → d.segs[i].endsDay = false) : (scanned d).day = d.day := by
  have hclosed : (d.segs.toList.any fun g => g.state == .ACTIVE && g.endsDay) = false := by
    rw [List.any_eq_false]
    intro g hg
    obtain ⟨i, hi, rfl⟩ := Vector.getElem_of_mem (Vector.mem_toList_iff.1 hg)
    intro h
    rw [Bool.and_eq_true, beq_iff_eq] at h
    exact Bool.noConfusion ((hopen ⟨i, hi⟩ h.1).symm.trans h.2)
  simp only [scanned, hstore, hclosed, Bool.or_self, Bool.false_eq_true, if_false]

/-- The first segment with a property is found. -/
theorem find?_allSegs {p : SegNo → Bool} {i : SegNo} (hi : p i = true) (hfirst : ∀ j : SegNo, j < i → p j = false) :
    allSegs.find? p = some i := by
  have hsome : (allSegs.find? p).isSome = true := List.find?_isSome.2 ⟨i, List.mem_finRange i, hi⟩
  obtain ⟨k, hk⟩ := Option.isSome_iff_exists.1 hsome
  obtain ⟨hpk, pre, post, hsplit, hpre⟩ := List.find?_eq_some_iff_append.1 hk
  have hsorted : (pre ++ k :: post).Pairwise (· < ·) := by
    have hrange : allSegs.Pairwise (· < ·) := List.pairwise_lt_finRange 32
    rwa [hsplit] at hrange
  have hmem : i ∈ pre ++ k :: post := hsplit ▸ List.mem_finRange i
  rw [hk]
  rcases List.mem_append.1 hmem with h | h
  · exact absurd hi (by simpa using hpre i h)
  · rcases List.mem_cons.1 h with rfl | h
    · rfl
    · have hlt : k < i := List.rel_of_pairwise_cons (List.pairwise_append.1 hsorted).2.1 h
      exact absurd hpk (by simp [hfirst k hlt])

/-! ## The end of the scan -/

/-- The notices of a scan that ended with the segments of d. -/
def spaceTold (d : Dl) (ns : List Notice) : List Notice :=
  if d.erased ≤ 2 then putNotice ⟨.DL, .SPACE, spaceFields d⟩ ns else ns

/-- The reclaim that the start cut off is told. -/
def interruptedTold (d : Dl) (cut : Option SegNo) (ns : List Notice) : List Notice :=
  match cut with
  | some i => putNotice ⟨.DL, .RECLAIM, [fld "RESULT" "INTERRUPTED", fld "SEG" (segText i),
      fld "ERASED" (dec d.erased), fld "DAMAGED" (dec d.damaged)]⟩ ns
  | none => ns

/-- The notice of the reclaim that the start cut off (R186, R188). -/
def tellInterrupted (cut : Option SegNo) (s : State) : State :=
  match cut with
  | some i => tellReclaim "INTERRUPTED" i s
  | none => s

theorem scanDone_idle {s : State} (h : s.dl.scan = false) : scanDone s = s := by
  simp only [scanDone, h, Bool.false_eq_true, if_false]

theorem scanDone_frame {s : State} (h : s.dl.scan = true) : ∃ t : State, scanDone s = t ∧
    t = { s with dl := { scanned s.dl with scan := false }, dv := t.dv } ∧
    t.dv = { s.dv with log := decide (∃ i : SegNo, t.dl.segs[i].state = .DAMAGED), notices := t.dv.notices,
                       attnPulse := t.dv.attnPulse } ∧
    t.dv.notices = spaceTold t.dl (interruptedTold t.dl (allSegs.find? fun i => s.dl.segs[i].state == .RECLAIMING)
      (toldFault s.dv t.dv s.dv.notices)) := by
  refine ⟨_, rfl, ?_⟩
  generalize hu : (s.modDl fun d => { scanned d with scan := false }) = u
  have hustate : u = { s with dl := { scanned s.dl with scan := false } } := by rw [← hu]; rfl
  have hudv : u.dv = s.dv := by rw [hustate]
  obtain ⟨hlog, hlogdv, hlognotices⟩ := reportLog_frame u
  have hlogdl : (reportLog u).dl = u.dl := by rw [hlog]
  generalize hcut : (allSegs.find? fun i => s.dl.segs[i].state == .RECLAIMING) = cut
  generalize hv : tellInterrupted cut (reportLog u) = v
  have hvstate : v = { reportLog u with dv := v.dv } ∧ LinkKept (reportLog u) v ∧
      v.dv.notices = interruptedTold v.dl cut (reportLog u).dv.notices := by
    rw [← hv]
    cases cut with
    | none => exact ⟨rfl, linkKept_refl _, rfl⟩
    | some i => exact ⟨rfl, linkKept_raise .., rfl⟩
  obtain ⟨hvstate, hvkept, hvnotices⟩ := hvstate
  have hvdl : v.dl = u.dl := by rw [hvstate, hlogdl]
  have hdone : scanDone s = if v.dl.erased ≤ 2 then tellSpace v else v := by
    rw [← hv, ← hcut, ← hu]
    simp only [scanDone, h, if_true]
    rfl
  have hkept : ∀ t, scanDone s = t → t = { v with dv := t.dv } ∧ LinkKept v t ∧ t.dv.notices = spaceTold v.dl v.dv.notices := by
    rw [hdone]
    rintro _ rfl
    unfold spaceTold
    split
    · exact ⟨rfl, linkKept_raise .., rfl⟩
    · exact ⟨rfl, linkKept_refl _, rfl⟩
  obtain ⟨htstate, htkept, htnotices⟩ := hkept _ rfl
  generalize scanDone s = t at *
  have htdl : t.dl = u.dl := by rw [htstate, hvdl]
  obtain ⟨hdv, -⟩ := linkKept_trans hvkept htkept
  have htold : toldFault s.dv t.dv s.dv.notices = (reportLog u).dv.notices := by
    rw [toldFault_congr _ _ hdv, hlognotices, hudv]
  refine ⟨?_, ?_, ?_⟩
  · rw [htstate, hvstate, hlog, hustate]
  · rw [hdv, hlogdv, hudv, htdl]
  · rw [htnotices, hvnotices, htold, hvdl, htdl]

/-- Settles O51. -/
theorem theScanFindsTheNextNumber : Obligations.TheScanFindsTheNextNumber := by
  refine fun s hs => ⟨fun h => ?_, fun h => ?_⟩
  · have hdone := event_on scanDone hs
    rw [scanDone_idle h] at hdone
    exact hdone
  · obtain ⟨t, ht, hstate, hdv, hnotices⟩ := scanDone_frame h
    have hdl : t.dl = { scanned s.dl with scan := false } := by rw [hstate]
    have hreadable : t.dl.readable = (scanned s.dl).readable := by rw [hdl]; rfl
    have hnext : t.dl.nextSeq = (scanned s.dl).nextSeq := by rw [hdl]
    obtain ⟨hhigh, habove⟩ := nextSeq_scanned_above s.dl
    refine ⟨t, ?_, ?_, fun i => ?_, ?_, ?_, ?_, fun hstore hopen => ?_, ?_⟩
    · rw [← ht]
      exact event_on scanDone hs
    · rw [hdl]
    · have hseg : t.dl.segs[i] = scanSegment s.dl.segs[i] := by
        rw [hdl]
        exact segs_scanned s.dl i
      rw [hseg]
      unfold scanSegment
      rfl
    · rw [hnext]
      exact hhigh
    · rw [hnext, hreadable]
      exact habove
    · rw [hnext, hreadable]
      exact nextSeq_scanned_least s.dl
    · rw [hdl]
      exact day_scanned hstore hopen
    refine ⟨by rw [hdl]; rfl, by rw [hdl]; rfl, by rw [hdl]; rfl, by rw [hdl]; rfl, by rw [hdl]; rfl, by rw [hdl]; rfl,
      hdv, ⟨fun hnone => ?_, fun i hi hfirst => ?_⟩, ?_⟩
    · have hcut : (allSegs.find? fun i => s.dl.segs[i].state == .RECLAIMING) = none :=
        List.find?_eq_none.2 fun i _ => by simpa using hnone i
      rw [hnotices, hcut]
      rfl
    · have hcut := find?_allSegs (p := fun i => s.dl.segs[i].state == .RECLAIMING) (i := i) (by simpa using hi)
        fun j hj => by simpa using hfirst j hj
      rw [hnotices, hcut]
      rfl
    · rw [hstate]
      exact ⟨rfl, rfl, rfl, rfl, rfl, rfl, rfl, rfl, rfl⟩

end Sys2Proof.Proofs.ScanEnds

/-! PROOFS. Serving the head append (R174 to R177). -/

namespace Sys2Proof.Proofs.AppendServed

open Sys2Proof Sys2Proof.Machine Sys2Proof.Laws.Basic Sys2Proof.Laws.Log Sys2Proof.Laws.Requests Sys2Proof.Proofs.Keeping
open Sys2Proof.Proofs.Telling Sys2Proof.Proofs.ScanEnds Sys2Proof.Proofs.LogNumbers

/-! ## The place of a record (R169, R175) -/

/-- With no record being written the used slots are those of the records. -/
theorem used_idle {d : Dl} (h : d.writing = none) (i : SegNo) :
    d.used i = (d.segs[i].records.map fun x => x.record.slots).sum := by
  unfold Dl.used
  rw [h]
  rfl

/-- A record has the head slot at the least. -/
theorem slots_pos (r : LogRec) : 0 < r.slots := Nat.lt_of_lt_of_le Nat.one_pos (Nat.le_add_right 1 _)

theorem room_iff {d : Dl} (h : d.writing = none) (r : LogRec) (i : SegNo) :
    r.slots ≤ d.free i ↔ r.slots + (d.segs[i].records.map fun x => x.record.slots).sum ≤ 256 := by
  have hpos := slots_pos r
  have hsize : Config.segSlots = 256 := rfl
  unfold Dl.free
  rw [used_idle h, hsize]
  omega

section
variable {d : Dl} {r : LogRec} (hidle : d.writing = none)
include hidle

theorem placeFor_of_room (hmax : d.nextSeq ≤ 4294967295) {i : SegNo} (hactive : d.active = some i)
    (hroom : r.slots + (d.segs[i].records.map fun x => x.record.slots).sum ≤ 256) : placeFor d r.slots = .fits i := by
  have hseq : ¬Config.maxSeq < d.nextSeq := Nat.not_lt.2 hmax
  have hfits : (d.active.filter fun i => decide (r.slots ≤ d.free i)) = some i := by
    rw [hactive, Option.filter_some_pos (by simpa using (room_iff hidle r i).2 hroom)]
  simp only [placeFor, if_neg hseq, hfits]

/-- Where the ACTIVE segment has no room. -/
theorem placeFor_of_noRoom (hmax : d.nextSeq ≤ 4294967295)
    (hnoRoom : ∀ i, d.active = some i → ¬(r.slots + (d.segs[i].records.map fun x => x.record.slots).sum ≤ 256)) :
    placeFor d r.slots = (nextErased d).elim .full .opens := by
  have hseq : ¬Config.maxSeq < d.nextSeq := Nat.not_lt.2 hmax
  have hnone : (d.active.filter fun i => decide (r.slots ≤ d.free i)) = none := by
    rw [Option.filter_eq_none_iff]
    intro i hi
    have hroom := mt (room_iff hidle r i).1 (hnoRoom i hi)
    simpa using hroom
  simp only [placeFor, if_neg hseq, hnone]
  cases nextErased d <;> rfl

end

theorem placeFor_exhausted {d : Dl} (h : 4294967295 < d.nextSeq) (k : Nat) : placeFor d k = .full := by
  have hseq : Config.maxSeq < d.nextSeq := h
  simp only [placeFor, if_pos hseq]

/-- The first ERASED segment after the last opened one is found. -/
theorem nextErased_first {d : Dl} {k : SegNo} (hk : d.segs[d.lastOpened + 1 + k].state = .ERASED)
    (hfirst : ∀ j : SegNo, j < k → d.segs[d.lastOpened + 1 + j].state ≠ .ERASED) :
    nextErased d = some (d.lastOpened + 1 + k) := by
  have hfind := find?_allSegs (p := fun i => d.segs[d.lastOpened + 1 + i].state == .ERASED) (i := k) (by simpa using hk)
    fun j hj => by simpa using hfirst j hj
  unfold nextErased
  rw [List.find?_map, Option.map_eq_some_iff]
  exact ⟨k, hfind, rfl⟩

theorem nextErased_none {d : Dl} (h : ∀ i : SegNo, d.segs[i].state ≠ .ERASED) : nextErased d = none := by
  unfold nextErased
  rw [List.find?_eq_none]
  intro i _
  simpa using h i

theorem raiseIf_frame (c : Bool) (u : UnitName) (k : NKind) (fs : List Fld) (s : State) :
    raiseIf c u k fs s = { s with dv := (raiseIf c u k fs s).dv } ∧ LinkKept s (raiseIf c u k fs s) ∧
      (raiseIf c u k fs s).dv.notices = if c = true then putNotice ⟨u, k, fs⟩ s.dv.notices else s.dv.notices := by
  refine ⟨?_, linkKept_raiseIf .., notices_raiseIf ..⟩
  unfold raiseIf
  split <;> rfl

/-! ## A record that is taken (R175, R177) -/

section
variable {s : State} (hscan : s.dl.scan = false) (hidle : s.dl.writing = none) {a : Append} {q : List Append}
  (hqueue : s.dl.queue = a :: q)
include hscan hidle hqueue

theorem serveAppend_fits {i : SegNo} (h : placeFor s.dl a.record.slots = .fits i) :
    serveAppend s = beginWrite a i false s := by
  simp [serveAppend, hscan, hidle, hqueue, h]

theorem serveAppend_opens {i : SegNo} (h : placeFor s.dl a.record.slots = .opens i) :
    serveAppend s = beginWrite a i true (openSegment i s) := by
  simp [serveAppend, hscan, hidle, hqueue, h]

theorem serveAppend_full (h : placeFor s.dl a.record.slots = .full) : serveAppend s = refuseAppend a s := by
  simp [serveAppend, hscan, hidle, hqueue, h]

end

theorem serveAppend_blocked {s : State} (h : s.dl.scan = true ∨ s.dl.writing ≠ none ∨ s.dl.queue = []) :
    serveAppend s = s := by
  unfold serveAppend
  split
  · rfl
  · rename_i hfree
    rw [Bool.or_eq_true, not_or, Option.isSome_iff_ne_none, not_not] at hfree
    obtain ⟨hscan, hidle⟩ := hfree
    have hqueue : s.dl.queue = [] := (h.resolve_left hscan).resolve_left fun hn => hn hidle
    rw [hqueue]

/-- The segments and notices of an opening (R175, R179). -/
theorem openSegment_frame (i : SegNo) (s : State) : ∃ t : State, openSegment i s = t ∧
    t = { s with dl := opening i (if s.ck.isSet then some s.ck.count else none) s.dl, dv := t.dv } ∧ LinkKept s t ∧
    t.dv.notices = if t.dl.erased ≤ 2 ∨ s.dv.pending .DL .SPACE = true then
      putNotice ⟨.DL, .SPACE, spaceFields t.dl⟩ s.dv.notices else s.dv.notices := by
  refine ⟨_, rfl, ?_⟩
  generalize hu : s.modDl (opening i (if s.ck.isSet then some s.ck.count else none)) = u
  have hopen : openSegment i s =
      raiseIf (decide (u.dl.erased ≤ 2) || u.dv.pending .DL .SPACE) .DL .SPACE (spaceFields u.dl) u := by
    rw [← hu]
    rfl
  have hustate : u = { s with dl := opening i (if s.ck.isSet then some s.ck.count else none) s.dl } := by
    rw [← hu]
    rfl
  obtain ⟨hframe, hkept, hnotices⟩ :=
    raiseIf_frame (decide (u.dl.erased ≤ 2) || u.dv.pending .DL .SPACE) .DL .SPACE (spaceFields u.dl) u
  rw [hopen]
  generalize raiseIf (decide (u.dl.erased ≤ 2) || u.dv.pending .DL .SPACE) .DL .SPACE (spaceFields u.dl) u = t at *
  have hdl : t.dl = u.dl := by rw [hframe]
  have hudv : u.dv = s.dv := by rw [hustate]
  have hukept : LinkKept s u := by
    rw [hustate]
    exact linkKept_refl s
  refine ⟨?_, linkKept_trans hukept hkept, ?_⟩
  · rw [hframe, hustate]
  · rw [hnotices, hdl, hudv]
    simp only [Bool.or_eq_true, decide_eq_true_eq]

/-! ## A record that is refused (R176) -/

/-- The driver of a refused DISPATCH record is no longer pending (R62). -/
def abandoned (b : Bay) (r : LogRec) (s : State) : State :=
  match r.body with
  | .DISPATCH d => dtAbandon d.drv b s
  | _ => s

theorem abandoned_frame (b : Bay) (r : LogRec) (s : State) : abandoned b r s = { s with dt := (abandoned b r s).dt } := by
  unfold abandoned
  split <;> rfl

theorem abandoned_dispatch {r : LogRec} {d : DispatchBody} (h : r.body = .DISPATCH d) (b : Bay) (s : State) :
    (abandoned b r s).dt = { s.dt with drivers := s.dt.drivers.map fun y =>
      if y.num = d.drv ∧ y.status = .AT_BAY b then { y with pend := false } else y } := by
  have hmap : (s.dt.drivers.map fun x => if x.num == d.drv then
        if x.status = .AT_BAY b then { x with pend := false } else x else x) =
      s.dt.drivers.map fun y => if y.num = d.drv ∧ y.status = .AT_BAY b then { y with pend := false } else y :=
    List.map_congr_left fun y _ => by simp only [beq_iff_eq, ite_and]
  simp only [abandoned, h, dtAbandon, modDriver, State.dt_modDt, hmap]

theorem abandoned_other {r : LogRec} (h : ∀ d, r.body ≠ .DISPATCH d) (b : Bay) (s : State) : abandoned b r s = s := by
  unfold abandoned
  split
  · exact absurd ‹_› (h _)
  · rfl

/-- A bay after a refused record, which has left its outbox. -/
def refusedBay (r : LogRec) (u : BayUnit) : BayUnit :=
  { u with
    logfull := min 65535 (u.logfull + 1)
    outbox := u.outbox.drop 1
    state := if isDispatch r ∧ u.state = .DISPATCHING then .ASSIGNED else u.state }

/-- What a refused record does to its source, before the next one is posted. -/
def refusedUnit (src : LogSource) (r : LogRec) (s : State) : State :=
  match src with
  | .B b =>
    (tellState b "LOG_FULL" ((abandoned b r s).modBay b fun u =>
      { u.countRefusal with state := if isDispatch r ∧ u.state = .DISPATCHING then .ASSIGNED else u.state })).modBay b
        fun u => { u with outbox := u.outbox.drop 1 }
  | .DT =>
    let t := s.modDt fun d => { d with logfull := satAdd Config.maxCount16 d.logfull 1 }
    (raise .DT .TRIP (tripFields t.dt) t).modDt fun d => { d with outbox := d.outbox.drop 1 }
  | .CK => s.modCk fun c => { c with outbox := c.outbox.drop 1 }
  | .ST => stOutcome r none s
  | .DV => s

theorem postFrom_of_empty {src : LogSource} {s : State} (h : s.outbox src = []) : postFrom src s = s := by
  unfold postFrom
  rw [h]
  split <;> rfl

theorem reportRefused_eq (src : LogSource) (r : LogRec) (s : State) :
    reportRefused src r s = postFrom src (refusedUnit src r s) := by
  cases src with
  | ST => exact (postFrom_of_empty rfl).symm
  | DV => exact (postFrom_of_empty rfl).symm
  | B b => rfl
  | DT => rfl
  | CK => rfl

theorem bay_tellState (b c : Bay) (reason : String) (s : State) : (tellState b reason s).bay c = s.bay c := rfl

theorem refusedUnit_bay (b : Bay) (r : LogRec) (s : State) : ∃ t : State, refusedUnit (.B b) r s = t ∧
    t = { s with dt := (abandoned b r s).dt, bays := t.bays, dv := t.dv } ∧ LinkKept s t ∧
    t.bay b = refusedBay r (s.bay b) ∧ (∀ c, c ≠ b → t.bay c = s.bay c) ∧
    t.dv.notices = putNotice ⟨.B b, .STATE, stateFields (t.bay b) "LOG_FULL"⟩ s.dv.notices := by
  refine ⟨_, rfl, ?_⟩
  have hab := abandoned_frame b r s
  unfold refusedUnit
  dsimp only
  generalize (abandoned b r s).dt = d at hab
  generalize abandoned b r s = s1 at *
  subst hab
  refine ⟨rfl, ⟨rfl, rfl, rfl, rfl⟩, ?_, fun c hc => ?_, ?_⟩
  · rw [State.bay_modBay_self, bay_tellState, State.bay_modBay_self]
    rfl
  · rw [State.bay_modBay_ne _ _ _ _ hc.symm, bay_tellState, State.bay_modBay_ne _ _ _ _ hc.symm]
    rfl
  · rw [State.bay_modBay_self, bay_tellState, State.bay_modBay_self]
    refine congrArg (fun fs => putNotice ⟨.B b, .STATE, fs⟩ s.dv.notices) ?_
    rw [State.bay_modBay_self]
    rfl

/-- A refused record leaves the tables of the other sources, the documents, the sampler and the log. -/
theorem refusedUnit_frame (src : LogSource) (r : LogRec) (s : State) : LinkKept s (refusedUnit src r s) ∧
    (refusedUnit src r s).cp = s.cp ∧ (refusedUnit src r s).ts = s.ts ∧ (refusedUnit src r s).dl = s.dl ∧
    ((∀ b, src ≠ .B b) → src ≠ .DT → (refusedUnit src r s).dt = s.dt) ∧
    (src ≠ .CK → (refusedUnit src r s).ck = s.ck) ∧ (src ≠ .ST → (refusedUnit src r s).st = s.st) ∧
    ∀ b, src ≠ .B b → (refusedUnit src r s).bay b = s.bay b := by
  cases src with
  | ST => exact ⟨⟨rfl, rfl, rfl, rfl⟩, rfl, rfl, rfl, fun _ _ => rfl, fun _ => rfl, fun h => absurd rfl h, fun _ _ => rfl⟩
  | DV => exact ⟨⟨rfl, rfl, rfl, rfl⟩, rfl, rfl, rfl, fun _ _ => rfl, fun _ => rfl, fun _ => rfl, fun _ _ => rfl⟩
  | DT => exact ⟨⟨rfl, rfl, rfl, rfl⟩, rfl, rfl, rfl, fun _ h => absurd rfl h, fun _ => rfl, fun _ => rfl, fun _ _ => rfl⟩
  | CK => exact ⟨⟨rfl, rfl, rfl, rfl⟩, rfl, rfl, rfl, fun _ _ => rfl, fun h => absurd rfl h, fun _ => rfl, fun _ _ => rfl⟩
  | B c =>
    obtain ⟨t, ht, hstate, hkept, -, hne, -⟩ := refusedUnit_bay c r s
    rw [ht]
    refine ⟨hkept, ?_, ?_, ?_, fun h => absurd rfl (h c), fun _ => ?_, fun _ => ?_, fun b hb => hne b fun e => hb (e ▸ rfl)⟩
    all_goals rw [hstate]

/-- The notice of a refused record (R176). -/
def refusedTold (src : LogSource) (r : LogRec) (t : State) (ns : List Notice) : List Notice :=
  match src with
  | .B b => putNotice ⟨.B b, .STATE, stateFields (t.bay b) "LOG_FULL"⟩ ns
  | .DT => putNotice ⟨.DT, .TRIP, tripFields t.dt⟩ ns
  | .ST => putNotice ⟨.ST, .APPLIED, [fld "RESULT" "APPLIED", fld "CHANGED" (sectionsText (sectionsOf r)),
      fld "RECORD" "LOG_FULL"]⟩ ns
  | _ => ns

theorem notices_refusedUnit (src : LogSource) (r : LogRec) (s : State) :
    (refusedUnit src r s).dv.notices = refusedTold src r (refusedUnit src r s) s.dv.notices := by
  cases src with
  | ST => rfl
  | DV => rfl
  | DT => rfl
  | CK => rfl
  | B c =>
    obtain ⟨t, ht, -, -, -, -, hnotices⟩ := refusedUnit_bay c r s
    rw [ht]
    exact hnotices

/-- The notice of a refused DAY_CLOSE record (R178). -/
def dayRefused (r : LogRec) (s : State) : State :=
  match r.body with
  | .DAY_CLOSE _ => raise .DL .DAY (fld "RESULT" "LOG_FULL" :: dayFields s.dl.day) s
  | _ => s

def dayRefusedTold (r : LogRec) (n : DayCounts) (ns : List Notice) : List Notice :=
  match r.body with
  | .DAY_CLOSE _ => putNotice ⟨.DL, .DAY, fld "RESULT" "LOG_FULL" :: dayFields n⟩ ns
  | _ => ns

theorem dayRefused_frame (r : LogRec) (s : State) : dayRefused r s = { s with dv := (dayRefused r s).dv } ∧
    LinkKept s (dayRefused r s) ∧ (dayRefused r s).dv.notices = dayRefusedTold r s.dl.day s.dv.notices := by
  unfold dayRefused dayRefusedTold
  split
  · exact ⟨rfl, linkKept_raise .., rfl⟩
  · exact ⟨rfl, linkKept_refl s, rfl⟩

/-- A refusal as a whole: the source, the count, the notices. -/
theorem refuseAppend_frame (a : Append) (s : State) : ∃ u t : State,
    u = refusedUnit a.source a.record (s.modDl fun d => { d with queue := d.queue.drop 1 }) ∧ refuseAppend a s = t ∧
    t = { u with
      dl := { u.dl with
        queue := (postFrom a.source u).dl.queue
        refused := min 65535 (u.dl.refused + 1) }
      dv := t.dv } ∧ LinkKept u t ∧
    t.dv.notices = dayRefusedTold a.record u.dl.day (putNotice ⟨.DL, .SPACE, spaceFields t.dl⟩ u.dv.notices) := by
  refine ⟨_, _, rfl, rfl, ?_⟩
  have hrefuse : refuseAppend a s = dayRefused a.record (tellSpace ((reportRefused a.source a.record
    (s.modDl fun d => { d with queue := d.queue.drop 1 })).modDl fun d =>
      { d with refused := satAdd Config.maxCount16 d.refused 1 })) := rfl
  rw [hrefuse, reportRefused_eq]
  generalize refusedUnit a.source a.record (s.modDl fun d => { d with queue := d.queue.drop 1 }) = u at *
  have hpost := postFrom_frame a.source u
  have hpostdl := dl_postFrom a.source u
  generalize postFrom a.source u = p at *
  generalize hv : tellSpace (p.modDl fun d => { d with refused := satAdd Config.maxCount16 d.refused 1 }) = v
  have hpdl : p.dl = { u.dl with queue := p.dl.queue } := by rw [hpostdl]
  have hpdv : p.dv = u.dv := by rw [hpost]
  have hvstate : v = { p with dl := { p.dl with refused := min 65535 (p.dl.refused + 1) }, dv := v.dv } := by
    rw [← hv]
    rfl
  have hvnotices : v.dv.notices = putNotice ⟨.DL, .SPACE, spaceFields v.dl⟩ u.dv.notices := by
    rw [← hv, ← hpdv]
    rfl
  have hvkept : LinkKept u v := by
    rw [← hv, hpost]
    exact linkKept_raise ..
  obtain ⟨hday, hdaykept, hdaynotices⟩ := dayRefused_frame a.record v
  generalize dayRefused a.record v = t at *
  have htdl : t.dl = v.dl := by rw [hday]
  have hvday : v.dl.day = u.dl.day := by rw [hvstate, hpdl]
  refine ⟨?_, linkKept_trans hvkept hdaykept, ?_⟩
  · rw [hday, hvstate, hpost]
    dsimp only
    rw [hpdl]
  · rw [hdaynotices, hvnotices, hvday, htdl]

/-- A write that begins in a new segment. -/
theorem beginWrite_opened {a : Append} {q : List Append} {i : SegNo} {s : State} (hidle : s.dl.writing = none)
    (hqueue : s.dl.queue = a :: q) : ∃ t : State, beginWrite a i true (openSegment i s) = t ∧
    t = { s with
      dl := { s.dl with
        segs := t.dl.segs
        lastOpened := i
        queue := q
        nextSeq := s.dl.nextSeq + 1
        writing := some ⟨a.source, fillCounts s.dl.day a.record, s.dl.nextSeq, i, true⟩ }
      dv := t.dv } ∧
    (∀ j : SegNo, t.dl.segs[j] = (opening i (if s.ck.isSet then some s.ck.count else none) s.dl).segs[j]) ∧
    LinkKept s t ∧
    t.dv.notices = if t.dl.erased ≤ 2 ∨ s.dv.pending .DL .SPACE = true then
      putNotice ⟨.DL, .SPACE, spaceFields { t.dl with writing := none }⟩ s.dv.notices else s.dv.notices := by
  refine ⟨_, rfl, ?_⟩
  obtain ⟨u, hu, hustate, hukept, hunotices⟩ := openSegment_frame i s
  have hopen := opening_frame i (if s.ck.isSet then some s.ck.count else none) s.dl
  have hudl : u.dl = { s.dl with segs := u.dl.segs, lastOpened := i } := by rw [hustate]; exact hopen
  have husegs : u.dl.segs = (opening i (if s.ck.isSet then some s.ck.count else none) s.dl).segs := by rw [hustate]
  rw [hu]
  have hspace : spaceFields { (beginWrite a i true u).dl with writing := none } = spaceFields u.dl := by
    have hwriting : u.dl.writing = none := by rw [hudl]; exact hidle
    have hframe : u.dl = { u.dl with writing := none } := by rw [← hwriting]
    rw [hframe]
    rfl
  refine ⟨?_, fun j => ?_, ?_, ?_⟩
  · have hframe : beginWrite a i true u = { u with dl := { u.dl with
        queue := u.dl.queue.drop 1
        nextSeq := u.dl.nextSeq + 1
        writing := some ⟨a.source, fillCounts u.dl.day a.record, u.dl.nextSeq, i, true⟩ } } := rfl
    have hsegs : (beginWrite a i true u).dl.segs = u.dl.segs := rfl
    have hdv : (beginWrite a i true u).dv = u.dv := rfl
    have hdrop : s.dl.queue.drop 1 = q := by rw [hqueue]; rfl
    rw [hsegs, hdv, hframe, hudl, hustate, ← hdrop]
  · show u.dl.segs[j] = _
    rw [husegs]
  · exact hukept
  · rw [hspace]
    exact hunotices

/-- Settles O47. -/
theorem appendsAreServed : Obligations.AppendsAreServed := by
  refine fun s hs => ⟨fun h => ?_, fun a q hscan hidle hqueue => ?_⟩
  · have hserve := event_on serveAppend hs
    rw [serveAppend_blocked h] at hserve
    exact hserve
  have hserve {t : State} (ht : serveAppend s = t) : exec .appendServe s = .next (pump t) := by
    rw [← ht]
    exact event_on serveAppend hs
  have hdrop : s.dl.queue.drop 1 = q := by rw [hqueue]; rfl
  refine ⟨fun i hmax hactive hroom => ?_, fun k hmax hnoRoom hk hfirst => ?_, fun hfull => ?_⟩
  · refine hserve ((serveAppend_fits hscan hidle hqueue (placeFor_of_room hidle hmax hactive hroom)).trans ?_)
    rw [← hdrop]
    rfl
  · have hplace := placeFor_of_noRoom hidle hmax hnoRoom
    rw [nextErased_first hk hfirst] at hplace
    obtain ⟨t, ht, hstate, hsegs, hkept, hnotices⟩ := beginWrite_opened (i := s.dl.lastOpened + 1 + k) hidle hqueue
    refine ⟨t, hserve ((serveAppend_opens hscan hidle hqueue hplace).trans ht), ?_, ?_, fun j hj => ?_, hnotices, hkept, ?_⟩
    · rw [hstate]
      rfl
    · rw [hsegs, segs_opening, if_pos rfl]
      rfl
    · rw [hsegs, segs_opening, if_neg (Ne.symm hj)]
      rfl
    · rw [hstate]
      exact ⟨rfl, rfl, rfl, rfl, rfl, rfl⟩
  · have hplace : placeFor s.dl a.record.slots = .full := by
      by_cases hmax : 4294967295 < s.dl.nextSeq
      · exact placeFor_exhausted hmax _
      · obtain ⟨hnoRoom, hnone⟩ := hfull.resolve_left hmax
        rw [placeFor_of_noRoom hidle (Nat.le_of_not_lt hmax) hnoRoom, nextErased_none hnone]
        rfl
    obtain ⟨u, t, hu, ht, hstate, hkept, hnotices⟩ := refuseAppend_frame a s
    obtain ⟨hukept, hcp, hts, hudl, hdt, hck, hst, hbay⟩ :=
      refusedUnit_frame a.source a.record (s.modDl fun d => { d with queue := d.queue.drop 1 })
    have hunotices := notices_refusedUnit a.source a.record (s.modDl fun d => { d with queue := d.queue.drop 1 })
    rw [← hu] at hukept hcp hts hudl hdt hck hst hbay hunotices
    have hudl : u.dl = { s.dl with queue := q } := by rw [hudl, ← hdrop]; rfl
    have htbay (b : Bay) : t.bay b = u.bay b := by rw [hstate]; rfl
    have htdt : t.dt = u.dt := by rw [hstate]
    have htck : t.ck = u.ck := by rw [hstate]
    have htst : t.st = u.st := by rw [hstate]
    have hrefused : t.dl.refused = min 65535 (s.dl.refused + 1) := by rw [hstate, hudl]
    have hout : t.outbox a.source = u.outbox a.source := by
      cases a.source with
      | B b => exact congrArg BayUnit.outbox (htbay b)
      | DT => exact congrArg Dt.outbox htdt
      | CK => exact congrArg Ck.outbox htck
      | ST => exact congrArg (fun c : St => c.outbox.toList) htst
      | DV => rfl
    have hmine : u.dl.hasAppend a.source = true ↔ ∃ x ∈ q, x.source = a.source := by
      rw [hudl]
      simp [Dl.hasAppend, hidle]
    refine ⟨t, hserve ((serveAppend_full hscan hidle hqueue hplace).trans ht), hrefused, ?_, ?_, ?_, ?_, ?_, ?_, ?_, ?_,
      ?_, ?_, ?_, ?_, ?_, ?_⟩
    · refine ⟨if u.dl.hasAppend a.source then [] else (u.outbox a.source).head?.toList.map fun r => ⟨a.source, r⟩, ?_,
        fun hnone => ?_, fun hsome => if_pos (hmine.2 hsome)⟩
      · have hqueue := dl_postFrom a.source u
        rw [hrefused, hstate, hqueue, hudl]
      · rw [hout, if_neg fun hsome => ?_]
        obtain ⟨x, hx, hsrc⟩ := hmine.1 hsome
        exact hnone x hx hsrc
    · exact linkKept_trans hukept hkept
    · have htold : refusedTold a.source a.record u s.dv.notices = refusedTold a.source a.record t s.dv.notices := by
        cases a.source with
        | B b => rw [refusedTold, refusedTold, htbay]
        | DT => rw [refusedTold, refusedTold, htdt]
        | CK => rfl
        | ST => rfl
        | DV => rfl
      have hday : u.dl.day = s.dl.day := by rw [hudl]
      rw [hnotices, hunotices, hday]
      exact congrArg (fun ns => dayRefusedTold a.record s.dl.day (putNotice ⟨.DL, .SPACE, spaceFields t.dl⟩ ns)) htold
    · rw [hstate]
      exact hcp
    · rw [hstate]
      exact hts
    · rw [htdt]
      exact hdt
    · intro b hsrc
      obtain ⟨v, hv, hvstate, -⟩ := refusedUnit_bay b a.record (s.modDl fun d => { d with queue := d.queue.drop 1 })
      rw [htdt, hu, hsrc, hv, hvstate]
      dsimp only
      split
      · rename_i d hbody
        exact abandoned_dispatch hbody b _
      · rename_i hbody
        rw [abandoned_other hbody]
        rfl
    · rw [htck]
      exact hck
    · intro hsrc
      rw [htck, hu, hsrc]
      rfl
    · rw [htst]
      exact hst
    · intro hsrc
      rw [htst, hu, hsrc]
      rfl
    · intro hsrc
      rw [htdt, hu, hsrc]
      rfl
    · intro b hb
      rw [htbay]
      exact hbay b hb
    · intro b hsrc
      obtain ⟨v, hv, -, -, hvbay, -⟩ := refusedUnit_bay b a.record (s.modDl fun d => { d with queue := d.queue.drop 1 })
      rw [htbay, hu, hsrc, hv, hvbay]
      rfl

end Sys2Proof.Proofs.AppendServed

/-! PROOFS. A record write completes (R61, R98, R131, R177, R178). -/

namespace Sys2Proof.Proofs.WriteCompletes

open Sys2Proof Sys2Proof.Machine Sys2Proof.Laws.Basic Sys2Proof.Laws.Log Sys2Proof.Laws.Requests Sys2Proof.Proofs.Keeping
open Sys2Proof.Proofs.Telling Sys2Proof.Proofs.LogNumbers Sys2Proof.Proofs.AppendServed Sys2Proof.Proofs.Apply

/-! ## What a change of a bay tells (R113) -/

theorem told_changeBay_first (b : Bay) (reason : String) (lines : Bool) (f : BayUnit → BayUnit) (s : State) :
    (changeBay b reason lines .stateFirst f s).dv.notices =
      toldStateFirst b reason lines (s.bay b) (f (s.bay b)).drive s.dv.notices := by
  rw [notices_changeBay_first]
  simp only [bne_iff_ne, ne_eq, ite_not]

theorem told_changeBay_last (b : Bay) (reason : String) (lines : Bool) (f : BayUnit → BayUnit) (s : State) :
    (changeBay b reason lines .stateLast f s).dv.notices =
      toldStateLast b reason lines (s.bay b) (f (s.bay b)).drive s.dv.notices := by
  rw [notices_changeBay_last]
  simp only [bne_iff_ne, ne_eq, ite_not]

theorem toldStateFirst_stateAlone {b : Bay} {reason : String} {u v : BayUnit} {ns : List Notice} (hstate : u.state ≠ v.state)
    (hholds : u.holds = v.holds) :
    toldStateFirst b reason false u v ns = putNotice ⟨.B b, .STATE, stateFields v reason⟩ ns := by
  simp only [toldStateFirst, if_neg hstate, hholds, Bool.false_eq_true, if_false, if_true]

/-! ## A written DISPATCH record (R61, R98, R131) -/

/-- The document is released and the driver departs. -/
def departed (b : Bay) (d : DispatchBody) (s : State) : State := dtComplete d.drv b d.doc (cpRelease d.doc b s)

theorem departed_frame (b : Bay) (d : DispatchBody) (s : State) : departed b d s = { s with
    cp := { s.cp with docs := s.cp.docs.map fun x =>
      if x.num = d.doc ∧ x.state = .BOUND b then { x with state := .RELEASED, stack := [] } else x }
    dt := { s.dt with drivers := s.dt.drivers.map fun y =>
      if y.num = d.drv ∧ y.status = .AT_BAY b ∧ y.pend = true then { y with
        status := .ON_TRIP, pend := false, trip := some d.doc,
        list := s.pruned (openEntry s.nowMin .DRIVE (closeOpen s.nowMin y.list)) } else y } } := by
  have hdocs : (s.cp.docs.map fun x => if x.num == d.doc then
        if x.state = .BOUND b then { x with state := .RELEASED, stack := [] } else x else x) =
      s.cp.docs.map fun x => if x.num = d.doc ∧ x.state = .BOUND b then { x with state := .RELEASED, stack := [] } else x :=
    List.map_congr_left fun x _ => by simp only [beq_iff_eq, ite_and]
  have hdrivers : (s.dt.drivers.map fun x => if x.num == d.drv then
        if x.status = .AT_BAY b ∧ x.pend = true then
          { x with list := s.departList x.list, trip := some d.doc, status := .ON_TRIP, pend := false }
        else x else x) =
      s.dt.drivers.map fun y => if y.num = d.drv ∧ y.status = .AT_BAY b ∧ y.pend = true then { y with
        status := .ON_TRIP, pend := false, trip := some d.doc,
        list := s.pruned (openEntry s.nowMin .DRIVE (closeOpen s.nowMin y.list)) } else y :=
    List.map_congr_left fun x _ => by simp only [beq_iff_eq, ite_and]; rfl
  rw [← hdocs, ← hdrivers]
  rfl

/-- A bay after a written DISPATCH record: it departs, or tells that the record came late. -/
def dispatchWritten (b : Bay) (d : DispatchBody) (s : State) : State :=
  if (s.bay b).state = .DISPATCHING then
    changeBay b "DEPARTED" false .stateFirst (fun u => { u with state := .DISPATCHED }) (departed b d s)
  else tellLate b d.doc (departed b d s)

/-- A bay after a written record, which is still in its outbox. -/
def writtenBay (r : LogRec) (u : BayUnit) : BayUnit :=
  { u with
    state := if isDispatch r ∧ u.state = .DISPATCHING then .DISPATCHED else u.state
    release := if isDispatch r ∧ u.state = .DISPATCHING then false else u.release }

theorem isDispatch_of_body {r : LogRec} {d : DispatchBody} (h : r.body = .DISPATCH d) : isDispatch r = true := by
  rw [isDispatch, h]

theorem isDispatch_of_other {r : LogRec} (h : ∀ d, r.body ≠ .DISPATCH d) : isDispatch r = false := by
  unfold isDispatch
  split
  · exact absurd ‹_› (h _)
  · rfl

theorem dispatchWritten_frame {r : LogRec} {d : DispatchBody} (hbody : r.body = .DISPATCH d) (b : Bay) (s : State) :
    ∃ t : State, dispatchWritten b d s = t ∧
    t = { s with cp := (departed b d s).cp, dt := (departed b d s).dt, bays := t.bays, dv := t.dv } ∧ LinkKept s t ∧
    t.bay b = writtenBay r (s.bay b) ∧ (∀ c, c ≠ b → t.bay c = s.bay c) ∧
    t.dv.notices = putNotice ⟨.B b, .STATE,
      if (s.bay b).state = .DISPATCHING then stateFields (t.bay b) "DEPARTED"
      else stateFields { t.bay b with doc := some d.doc } "LATE_DISPATCH"⟩ s.dv.notices := by
  refine ⟨_, rfl, ?_⟩
  have hdisp := isDispatch_of_body hbody
  have hdep : departed b d s = { s with cp := (departed b d s).cp, dt := (departed b d s).dt } := by
    rw [departed_frame]
  unfold dispatchWritten
  generalize departed b d s = p at hdep
  have hpbay (c : Bay) : p.bay c = s.bay c := by rw [hdep]; rfl
  have hpdv : p.dv = s.dv := by rw [hdep]
  have hpkept : LinkKept s p := by
    rw [hdep]
    exact linkKept_refl s
  by_cases hstate : (s.bay b).state = .DISPATCHING
  · rw [if_pos hstate, if_pos hstate]
    have hbay : (changeBay b "DEPARTED" false .stateFirst (fun u => { u with state := .DISPATCHED }) p).bay b =
        writtenBay r (s.bay b) := by
      rw [bay_changeBay_self, hpbay, drive_of_not_loading (by simp), writtenBay, if_pos ⟨hdisp, hstate⟩,
        if_pos ⟨hdisp, hstate⟩]
    refine ⟨?_, linkKept_trans hpkept (linkKept_changeBay ..), hbay, fun c hc => ?_, ?_⟩
    · exact (changeBay_frame ..).trans (by rw [hdep])
    · rw [bay_changeBay_ne _ _ _ _ _ _ _ hc.symm, hpbay]
    · have htold := told_changeBay_first b "DEPARTED" false (fun u => { u with state := .DISPATCHED }) p
      have hself := bay_changeBay_self b "DEPARTED" false .stateFirst (fun u => { u with state := .DISPATCHED }) p
      rw [← hself, hbay, hpbay, hpdv] at htold
      rw [htold, hbay]
      refine toldStateFirst_stateAlone ?_ rfl
      rw [writtenBay, if_pos ⟨hdisp, hstate⟩, hstate]
      exact nofun
  · rw [if_neg hstate, if_neg hstate]
    have hsame : writtenBay r (s.bay b) = s.bay b := by
      rw [writtenBay, if_neg fun h => hstate h.2, if_neg fun h => hstate h.2]
    refine ⟨?_, linkKept_trans hpkept (linkKept_raise ..), ?_, fun c _ => hpbay c, ?_⟩
    · unfold tellLate raise
      rw [hdep]
      rfl
    · exact (hpbay b).trans hsame.symm
    · rw [← hpdv]
      rfl

/-- What a written record does to its source, before the next one is posted. -/
def writtenUnit (src : LogSource) (r : LogRec) (seq : Nat) (s : State) : State :=
  match src with
  | .B b =>
    (match r.body with
      | .DISPATCH d => dispatchWritten b d s
      | _ => s).modBay b fun u => { u with outbox := u.outbox.drop 1 }
  | .DT => s.modDt fun d => { d with outbox := d.outbox.drop 1 }
  | .CK => s.modCk fun c => { c with outbox := c.outbox.drop 1 }
  | .ST => stOutcome r (some seq) s
  | .DV => s

theorem writtenUnit_dispatch {r : LogRec} {d : DispatchBody} (h : r.body = .DISPATCH d) (b : Bay) (seq : Nat) (s : State) :
    writtenUnit (.B b) r seq s = (dispatchWritten b d s).modBay b fun u => { u with outbox := u.outbox.drop 1 } := by
  simp only [writtenUnit, h]

theorem writtenUnit_other {r : LogRec} (h : ∀ d, r.body ≠ .DISPATCH d) (b : Bay) (seq : Nat) (s : State) :
    writtenUnit (.B b) r seq s = s.modBay b fun u => { u with outbox := u.outbox.drop 1 } := by
  unfold writtenUnit
  dsimp only
  split
  · exact absurd ‹_› (h _)
  · rfl

theorem reportWritten_eq (src : LogSource) (r : LogRec) (seq : Nat) (s : State) :
    reportWritten src r seq s = postFrom src (writtenUnit src r seq s) := by
  cases src with
  | ST => exact (postFrom_of_empty rfl).symm
  | DV => exact (postFrom_of_empty rfl).symm
  | DT => rfl
  | CK => rfl
  | B b =>
    show bayWritten b r s = _
    by_cases h : ∃ d, r.body = .DISPATCH d
    · obtain ⟨d, hbody⟩ := h
      rw [writtenUnit_dispatch hbody]
      simp only [bayWritten, hbody]
      rfl
    · have hbody : ∀ d, r.body ≠ .DISPATCH d := fun d hd => h ⟨d, hd⟩
      rw [writtenUnit_other hbody]
      unfold bayWritten
      split
      · exact absurd ‹_› (hbody _)
      · rfl

/-- The notice of a written record but for a DAY_CLOSE (R131, R201). -/
def writtenTold (src : LogSource) (r : LogRec) (seq : Nat) (s t : State) (ns : List Notice) : List Notice :=
  match src, r.body with
  | .B b, .DISPATCH d => putNotice ⟨.B b, .STATE,
      if (s.bay b).state = .DISPATCHING then stateFields (t.bay b) "DEPARTED"
      else stateFields { t.bay b with doc := some d.doc } "LATE_DISPATCH"⟩ ns
  | .ST, _ => putNotice ⟨.ST, .APPLIED, [fld "RESULT" "APPLIED", fld "CHANGED" (sectionsText (sectionsOf r)),
      fld "RECORD" "WRITTEN", fld "SEQ" (dec seq)]⟩ ns
  | _, _ => ns

/-- A written record of a bay. -/
theorem writtenUnit_bay (b : Bay) (r : LogRec) (seq : Nat) (s : State) : ∃ t : State, writtenUnit (.B b) r seq s = t ∧
    t = { s with cp := t.cp, dt := t.dt, bays := t.bays, dv := t.dv } ∧ LinkKept s t ∧
    t.bay b = { writtenBay r (s.bay b) with outbox := (s.bay b).outbox.drop 1 } ∧ (∀ c, c ≠ b → t.bay c = s.bay c) ∧
    t.dv.notices = writtenTold (.B b) r seq s t s.dv.notices ∧
    (∀ d, r.body = .DISPATCH d → t.cp = (departed b d s).cp ∧ t.dt = (departed b d s).dt) ∧
    ((∀ d, r.body ≠ .DISPATCH d) → t.cp = s.cp ∧ t.dt = s.dt) := by
  by_cases h : ∃ d, r.body = .DISPATCH d
  · obtain ⟨d, hbody⟩ := h
    obtain ⟨p, hp, hstate, hkept, hbay, hne, hnotices⟩ := dispatchWritten_frame hbody b s
    rw [writtenUnit_dispatch hbody, hp]
    refine ⟨_, rfl, ?_, hkept, ?_, fun c hc => ?_, ?_, fun e he => ?_, fun h => absurd hbody (h d)⟩
    · rw [hstate]
      rfl
    · rw [State.bay_modBay_self, hbay]
      rfl
    · rw [State.bay_modBay_ne _ _ _ _ hc.symm, hne c hc]
    · have htold : writtenTold (.B b) r seq s (p.modBay b fun u => { u with outbox := u.outbox.drop 1 }) s.dv.notices =
          putNotice ⟨.B b, .STATE, if (s.bay b).state = .DISPATCHING then stateFields (p.bay b) "DEPARTED"
            else stateFields { p.bay b with doc := some d.doc } "LATE_DISPATCH"⟩ s.dv.notices := by
        simp only [writtenTold, hbody, State.bay_modBay_self]
        rfl
      rw [htold]
      exact hnotices
    · obtain rfl : d = e := Body.DISPATCH.inj (hbody.symm.trans he)
      rw [hstate]
      exact ⟨rfl, rfl⟩
  · have hbody : ∀ d, r.body ≠ .DISPATCH d := fun d hd => h ⟨d, hd⟩
    rw [writtenUnit_other hbody]
    have hdisp := isDispatch_of_other hbody
    refine ⟨_, rfl, rfl, ⟨rfl, rfl, rfl, rfl⟩, ?_, fun c hc => ?_, ?_, fun d hd => absurd hd (hbody d), fun _ => ⟨rfl, rfl⟩⟩
    · rw [State.bay_modBay_self]
      simp [writtenBay, hdisp]
    · rw [State.bay_modBay_ne _ _ _ _ hc.symm]
    · unfold writtenTold
      split
      · exact absurd ‹_› (hbody _)
      · contradiction
      · rfl

/-- A written record leaves the tables of the other sources, the sampler and the log. -/
theorem writtenUnit_frame (src : LogSource) (r : LogRec) (seq : Nat) (s : State) : LinkKept s (writtenUnit src r seq s) ∧
    (writtenUnit src r seq s).ts = s.ts ∧ (writtenUnit src r seq s).dl = s.dl ∧
    ((∀ b, src ≠ .B b) → (writtenUnit src r seq s).cp = s.cp ∧ (src ≠ .DT → (writtenUnit src r seq s).dt = s.dt)) ∧
    (src ≠ .CK → (writtenUnit src r seq s).ck = s.ck) ∧ (src ≠ .ST → (writtenUnit src r seq s).st = s.st) ∧
    (∀ b, src ≠ .B b → (writtenUnit src r seq s).bay b = s.bay b) ∧
    (writtenUnit src r seq s).dv.notices = writtenTold src r seq s (writtenUnit src r seq s) s.dv.notices := by
  cases src with
  | ST => exact ⟨⟨rfl, rfl, rfl, rfl⟩, rfl, rfl, fun _ => ⟨rfl, fun _ => rfl⟩, fun _ => rfl, fun h => absurd rfl h,
      fun _ _ => rfl, rfl⟩
  | DV => exact ⟨⟨rfl, rfl, rfl, rfl⟩, rfl, rfl, fun _ => ⟨rfl, fun _ => rfl⟩, fun _ => rfl, fun _ => rfl, fun _ _ => rfl, rfl⟩
  | DT => exact ⟨⟨rfl, rfl, rfl, rfl⟩, rfl, rfl, fun _ => ⟨rfl, fun h => absurd rfl h⟩, fun _ => rfl, fun _ => rfl,
      fun _ _ => rfl, rfl⟩
  | CK => exact ⟨⟨rfl, rfl, rfl, rfl⟩, rfl, rfl, fun _ => ⟨rfl, fun _ => rfl⟩, fun h => absurd rfl h, fun _ => rfl,
      fun _ _ => rfl, rfl⟩
  | B c =>
    obtain ⟨t, ht, hstate, hkept, -, hne, hnotices, -, -⟩ := writtenUnit_bay c r seq s
    rw [ht]
    refine ⟨hkept, ?_, ?_, fun h => absurd rfl (h c), fun _ => ?_, fun _ => ?_, fun b hb => hne b fun e => hb (e ▸ rfl),
      hnotices⟩
    all_goals rw [hstate]

/-! ## The completion (R177, R178) -/

/-- The record stands in the store and is counted. -/
def recordStored (w : Writing) (s : State) : State := s.modDl fun d =>
  { placeRecord w (some (recordCheck w.seq w.record)) d with
    day := countRecord w.record.body (placeRecord w (some (recordCheck w.seq w.record)) d).day }

/-- A written DAY_CLOSE closes its segment. -/
def dayWritten (w : Writing) (s : State) : State :=
  match w.record.body with
  | .DAY_CLOSE n => dayClosed w n s
  | _ => s

theorem writeDone_eq {s : State} {w : Writing} (hw : s.dl.writing = some w) : writeDone s =
    dayWritten w (postFrom w.source (writtenUnit w.source w.record w.seq (recordStored w s))) := by
  simp only [writeDone, hw]
  rw [← reportWritten_eq]
  rfl

theorem segs_recordStored (w : Writing) (s : State) (j : SegNo) : (recordStored w s).dl.segs[j] =
    if w.seg = j then { s.dl.segs[j] with records := s.dl.segs[j].records ++
      [⟨w.seq, w.record, some (recordCheck w.seq w.record)⟩] } else s.dl.segs[j] := segs_placeRecord ..

theorem recordStored_frame (w : Writing) (s : State) : recordStored w s = { s with dl := { s.dl with
    segs := (recordStored w s).dl.segs
    writing := none
    day := countRecord w.record.body s.dl.day } } := rfl

theorem dayWritten_other {w : Writing} (h : ∀ n, w.record.body ≠ .DAY_CLOSE n) (s : State) : dayWritten w s = s := by
  unfold dayWritten
  split
  · exact absurd ‹_› (h _)
  · rfl

theorem dayWritten_close {w : Writing} {n : DayCounts} (h : w.record.body = .DAY_CLOSE n) (s : State) :
    dayWritten w s = { s with
      dl := { s.dl with segs := s.dl.segs.set w.seg (closeSeg .DAY s.dl.segs[w.seg]), day := DayCounts.zero }
      dv := (dayWritten w s).dv } ∧ LinkKept s (dayWritten w s) ∧
    (dayWritten w s).dv.notices = putNotice ⟨.DL, .DAY, [fld "RESULT" "WRITTEN", fld "SEQ" (dec w.seq),
        fld "SEG" (segText w.seg)] ++ fldIf (dayWritten w s).dl.segs[w.seg].first "FIRST" dec ++
        fldIf (dayWritten w s).dl.segs[w.seg].last "LAST" dec ++ dayFields n⟩ s.dv.notices := by
  have heq : dayWritten w s = dayClosed w n s := by simp only [dayWritten, h]
  rw [heq]
  exact ⟨rfl, linkKept_raise .., rfl⟩

/-- The notice of a written DAY_CLOSE (R178). -/
def dayWrittenTold (w : Writing) (t : State) (ns : List Notice) : List Notice :=
  match w.record.body with
  | .DAY_CLOSE n => putNotice ⟨.DL, .DAY, [fld "RESULT" "WRITTEN", fld "SEQ" (dec w.seq), fld "SEG" (segText w.seg)] ++
      fldIf t.dl.segs[w.seg].first "FIRST" dec ++ fldIf t.dl.segs[w.seg].last "LAST" dec ++ dayFields n⟩ ns
  | _ => ns

theorem notices_dayWritten (w : Writing) (s : State) :
    (dayWritten w s).dv.notices = dayWrittenTold w (dayWritten w s) s.dv.notices := by
  by_cases h : ∃ n, w.record.body = .DAY_CLOSE n
  · obtain ⟨n, hbody⟩ := h
    obtain ⟨-, -, hnotices⟩ := dayWritten_close hbody s
    rw [hnotices]
    simp only [dayWrittenTold, hbody]
  · have hbody : ∀ n, w.record.body ≠ .DAY_CLOSE n := fun n hn => h ⟨n, hn⟩
    rw [dayWritten_other hbody]
    unfold dayWrittenTold
    split
    · exact absurd ‹_› (hbody _)
    · rfl

theorem dayWritten_frame (w : Writing) (s : State) : dayWritten w s = { s with
      dl := { s.dl with segs := (dayWritten w s).dl.segs, day := (dayWritten w s).dl.day }
      dv := (dayWritten w s).dv } ∧ LinkKept s (dayWritten w s) ∧
    ∀ j : SegNo, j ≠ w.seg → (dayWritten w s).dl.segs[j] = s.dl.segs[j] := by
  by_cases h : ∃ n, w.record.body = .DAY_CLOSE n
  · obtain ⟨n, hbody⟩ := h
    obtain ⟨hstate, hkept, -⟩ := dayWritten_close hbody s
    have hsegs (j : SegNo) := segs_modSeg w.seg j (closeSeg .DAY) s.dl
    generalize dayWritten w s = t at *
    refine ⟨?_, hkept, fun j hj => ?_⟩
    · rw [hstate]
    · rw [hstate]
      exact (hsegs j).trans (if_neg hj.symm)
  · rw [dayWritten_other fun n hn => h ⟨n, hn⟩]
    exact ⟨rfl, linkKept_refl s, fun _ _ => rfl⟩

/-- Settles O48. -/
theorem writesComplete : Obligations.WritesComplete := by
  refine fun s hs => ⟨fun h => ?_, fun w hw => ?_⟩
  · have hdone := event_on writeDone hs
    have hstay : writeDone s = s := by simp only [writeDone, h]
    rw [hstay] at hdone
    exact hdone
  have hdone : exec .appendWriteComplete s = .next (pump (writeDone s)) := event_on writeDone hs
  rw [writeDone_eq hw] at hdone
  generalize hu : writtenUnit w.source w.record w.seq (recordStored w s) = u at hdone
  obtain ⟨hkept, hts, hdl, hpapers, hck, hst, hbay, hnotices⟩ :=
    writtenUnit_frame w.source w.record w.seq (recordStored w s)
  rw [hu] at hkept hts hdl hpapers hck hst hbay hnotices
  have hpost := postFrom_frame w.source u
  have hpostdl := dl_postFrom w.source u
  have hpostout := outbox_postFrom w.source w.source u
  generalize postFrom w.source u = p at hdone hpost hpostdl hpostout
  obtain ⟨hframe, hdaykept, hothers⟩ := dayWritten_frame w p
  have hpdl : p.dl = { s.dl with
      segs := (recordStored w s).dl.segs
      writing := none
      day := countRecord w.record.body s.dl.day
      queue := p.dl.queue } := by
    rw [hpostdl, hdl]
    rfl
  have hpsegs (j : SegNo) : p.dl.segs[j] = (recordStored w s).dl.segs[j] := by rw [hpdl]
  have hpseg : p.dl.segs[w.seg] = { s.dl.segs[w.seg] with records := s.dl.segs[w.seg].records ++
      [⟨w.seq, w.record, some (recordCheck w.seq w.record)⟩] } := by
    rw [hpsegs, segs_recordStored, if_pos rfl]
  have hpdv : p.dv = u.dv := by rw [hpost]
  have htold (t : State) (ht : ∀ b, t.bay b = u.bay b) :
      writtenTold w.source w.record w.seq (recordStored w s) u s.dv.notices =
        writtenTold w.source w.record w.seq s t s.dv.notices := by
    unfold writtenTold
    split
    · rw [ht]
      rfl
    · rfl
    · rfl
  have hsame : ∃ t, t = dayWritten w p ∧ (∀ b, t.bay b = u.bay b) ∧ t.dt = u.dt ∧ t.ck = u.ck ∧ t.st = u.st ∧
      t.cp = u.cp ∧ t.ts = u.ts ∧ t.outbox w.source = u.outbox w.source ∧ LinkKept s t := by
    refine ⟨_, rfl, ?_⟩
    have hpkept : LinkKept u p := by
      rw [hpost]
      exact linkKept_refl u
    have hlink := linkKept_trans (linkKept_trans (s := s) hkept hpkept) hdaykept
    generalize dayWritten w p = t at *
    have htstate : t = { u with dl := t.dl, dv := t.dv } := by rw [hframe, hpost]
    have hout : t.outbox w.source = u.outbox w.source := by
      rw [htstate]
      cases w.source <;> rfl
    refine ⟨fun b => ?_, ?_, ?_, ?_, ?_, ?_, hout, hlink⟩
    · rw [htstate]
      rfl
    all_goals rw [htstate]
  obtain ⟨t, ht, htbay, htdt, htck, htst, htcp, htts, htout, htkept⟩ := hsame
  rw [← ht] at hdone hframe hothers
  have hmine : s.dl.queue = u.dl.queue ∧ (u.dl.hasAppend w.source = true ↔ ∃ a ∈ s.dl.queue, a.source = w.source) := by
    rw [hdl]
    refine ⟨rfl, ?_⟩
    rw [recordStored_frame]
    simp [Dl.hasAppend]
  have hclose {n : DayCounts} (hn : w.record.body = .DAY_CLOSE n) :
      t.dl.segs[w.seg] = closeSeg .DAY p.dl.segs[w.seg] ∧ t.dl.day = DayCounts.zero := by
    obtain ⟨hstate, -, -⟩ := dayWritten_close hn p
    have hsegs := segs_modSeg w.seg w.seg (closeSeg .DAY) p.dl
    rw [← ht] at hstate
    rw [hstate]
    exact ⟨hsegs.trans (if_pos rfl), rfl⟩
  have hopen (hn : ∀ n, w.record.body ≠ .DAY_CLOSE n) : t = p := ht.trans (dayWritten_other hn p)
  have htdl : t.dl = { p.dl with segs := t.dl.segs, day := t.dl.day } := by rw [hframe]
  have hqueue : p.dl.queue = s.dl.queue ++
      if u.dl.hasAppend w.source then [] else (u.outbox w.source).head?.toList.map fun r => ⟨w.source, r⟩ := by
    rw [hpostdl, hmine.1]
  have hunotices : u.dv.notices = writtenTold w.source w.record w.seq s t s.dv.notices := by
    rw [← htold t htbay, hnotices]
    rfl
  refine ⟨t, hdone, ⟨if u.dl.hasAppend w.source then [] else (u.outbox w.source).head?.toList.map fun r => ⟨w.source, r⟩,
    ?_, fun hnone => ?_, fun hsome => if_pos (hmine.2.2 hsome)⟩, ?_, fun j hj => ?_, fun n hn => ?_, fun hn => ?_, htkept, ?_,
    ?_, ?_, fun hsrc => ?_, fun hsrc => ?_, fun hsrc => ?_, fun hsrc => ?_, fun hsrc => ?_, fun b hb => ?_, fun b hb => ?_⟩
  · rw [htdl, hpdl, hqueue]
  · rw [htout, if_neg fun hsome => ?_]
    obtain ⟨a, ha, hsrc⟩ := hmine.2.1 hsome
    exact hnone a ha hsrc
  · by_cases h : ∃ n, w.record.body = .DAY_CLOSE n
    · obtain ⟨n, hn⟩ := h
      rw [(hclose hn).1, hpseg]
      rfl
    · rw [hopen fun n hn => h ⟨n, hn⟩, hpseg]
  · rw [hothers j hj, hpsegs, segs_recordStored, if_neg hj.symm]
  · obtain ⟨hseg, hday⟩ := hclose hn
    rw [hseg, hpseg]
    exact ⟨rfl, hday⟩
  · rw [hopen hn, hpseg, hpdl]
    exact ⟨rfl, rfl⟩
  · have hday := notices_dayWritten w p
    rw [← ht, hpdv, hunotices] at hday
    exact hday
  · rw [htts, hts]
    rfl
  · rw [htcp, htdt]
    exact hpapers
  · rw [htck, ← hu, hsrc]
    rfl
  · rw [htck, hck hsrc]
    rfl
  · rw [htst, ← hu, hsrc]
    rfl
  · rw [htst, hst hsrc]
    rfl
  · rw [htdt, ← hu, hsrc]
    rfl
  · rw [htbay, hbay b hb]
    rfl
  · obtain ⟨v, hv, -, -, hvbay, -, -, hdispatch, hother⟩ := writtenUnit_bay b w.record w.seq (recordStored w s)
    rw [hb] at hu
    rw [htbay, htcp, htdt, ← hu, hv, hvbay]
    refine ⟨rfl, fun hn => hother hn, fun d hn => ?_⟩
    obtain ⟨hcp, hdt⟩ := hdispatch d hn
    rw [hcp, hdt, departed_frame]
    exact ⟨rfl, rfl⟩

end Sys2Proof.Proofs.WriteCompletes

/-! PROOFS. What the bays make of their lines and holds (R110, R118, R123, R164). -/

namespace Sys2Proof.Proofs.BayLines

open Sys2Proof Sys2Proof.Machine Sys2Proof.Laws.Basic Sys2Proof.Laws.Tables Sys2Proof.Proofs.Telling
open Sys2Proof.Proofs.Apply Sys2Proof.Proofs.WriteCompletes

/-! ## The hold reasons that follow the lines (R110, R164) -/

/-- The hold reasons with QUANTITY and TEMPERATURE matched to the lines. -/
abbrev matchedHolds (hs : Holds) (ls : List LineRec) : Holds :=
  { hs with
    quantity := ls.any fun m => decide (m.state = .OVER ∨ m.state = .UNDER)
    temperature := ls.any fun m => decide (m.state = .PROBE_FAULT ∨ m.state = .NO_TEMP) }

theorem isQuantity_eq (st : LineState) : st.isQuantity = decide (st = .OVER ∨ st = .UNDER) := by
  cases st <;> rfl

theorem isTemperature_eq (st : LineState) : st.isTemperature = decide (st = .PROBE_FAULT ∨ st = .NO_TEMP) := by
  cases st <;> rfl

theorem matchHolds_eq (u : BayUnit) : u.matchHolds = { u with holds := matchedHolds u.holds u.lines } := by
  simp only [BayUnit.matchHolds, isQuantity_eq, isTemperature_eq]

theorem adjust_assigned {u : BayUnit} (h : u.state = .ASSIGNED) :
    u.adjust = { u with state := if u.holds = Holds.none then .ASSIGNED else .HELD } := by
  rw [adjust_eq, h]

theorem modLine_lines (c : Nat) (f : LineRec → LineRec) (u : BayUnit) :
    u.modLine c f = { u with lines := u.lines.map fun l => if l.comp = c then f l else l } := by
  simp only [BayUnit.modLine, beq_iff_eq]

/-! ## Sampler results (R118, R123) -/

/-- A line after a result: a temperature of a weight, or a fault. -/
abbrev sampled (res : Option Int) (w : Nat) (final : Bool) (m : LineRec) : LineRec :=
  { m with
    pend := m.pend - w
    sampleSum := m.sampleSum + (res.map fun x => x * (w : Int)).getD 0
    weightSum := m.weightSum + (if res.isSome then w else 0)
    taken := if res.isSome then min 255 (m.taken + 1) else m.taken
    faulted := if res.isSome then m.faulted else min 255 (m.faulted + 1)
    finalTemp := if final && res.isSome then res else m.finalTemp }

theorem addResult_eq (res : Option Int) (w : Nat) (final : Bool) (m : LineRec) :
    addResult res w final m = sampled res w final m := by
  cases res with
  | none => simp [addResult, satAdd, Config.maxSamples]
  | some t => cases final <;> simp [addResult, satAdd, Config.maxSamples]

/-- The lines of a bay after the result that settles its active line. -/
abbrev settledLines (g : Settings) (b : Bay) (c : Nat) (d : DocLine) (res : Option Int) (w : Nat) (ls : List LineRec) :
    List LineRec :=
  ls.map fun m => if m.comp = c then
    reconcile true g.bays[b].factor (g.product d.product) g.tol d.qty (sampled res w true m) else m

/-- A bay whose active line is reconciled to these lines. -/
abbrev settledBay (u : BayUnit) (ls : List LineRec) : BayUnit :=
  { u with
    lines := ls
    holds := matchedHolds u.holds ls
    ctx := none
    release := false
    state := if matchedHolds u.holds ls = Holds.none then .ASSIGNED else .HELD }

section
variable {s : State} {b : Bay} {c : Ctx} (hctx : (s.bay b).ctx = some c) (res : Option Int) (w : Nat)
include hctx

theorem takeResult_open : takeResult b res w false s = s.modBay b fun u => { u with
    lines := u.lines.map fun m => if m.comp = c.comp then sampled res w false m else m } := by
  simp only [takeResult, hctx, Bool.false_eq_true, if_false, modLine_lines, addResult_eq]

/-- The change of a bay whose final sample has come. -/
theorem takeResult_final {d : DocLine} (hd : lineRead s (s.bay b).doc b c.comp = some d) :
    ∃ f, takeResult b res w true s = changeBay b "RECONCILED" true .stateFirst f s ∧
      (f (s.bay b)).drive = settledBay (s.bay b) (settledLines s.st.applied b c.comp d res w (s.bay b).lines) := by
  refine ⟨_, by simp only [takeResult, hctx, if_true]; rfl, ?_⟩
  have hline (m : LineRec) (hm : m.comp = c.comp) : reconcileLine true s b (addResult res w true m) =
      reconcile true s.st.applied.bays[b].factor (s.st.applied.product d.product) s.st.applied.tol d.qty
        (sampled res w true m) := by
    have hcomp : (sampled res w true m).comp = c.comp := hm
    simp only [reconcileLine, addResult_eq, hcomp, hd]
    rfl
  have hlines : ((s.bay b).modLine c.comp fun l => reconcileLine true s b (addResult res w true l)) =
      { s.bay b with lines := settledLines s.st.applied b c.comp d res w (s.bay b).lines } := by
    rw [modLine_lines]
    refine congrArg (fun ls => { s.bay b with lines := ls }) (List.map_congr_left fun m _ => ?_)
    split
    · exact hline m ‹_›
    · rfl
  rw [hlines, matchHolds_eq, adjust_assigned rfl, drive_of_not_loading]
  dsimp only
  split <;> exact nofun

end

end Sys2Proof.Proofs.BayLines

/-! PROOFS. The sampler: its turn, and a sample that completes (R139 to R145). -/

namespace Sys2Proof.Proofs.Sampler

open Sys2Proof Sys2Proof.Machine Sys2Proof.Laws.Basic Sys2Proof.Laws.Tables Sys2Proof.Laws.Requests Sys2Proof.Proofs.Valves
open Sys2Proof.Proofs.Telling Sys2Proof.Proofs.BayLines Sys2Proof.Proofs.WriteCompletes

/-! ## The turn (R141) -/

/-- No bay before the first one found has the property. -/
theorem find?_allBays_first {p : Bay → Bool} {k : Bay} (h : allBays.find? p = some k) (j : Bay) (hj : j < k) : p j = false := by
  obtain ⟨-, pre, post, hsplit, hpre⟩ := List.find?_eq_some_iff_append.1 h
  have hsorted : (pre ++ k :: post).Pairwise (· < ·) := by
    have hrange : allBays.Pairwise (· < ·) := by decide
    rwa [hsplit] at hrange
  have hmem : j ∈ pre ++ k :: post := hsplit ▸ mem_allBays j
  rcases List.mem_append.1 hmem with hmem | hmem
  · simpa using hpre j hmem
  · rcases List.mem_cons.1 hmem with rfl | hmem
    · exact absurd hj (lt_irrefl _)
    · exact absurd (hj.trans (List.rel_of_pairwise_cons (List.pairwise_append.1 hsorted).2.1 hmem)) (lt_irrefl _)

theorem mem_turnFrom (last b : Bay) : b ∈ turnFrom last :=
  List.mem_map.2 ⟨b - last - 1, mem_allBays _, by decide +revert⟩

theorem nextBay_none_iff (t : Ts) : nextBay t = none ↔ ∀ b : Bay, t.reqs[b] = none := by
  unfold nextBay
  rw [List.find?_eq_none]
  refine ⟨fun h b => ?_, fun h b _ => ?_⟩
  · simpa using h b (mem_turnFrom _ b)
  · simp [h b]

theorem turn_back (last k : Bay) : last + 1 + k - last - 1 = k := by
  decide +revert

theorem nextBay_some {t : Ts} {b : Bay} (h : nextBay t = some b) :
    t.reqs[b] ≠ none ∧ ∀ j : Bay, j < b - t.lastServed - 1 → t.reqs[t.lastServed + 1 + j] = none := by
  refine ⟨?_, fun j hj => ?_⟩
  · have hsome := List.find?_some h
    simpa [Option.isSome_iff_ne_none] using hsome
  · unfold nextBay turnFrom at h
    rw [List.find?_map, Option.map_eq_some_iff] at h
    obtain ⟨k, hk, rfl⟩ := h
    rw [turn_back] at hj
    simpa using find?_allBays_first hk j hj

theorem chooseWork_free {s : State} (h : s.ts.conv = .FREE) : chooseWork s = s.modTs fun t =>
    if t.due then { t with conv := .CAL } else if t.fault then t else match nextBay t with
      | some b => { t with conv := .SAMPLE b false, lastServed := b }
      | none => t := by
  unfold chooseWork
  rw [h]
  dsimp only
  cases hdue : s.ts.due with
  | true => simp [State.modTs, hdue]
  | false =>
    cases hfault : s.ts.fault with
    | true => simp [State.modTs, hdue, hfault]
    | false => cases hnext : nextBay s.ts <;> simp [State.modTs, hdue, hfault, hnext]

/-! ## The result of a sample (R139, R143, R144) -/

theorem sampleCode_mean (c1 c2 : Adc) :
    2 * sampleCode c1 c2 = c1.toNat + c2.toNat ∨ 2 * sampleCode c1 c2 = c1.toNat + c2.toNat + 1 := by
  unfold sampleCode
  omega

theorem probeResult_eq (lo hi code : Nat) : probeResult lo hi code =
    if code < 16 ∨ 4079 < code ∨ roundHalfAway (((code : Int) - lo) * 500) (hi - lo) < -400 ∨
      700 < roundHalfAway (((code : Int) - lo) * 500) (hi - lo) then none
    else some (roundHalfAway (((code : Int) - lo) * 500) (hi - lo)) := by
  have hmin : Config.minTemp = -400 := rfl
  have hmax : Config.maxTemp = 700 := rfl
  simp only [probeResult, temperatureOf, hmin, hmax]
  by_cases h : code < 16 ∨ 4079 < code
  · rw [if_pos h, if_pos (h.imp_right .inl)]
  · obtain ⟨h1, h2⟩ := not_or.1 h
    rw [if_neg h]
    simp only [h1, h2, false_or]

/-! ## A sample that completes (R142, R145) -/

theorem sampleDone_withdrawn {s : State} {b : Bay} (h : s.ts.conv = .SAMPLE b true) (c1 c2 : Adc) :
    sampleDone c1 c2 s = chooseWork (freeConverter s) := by
  simp only [sampleDone, h, if_true]

section
variable {s : State} {b : Bay} {r : Req} (hr : s.ts.reqs[b] = some r)
include hr

theorem sampleDone_delivers (hconv : s.ts.conv = .SAMPLE b false) (c1 c2 : Adc) : sampleDone c1 c2 s =
    chooseWork (freeConverter (takeResult b (probeResult s.ts.clo s.ts.chi (sampleCode c1 c2)) r.weight r.final
      (s.modTs (Ts.dropReq b)))) := by
  simp only [sampleDone, hconv, Bool.false_eq_true, if_false, deliver, hr]

omit hr in
theorem reqs_dropReq_self (t : Ts) : (t.dropReq b).reqs[b] = none := by
  simp [Ts.dropReq]

omit hr in
theorem reqs_dropReq_ne {c : Bay} (h : c ≠ b) (t : Ts) : (t.dropReq b).reqs[c] = t.reqs[c] := by
  have hval : (b : Nat) ≠ c := fun e => h (Fin.ext e).symm
  simp [Ts.dropReq, Vector.getElem_set_ne, hval]

end

/-- Settles O44. -/
theorem sampleReachesItsBay : Obligations.SampleReachesItsBay := by
  refine ⟨sampleCode_mean, probeResult_eq, fun s h => chooseWork_free h,
    fun t => ⟨nextBay_none_iff t, fun b hb => nextBay_some hb⟩, fun c1 c2 b s hs => ?_⟩
  have hdone : exec (.sampleComplete c1 c2) s = .next (pump (sampleDone c1 c2 s)) := event_on (sampleDone c1 c2) hs
  refine ⟨fun hconv => ?_, fun r c hconv hr hctx => ⟨fun hfinal => ?_, fun d hfinal _ hd => ?_⟩⟩
  · rw [sampleDone_withdrawn hconv] at hdone
    exact hdone
  · obtain ⟨w, final⟩ := r
    obtain rfl : final = false := hfinal
    have hopen := takeResult_open (s := s.modTs (Ts.dropReq b)) (b := b) hctx
      (probeResult s.ts.clo s.ts.chi (sampleCode c1 c2)) w
    rw [sampleDone_delivers hr hconv, hopen] at hdone
    refine ⟨_, hdone, ?_, rfl, reqs_dropReq_self s.ts, fun c hc => reqs_dropReq_ne hc s.ts, ⟨fun c hc => ?_, rfl, rfl, rfl,
      rfl, rfl, rfl⟩, rfl, rfl, rfl, rfl⟩
    · rw [State.bay_modBay_self]
      rfl
    · rw [State.bay_modBay_ne _ _ _ _ hc.symm]
      rfl
  · obtain ⟨w, final⟩ := r
    obtain rfl : final = true := hfinal
    obtain ⟨f, htake, hf⟩ := takeResult_final (s := s.modTs (Ts.dropReq b)) (b := b) hctx
      (probeResult s.ts.clo s.ts.chi (sampleCode c1 c2)) w hd
    rw [sampleDone_delivers hr hconv, htake] at hdone
    have hframe := changeBay_frame b "RECONCILED" true .stateFirst f (s.modTs (Ts.dropReq b))
    have hbay := bay_changeBay_self b "RECONCILED" true .stateFirst f (s.modTs (Ts.dropReq b))
    have hother := otherBaysKept_changeBay b "RECONCILED" true .stateFirst f (s.modTs (Ts.dropReq b)) s.supv
    have htold := told_changeBay_first b "RECONCILED" true f (s.modTs (Ts.dropReq b))
    have hsame : { s.modTs (Ts.dropReq b) with supv := s.supv } = s.modTs (Ts.dropReq b) := rfl
    rw [hsame] at hother
    rw [← hbay] at htold
    rw [hf] at hbay
    generalize changeBay b "RECONCILED" true .stateFirst f (s.modTs (Ts.dropReq b)) = t at *
    have hts : t.ts = s.ts.dropReq b := by rw [hframe]; rfl
    refine ⟨t, hdone, hbay, htold, ?_, ?_, fun c hc => ?_, hother, ?_, ?_, ?_⟩
    · rw [hts]
      rfl
    · rw [hts]
      exact reqs_dropReq_self s.ts
    · rw [hts]
      exact reqs_dropReq_ne hc s.ts
    all_goals rw [hframe]; rfl

end Sys2Proof.Proofs.Sampler

/-! PROOFS. Calibrations, and requests answered with a fault (R146 to R149). -/

namespace Sys2Proof.Proofs.Telling

open Sys2Proof Sys2Proof.Machine Sys2Proof.Laws.Basic

/-- Every kind of change that is told stands among the notices. -/
theorem changeTold_toldStateFirst {b : Bay} {reason : String} {lines : Bool} {u v : BayUnit} {ns : List Notice}
    (hlines : lines = false → u.lines = v.lines) : ChangeTold b reason u v (toldStateFirst b reason lines u v ns) := by
  unfold toldStateFirst
  dsimp only
  refine ⟨fun h => ?_, fun h => ?_, fun h => ?_⟩
  · rw [if_neg h]
    have hstate : (⟨.B b, .STATE, stateFields v reason⟩ : Notice) ∈
        if lines then putNotice ⟨.B b, .LINES, linesFields v⟩ (putNotice ⟨.B b, .STATE, stateFields v reason⟩ ns)
        else putNotice ⟨.B b, .STATE, stateFields v reason⟩ ns := by
      split
      · exact mem_putNotice_of_ne (mem_putNotice ..) (by simp)
      · exact mem_putNotice ..
    split
    · exact hstate
    · exact mem_putNotice_of_ne hstate (by simp)
  · have htrue : lines = true := by
      cases lines
      · exact absurd (hlines rfl) h
      · rfl
    subst htrue
    simp only [if_true]
    generalize (if u.state = v.state then ns else putNotice ⟨.B b, .STATE, stateFields v reason⟩ ns) = n1
    split
    · exact mem_putNotice ..
    · exact mem_putNotice_of_ne (mem_putNotice ..) (by simp)
  · rw [if_neg h]
    exact mem_putNotice ..

/-- What the members of a list before and after one of them keep, and that one brings about, holds after the list. -/
theorem foldl_brings {f : Bay → State → State} {b : Bay} {P Q : State → Prop} (l : List Bay) (hmem : b ∈ l) (hnodup : l.Nodup)
    (hbefore : ∀ c t, c ≠ b → P t → P (f c t)) (hself : ∀ t, P t → Q (f b t)) (hafter : ∀ c t, c ≠ b → Q t → Q (f c t))
    {s : State} (hs : P s) : Q (l.foldl (fun t c => f c t) s) := by
  obtain ⟨pre, post, hsplit, hpre⟩ := List.eq_append_cons_of_mem hmem
  have hpost : b ∉ post := by
    rw [hsplit] at hnodup
    exact (List.nodup_cons.1 (List.nodup_append.1 hnodup).2.1).1
  rw [hsplit, List.foldl_append, List.foldl_cons]
  refine List.foldlRecOn (motive := Q) post _ (hself _ ?_) fun t ht c hc => hafter c t (fun e => hpost (e ▸ hc)) ht
  exact List.foldlRecOn (motive := P) pre _ hs fun t ht c hc => hbefore c t (fun e => hpre (e ▸ hc)) ht

/-- What every member of a list keeps holds after the list. -/
theorem foldl_holds {f : Bay → State → State} {P : State → Prop} (l : List Bay) (h : ∀ c t, P t → P (f c t)) {s : State}
    (hs : P s) : P (l.foldl (fun t c => f c t) s) :=
  List.foldlRecOn (motive := P) l _ hs fun t ht c _ => h c t ht

end Sys2Proof.Proofs.Telling

namespace Sys2Proof.Proofs.Sampler

open Sys2Proof Sys2Proof.Machine Sys2Proof.Laws.Basic Sys2Proof.Laws.Tables Sys2Proof.Laws.Requests Sys2Proof.Proofs.Valves
open Sys2Proof.Proofs.Telling Sys2Proof.Proofs.BayLines Sys2Proof.Proofs.WriteCompletes Sys2Proof.Proofs.LinkRequests
open Sys2Proof.Proofs.LinkEvents

/-! ## Requests answered with a fault (R148) -/

theorem sampled_none (w : Nat) (final : Bool) (m : LineRec) :
    sampled none w final m = { m with pend := m.pend - w, faulted := min 255 (m.faulted + 1) } := by
  simp [sampled]

/-- In t the request that b had in s has been answered with a fault. -/
structure Faulted (s : State) (b : Bay) (t : State) : Prop where
  gone : t.ts.reqs[b] = none
  idle : s.ts.reqs[b] = none → t.bay b = s.bay b
  open_ : ∀ r c, s.ts.reqs[b] = some r → (s.bay b).ctx = some c → r.final = false →
    t.bay b = { s.bay b with
      lines := (s.bay b).lines.map fun m => if m.comp = c.comp then sampled none r.weight false m else m }
  settled : ∀ r c d, s.ts.reqs[b] = some r → (s.bay b).ctx = some c → r.final = true →
    lineRead s (s.bay b).doc b c.comp = some d →
    t.bay b = settledBay (s.bay b) (settledLines s.st.applied b c.comp d none r.weight (s.bay b).lines) ∧
      ChangeTold b "RECONCILED" (s.bay b) (t.bay b) t.dv.notices

theorem Faulted.later {s t t' : State} {b : Bay} (h : Faulted s b t) (hreq : t'.ts.reqs[b] = t.ts.reqs[b])
    (hbay : t'.bay b = t.bay b) (hnotices : ∀ n ∈ t.dv.notices, n.unit = .B b → n ∈ t'.dv.notices) : Faulted s b t' where
  gone := hreq.trans h.gone
  idle hidle := hbay.trans (h.idle hidle)
  open_ r c hr hc hf := hbay.trans (h.open_ r c hr hc hf)
  settled r c d hr hc hf hd := by
    obtain ⟨heq, hstate, hlines, hholds⟩ := h.settled r c d hr hc hf hd
    rw [hbay]
    exact ⟨heq, fun hn => hnotices _ (hstate hn) rfl, fun hn => hnotices _ (hlines hn) rfl,
      fun hn => hnotices _ (hholds hn) rfl⟩

/-- A result reaches its bay and the link's notices alone. -/
theorem takeResult_frame (b : Bay) (res : Option Int) (w : Nat) (final : Bool) (s : State) :
    takeResult b res w final s = { s with bays := (takeResult b res w final s).bays, dv := (takeResult b res w final s).dv } ∧
    LinkKept s (takeResult b res w final s) ∧ (∀ c, c ≠ b → (takeResult b res w final s).bay c = s.bay c) ∧
    ∀ m ∈ s.dv.notices, m.unit ≠ .B b → m ∈ (takeResult b res w final s).dv.notices := by
  unfold takeResult
  split
  · exact ⟨rfl, linkKept_refl s, fun _ _ => rfl, fun _ hm _ => hm⟩
  · split
    · exact ⟨changeBay_frame .., linkKept_changeBay .., fun c hc => bay_changeBay_ne _ _ _ _ _ _ _ hc.symm,
        fun m hm hne => mem_changeBay_of_ne hm hne⟩
    · exact ⟨rfl, ⟨rfl, rfl, rfl, rfl⟩, fun c hc => State.bay_modBay_ne _ _ _ _ hc.symm, fun _ hm _ => hm⟩

theorem faultReq_frame (b : Bay) (s : State) : faultReq b s = { s with
      bays := (faultReq b s).bays
      dv := (faultReq b s).dv
      ts := { s.ts with reqs := (faultReq b s).ts.reqs } } ∧
    LinkKept s (faultReq b s) ∧ (faultReq b s).ts.reqs[b] = none ∧
    (∀ c, c ≠ b → (faultReq b s).bay c = s.bay c ∧ (faultReq b s).ts.reqs[c] = s.ts.reqs[c]) ∧
    ∀ m ∈ s.dv.notices, m.unit ≠ .B b → m ∈ (faultReq b s).dv.notices := by
  cases hr : s.ts.reqs[b] with
  | none =>
    have hsame : faultReq b s = s := by simp only [faultReq, hr]
    rw [hsame]
    exact ⟨rfl, linkKept_refl s, hr, fun _ _ => ⟨rfl, rfl⟩, fun _ hm _ => hm⟩
  | some r =>
    have htake : faultReq b s = takeResult b none r.weight r.final (s.modTs (Ts.dropReq b)) := by simp only [faultReq, hr]
    obtain ⟨hframe, hkept, hne, hnotices⟩ := takeResult_frame b none r.weight r.final (s.modTs (Ts.dropReq b))
    rw [htake]
    generalize takeResult b none r.weight r.final (s.modTs (Ts.dropReq b)) = t at *
    have hts : t.ts = s.ts.dropReq b := by rw [hframe]; rfl
    refine ⟨?_, hkept, ?_, fun c hc => ⟨hne c hc, ?_⟩, hnotices⟩
    · rw [hts, hframe]
      rfl
    · rw [hts]
      exact reqs_dropReq_self s.ts
    · rw [hts]
      exact reqs_dropReq_ne hc s.ts

theorem lineRead_congr {s t : State} (h : t.cp = s.cp) (d : Option String) (b : Bay) (c : Nat) :
    lineRead t d b c = lineRead s d b c := by
  simp only [lineRead, State.docOf, h]

/-- The bay's own turn. -/
theorem faulted_faultReq {s t : State} {b : Bay} (hcp : t.cp = s.cp) (hst : t.st = s.st) (hbay : t.bay b = s.bay b)
    (hreq : t.ts.reqs[b] = s.ts.reqs[b]) : Faulted s b (faultReq b t) := by
  obtain ⟨-, -, hgone, -, -⟩ := faultReq_frame b t
  have htake {r : Req} (hr : s.ts.reqs[b] = some r) :
      faultReq b t = takeResult b none r.weight r.final (t.modTs (Ts.dropReq b)) := by
    simp only [faultReq, hreq.trans hr]
  have hbay' : (t.modTs (Ts.dropReq b)).bay b = s.bay b := hbay
  refine ⟨hgone, fun hidle => ?_, fun r c hr hc hf => ?_, fun r c d hr hc hf hd => ?_⟩
  · have hsame : faultReq b t = t := by simp only [faultReq, hreq.trans hidle]
    rw [hsame, hbay]
  · rw [htake hr, hf, takeResult_open (s := t.modTs (Ts.dropReq b)) (c := c) ((congrArg BayUnit.ctx hbay).trans hc),
      State.bay_modBay_self, hbay']
  · have hd' : lineRead (t.modTs (Ts.dropReq b)) (t.bay b).doc b c.comp = some d := by
      rw [lineRead_congr (s := s) (t := t.modTs (Ts.dropReq b)) hcp, hbay, hd]
    obtain ⟨f, hchange, hfinal⟩ := takeResult_final (s := t.modTs (Ts.dropReq b)) (c := c)
      ((congrArg BayUnit.ctx hbay).trans hc) none r.weight hd'
    have hself := bay_changeBay_self b "RECONCILED" true .stateFirst f (t.modTs (Ts.dropReq b))
    have htold := told_changeBay_first b "RECONCILED" true f (t.modTs (Ts.dropReq b))
    have happlied : (t.modTs (Ts.dropReq b)).st.applied = s.st.applied := congrArg St.applied hst
    rw [hfinal, happlied, hbay'] at hself
    rw [hfinal, happlied, hbay', ← hself] at htold
    rw [htake hr, hf, hchange]
    refine ⟨hself, ?_⟩
    rw [htold]
    exact changeTold_toldStateFirst nofun

theorem nodup_turnFrom (last : Bay) : (turnFrom last).Nodup := by
  decide +revert

/-- Every request is answered, and nothing but the bays, the requests and the notices changes. -/
theorem faultAll_frame (s : State) : faultAll s = { s with
      bays := (faultAll s).bays
      dv := (faultAll s).dv
      ts := { s.ts with reqs := (faultAll s).ts.reqs } } ∧ LinkKept s (faultAll s) ∧ ∀ b, Faulted s b (faultAll s) := by
  have hframe (b : Bay) (t : State) (ht : t = { s with bays := t.bays, dv := t.dv, ts := { s.ts with reqs := t.ts.reqs } }) :
      faultReq b t = { s with
        bays := (faultReq b t).bays
        dv := (faultReq b t).dv
        ts := { s.ts with reqs := (faultReq b t).ts.reqs } } := by
    obtain ⟨hreq, -⟩ := faultReq_frame b t
    generalize faultReq b t = v at hreq
    rw [hreq, ht]
  refine ⟨?_, ?_, fun b => ?_⟩
  · have hall := foldl_holds (f := faultReq) (P := fun t => t = { s with
      bays := t.bays, dv := t.dv, ts := { s.ts with reqs := t.ts.reqs } }) (turnFrom s.ts.lastServed) hframe (s := s) rfl
    unfold faultAll
    exact hall
  · have hall := foldl_holds (f := faultReq) (P := LinkKept s) (turnFrom s.ts.lastServed)
      (fun b t ht => linkKept_trans ht (faultReq_frame b t).2.1) (linkKept_refl s)
    unfold faultAll
    exact hall
  · refine foldl_brings (f := faultReq) (b := b) (P := fun t => t = { s with
        bays := t.bays, dv := t.dv, ts := { s.ts with reqs := t.ts.reqs } } ∧ t.bay b = s.bay b ∧
        t.ts.reqs[b] = s.ts.reqs[b]) (Q := Faulted s b) (turnFrom s.ts.lastServed) (mem_turnFrom _ b) (nodup_turnFrom _)
      ?before ?self ?after ⟨rfl, rfl, rfl⟩
    case before =>
      intro c t hc ⟨ht, hbay, hreq⟩
      obtain ⟨-, -, -, hne, -⟩ := faultReq_frame c t
      obtain ⟨hbay', hreq'⟩ := hne b hc.symm
      exact ⟨hframe c t ht, hbay'.trans hbay, hreq'.trans hreq⟩
    case self =>
      intro t ⟨ht, hbay, hreq⟩
      exact faulted_faultReq (by rw [ht]) (by rw [ht]) hbay hreq
    case after =>
      intro c t hc ht
      obtain ⟨-, -, -, hne, hnotices⟩ := faultReq_frame c t
      obtain ⟨hbay', hreq'⟩ := hne b hc.symm
      exact ht.later hreq' hbay' fun n hn hunit => hnotices n hn fun h =>
        hc (UnitName.B.inj (h.symm.trans hunit))

end Sys2Proof.Proofs.Sampler

/-! PROOFS. What a calibration decides (R146 to R149). -/

namespace Sys2Proof.Proofs.Calibration

open Sys2Proof Sys2Proof.Machine Sys2Proof.Laws.Basic Sys2Proof.Laws.Requests Sys2Proof.Proofs.Telling
open Sys2Proof.Proofs.Sampler Sys2Proof.Proofs.LinkRequests Sys2Proof.Proofs.BayLines

theorem tests_iff (lo hi : Nat) : (spanOk lo hi && zeroOk lo) = true ↔
    lo + 1000 ≤ hi ∧ hi ≤ lo + 4000 ∧ 200 ≤ lo ∧ lo ≤ 1800 := by
  simp only [spanOk, zeroOk, Bool.and_eq_true, decide_eq_true_eq, and_assoc]

/-- The calibration is noted: the due flag clears, and the period begins anew (R146, R149). -/
def noted (lo hi : Nat) (s : State) : State := s.modTs fun t =>
  { t with due := false, sinceCal := some 0, lastCal := some ⟨if s.ck.isSet then some s.ck.count else none, lo, hi⟩ }

theorem calibrationDone_eq {s : State} (h : s.ts.conv = .CAL) (l1 l2 h1 h2 : Adc) : calibrationDone l1 l2 h1 h2 s =
    chooseWork (freeConverter (calOutcome (sampleCode l1 l2) (sampleCode h1 h2)
      (noted (sampleCode l1 l2) (sampleCode h1 h2) s))) := by
  simp only [calibrationDone, h, if_true]
  rfl

/-- HEALTH has been told with the codes. -/
def HealthTold (lo hi : Nat) (t : State) : Prop :=
  t.dv.pending .TS .HEALTH = true ∧ (⟨.TS, .HEALTH, healthFields t.ts lo hi⟩ : Notice) ∈ t.dv.notices

theorem healthTold_of_mem {lo hi : Nat} {t : State}
    (h : (⟨.TS, .HEALTH, healthFields t.ts lo hi⟩ : Notice) ∈ t.dv.notices) : HealthTold lo hi t :=
  ⟨List.any_eq_true.2 ⟨_, h, by simp⟩, h⟩

/-- The SAMPLER component is reported, and no notice of another pair is touched (R13). -/
theorem reportSampler_frame (v : Bool) (s : State) : ∃ t : State,
    setComponents (fun d => { d with sampler := v }) s = t ∧ t = { s with dv := t.dv } ∧
    t.dv = { s.dv with sampler := v, notices := t.dv.notices, attnPulse := t.dv.attnPulse } ∧
    ∀ m ∈ s.dv.notices, m.pair ≠ (.DV, .FAULT) → m ∈ t.dv.notices := by
  refine ⟨_, rfl, ?_⟩
  obtain ⟨hframe, hdv, hnotices⟩ := setComponents_frame (fun d => { d with sampler := v }) s rfl
  refine ⟨hframe, hdv, fun m hm hne => ?_⟩
  rw [hnotices]
  unfold toldFault
  split
  · exact mem_putNotice_of_ne hm fun h => hne (Prod.ext h.1 h.2)
  · exact hm

/-! ## The outcome (R147, R148) -/

section
variable {lo hi : Nat} {s : State}

section
variable (hvalid : (spanOk lo hi && zeroOk lo) = true)
include hvalid

theorem calOutcome_valid (hfault : s.ts.fault = false) :
    calOutcome lo hi s = s.modTs fun t => { t with clo := lo, chi := hi, fault := false } := by
  simp only [calOutcome, hvalid, hfault, if_true, Bool.false_eq_true, if_false]

theorem calOutcome_recovers (hfault : s.ts.fault = true) : calOutcome lo hi s =
    setComponents (fun d => { d with sampler := false })
      (tellHealth lo hi (s.modTs fun t => { t with clo := lo, chi := hi, fault := false })) := by
  simp only [calOutcome, hvalid, hfault, if_true]

end

section
variable (hinvalid : (spanOk lo hi && zeroOk lo) = false)
include hinvalid

theorem calOutcome_again (hfault : s.ts.fault = true) : calOutcome lo hi s = tellHealth lo hi s := by
  simp only [calOutcome, hinvalid, hfault, if_true, Bool.false_eq_true, if_false]

theorem calOutcome_fails (hfault : s.ts.fault = false) : calOutcome lo hi s =
    setComponents (fun d => { d with sampler := true })
      (tellHealth lo hi (faultAll (s.modTs fun t => { t with fault := true }))) := by
  simp only [calOutcome, hinvalid, hfault, Bool.false_eq_true, if_false]

end
end

/-- What every outcome keeps. -/
structure Outcome (lo hi : Nat) (s t : State) : Prop where
  frame : t = { s with bays := t.bays, ts := t.ts, dv := t.dv }
  ts : t.ts = { s.ts with due := false
                          sinceCal := some 0
                          lastCal := some ⟨if s.ck.isSet then some s.ck.count else none, lo, hi⟩
                          clo := t.ts.clo
                          chi := t.ts.chi
                          fault := t.ts.fault
                          reqs := t.ts.reqs }
  dv : t.dv = { s.dv with sampler := t.dv.sampler, notices := t.dv.notices, attnPulse := t.dv.attnPulse }

section
variable {lo hi : Nat} {s : State}

theorem outcome_valid (hvalid : (spanOk lo hi && zeroOk lo) = true) : ∃ t : State, calOutcome lo hi (noted lo hi s) = t ∧
    Outcome lo hi s t ∧ t.ts.clo = lo ∧ t.ts.chi = hi ∧ t.ts.fault = false ∧ t.ts.reqs = s.ts.reqs ∧ t.bays = s.bays ∧
    (s.ts.fault = false → t.dv = s.dv) ∧ (s.ts.fault = true → HealthTold lo hi t ∧ t.dv.sampler = false) := by
  cases hfault : s.ts.fault with
  | false =>
    rw [calOutcome_valid hvalid (s := noted lo hi s) hfault]
    exact ⟨_, rfl, ⟨rfl, rfl, rfl⟩, rfl, rfl, rfl, rfl, rfl, fun _ => rfl, nofun⟩
  | true =>
    rw [calOutcome_recovers hvalid (s := noted lo hi s) hfault]
    obtain ⟨t, ht, hframe, hdv, hnotices⟩ := reportSampler_frame false
      (tellHealth lo hi ((noted lo hi s).modTs fun t => { t with clo := lo, chi := hi, fault := false }))
    have hmem := hnotices _ (mem_putNotice _ _) (by simp [Notice.pair])
    have hts : t.ts = { (noted lo hi s).ts with clo := lo, chi := hi, fault := false } := by rw [hframe]; rfl
    refine ⟨t, ht, ⟨?_, ?_, ?_⟩, ?_, ?_, ?_, ?_, ?_, nofun, fun _ => ⟨healthTold_of_mem ?_, ?_⟩⟩
    · rw [hts, hframe]
      rfl
    · rw [hts]
      rfl
    · rw [hdv]
      rfl
    · rw [hts]
    · rw [hts]
    · rw [hts]
    · rw [hts]
      rfl
    · rw [hframe]
      rfl
    · rw [hts]
      exact hmem
    · rw [hdv]

theorem outcome_again (hinvalid : (spanOk lo hi && zeroOk lo) = false) (hfault : s.ts.fault = true) :
    ∃ t : State, calOutcome lo hi (noted lo hi s) = t ∧ Outcome lo hi s t ∧ t.ts.clo = s.ts.clo ∧ t.ts.chi = s.ts.chi ∧
      t.ts.fault = true ∧ HealthTold lo hi t ∧ t.ts.reqs = s.ts.reqs ∧ t.bays = s.bays ∧ t.dv.sampler = s.dv.sampler := by
  rw [calOutcome_again hinvalid (s := noted lo hi s) hfault]
  exact ⟨_, rfl, ⟨rfl, rfl, rfl⟩, rfl, rfl, hfault, healthTold_of_mem (mem_putNotice _ _), rfl, rfl, rfl⟩

theorem outcome_fails (hinvalid : (spanOk lo hi && zeroOk lo) = false) (hfault : s.ts.fault = false) :
    ∃ t : State, calOutcome lo hi (noted lo hi s) = t ∧ Outcome lo hi s t ∧ t.ts.clo = s.ts.clo ∧ t.ts.chi = s.ts.chi ∧
      t.ts.fault = true ∧ HealthTold lo hi t ∧ t.dv.sampler = true ∧ ∀ b, Faulted s b t := by
  rw [calOutcome_fails hinvalid (s := noted lo hi s) hfault]
  obtain ⟨hall, ⟨halldv, -⟩, hfaulted⟩ := faultAll_frame ((noted lo hi s).modTs fun t => { t with fault := true })
  generalize faultAll ((noted lo hi s).modTs fun t => { t with fault := true }) = u at *
  obtain ⟨t, ht, hframe, hdv, hnotices⟩ := reportSampler_frame true (tellHealth lo hi u)
  have hmem := hnotices _ (mem_putNotice _ _) (by simp [Notice.pair])
  have hts : t.ts = u.ts := by rw [hframe]; rfl
  have huts : u.ts = { (noted lo hi s).ts with fault := true, reqs := u.ts.reqs } := by rw [hall]; rfl
  refine ⟨t, ht, ⟨?_, ?_, ?_⟩, ?_, ?_, ?_, healthTold_of_mem ?_, ?_, fun b => ?_⟩
  · have hstate : t = { u with ts := t.ts, dv := t.dv } := by rw [hts, hframe]; rfl
    rw [hstate, hall]
    rfl
  · rw [hts, huts]
    rfl
  · rw [hdv]
    show ({ u.dv with notices := t.dv.notices, attnPulse := t.dv.attnPulse, sampler := true } : Dv) = _
    rw [halldv]
    rfl
  · rw [hts, huts]
    rfl
  · rw [hts, huts]
    rfl
  · rw [hts, huts]
  · rw [hts]
    exact hmem
  · rw [hdv]
  · have hlater : Faulted ((noted lo hi s).modTs fun t => { t with fault := true }) b t := by
      refine (hfaulted b).later (by rw [hts]) (by rw [hframe]; rfl) fun n hn hunit => ?_
      exact hnotices n (mem_raise_of_ne hn (by simp [hunit])) (by simp [Notice.pair, hunit])
    exact ⟨hlater.gone, hlater.idle, hlater.open_, hlater.settled⟩

end

theorem calDue_eq (s : State) : calDue s = chooseWork { s with ts := { s.ts with due := true } } := rfl

theorem tsCalibrate_free {s : State} (h : s.ts.conv = .FREE) :
    tsCalibrate (some ()) s = ({ s with ts := { s.ts with due := true, conv := .CAL } }, ok [bare "DUE"]) := by
  have hcal : s.ts.conv ≠ .CAL := by
    rw [h]
    exact nofun
  have hdue : calDue s = { s with ts := { s.ts with due := true, conv := .CAL } } := by
    rw [calDue, chooseWork_free (s := s.modTs fun t => { t with due := true }) h]
    rfl
  simp only [tsCalibrate, if_neg hcal, hdue]

theorem tsCalibrate_sampling {s : State} {b : Bay} {w : Bool} (h : s.ts.conv = .SAMPLE b w) :
    tsCalibrate (some ()) s = ({ s with ts := { s.ts with due := true } }, ok [bare "DUE"]) := by
  have hcal : s.ts.conv ≠ .CAL := by
    rw [h]
    exact nofun
  have hdue : calDue s = { s with ts := { s.ts with due := true } } := by
    have hconv : (s.modTs fun t => { t with due := true }).ts.conv = .SAMPLE b w := h
    unfold calDue chooseWork
    rw [hconv]
    rfl
  simp only [tsCalibrate, if_neg hcal, hdue]

/-- Settles O45. -/
theorem calibrationDecidesHealth : Obligations.CalibrationDecidesHealth := by
  refine ⟨fun l1 l2 h1 h2 s hs hconv => ?_, fun s hs => event_on calDue hs, fun h s hready => ⟨fun hconv => ?_, fun hconv => ?_,
    fun b w hconv => ?_⟩⟩
  · have hdone : exec (.calibrationComplete l1 l2 h1 h2) s = .next (pump (calibrationDone l1 l2 h1 h2 s)) :=
      event_on (calibrationDone l1 l2 h1 h2) hs
    rw [calibrationDone_eq hconv] at hdone
    generalize sampleCode l1 l2 = lo at *
    generalize sampleCode h1 h2 = hi at *
    have hnoted {t : State} (h : Outcome lo hi s t) : t.ts.due = false ∧ t.ts.sinceCal = some 0 ∧
        t.ts.lastCal = some ⟨if s.ck.isSet then some s.ck.count else none, lo, hi⟩ ∧
        t.ts.lastServed = s.ts.lastServed ∧
        t.dv = { s.dv with sampler := t.dv.sampler, notices := t.dv.notices, attnPulse := t.dv.attnPulse } ∧
        t.pending = s.pending ∧ t.supply = s.supply ∧ t.fresh = s.fresh ∧
        t.ck = s.ck ∧ t.dt = s.dt ∧ t.cp = s.cp ∧ t.dl = s.dl ∧ t.st = s.st := by
      refine ⟨?_, ?_, ?_, ?_, h.dv, ?_⟩
      · rw [h.ts]
      · rw [h.ts]
      · rw [h.ts]
      · rw [h.ts]
      · rw [h.frame]
        exact ⟨rfl, rfl, rfl, rfl, rfl, rfl, rfl, rfl⟩
    cases htests : (spanOk lo hi && zeroOk lo) with
    | true =>
      have hvalid := (tests_iff lo hi).1 htests
      obtain ⟨t, ht, hout, hclo, hchi, hfault, hreqs, hbays, hquiet, htold⟩ := outcome_valid (s := s) htests
      rw [ht] at hdone
      exact ⟨t, hdone, hnoted hout, fun _ => ⟨hclo, hchi, hfault, hreqs, hbays, hquiet, htold⟩, fun hn => absurd hvalid hn⟩
    | false =>
      have hinvalid := mt (tests_iff lo hi).2 (by simp [htests])
      cases hfault : s.ts.fault with
      | true =>
        obtain ⟨t, ht, hout, hclo, hchi, hf, htold, hreqs, hbays, hsampler⟩ := outcome_again (s := s) htests hfault
        rw [ht] at hdone
        exact ⟨t, hdone, hnoted hout, fun hv => absurd hv hinvalid, fun _ => ⟨hclo, hchi, hf, htold,
          fun _ => ⟨hreqs, hbays, hsampler⟩, nofun⟩⟩
      | false =>
        obtain ⟨t, ht, hout, hclo, hchi, hf, htold, hsampler, hall⟩ := outcome_fails (s := s) htests hfault
        rw [ht] at hdone
        refine ⟨t, hdone, hnoted hout, fun hv => absurd hv hinvalid, fun _ => ⟨hclo, hchi, hf, htold, nofun,
          fun _ => ⟨hsampler, fun b => ⟨(hall b).gone, (hall b).idle, fun r c hr hc => ⟨fun hopen => ?_, fun d hfinal hd => ?_⟩⟩⟩⟩⟩
        · have hbay := (hall b).open_ r c hr hc hopen
          simp only [sampled_none] at hbay
          exact hbay
        · have hbay := (hall b).settled r c d hr hc hfinal hd
          simp only [settledLines, sampled_none] at hbay
          exact hbay
  · exact exec_act (c := .tsCalibrate h (some ())) rfl hready (by simp only [tsCalibrate, hconv, if_true])
  · exact exec_act (c := .tsCalibrate h (some ())) rfl hready (tsCalibrate_free (s := underKey h s) hconv)
  · exact exec_act (c := .tsCalibrate h (some ())) rfl hready (tsCalibrate_sampling (s := underKey h s) hconv)

end Sys2Proof.Proofs.Calibration

/-! PROOFS. The duty table: enrolment and presence (R44 to R47, R56). -/

namespace Sys2Proof.Proofs.DutyRows

open Sys2Proof Sys2Proof.Machine Sys2Proof.Laws.Tables Sys2Proof.Proofs.LinkRequests Sys2Proof.Proofs.Keeping

/-! ## The record of a number -/

theorem find?_insertDriver_ne {x : Driver} {m : Nat} (hm : x.num ≠ m) (l : List Driver) :
    (insertDriver x l).find? (fun y => y.num == m) = l.find? fun y => y.num == m := by
  induction l with
  | nil => simp [insertDriver, hm]
  | cons y ys ih =>
    unfold insertDriver
    split
    · simp [hm]
    · simp only [List.find?_cons, ih]

theorem find?_insertDriver_self {x : Driver} {l : List Driver} (h : (l.find? fun y => y.num == x.num) = none) :
    (insertDriver x l).find? (fun y => y.num == x.num) = some x := by
  induction l with
  | nil => simp [insertDriver]
  | cons y ys ih =>
    rw [List.find?_cons] at h
    unfold insertDriver
    split
    · simp
    · cases hy : y.num == x.num with
      | true => simp [hy] at h
      | false =>
        simp only [hy] at h
        rw [List.find?_cons, hy]
        exact ih h

/-- Only the duty table's drivers differ, and of them only those of one number. -/
structure DriverAlone (n : Nat) (s t : State) : Prop where
  others : ∀ m, m ≠ n → t.driverOf m = s.driverOf m
  frame : t = { s with dt := { s.dt with drivers := t.dt.drivers } }

theorem driverAlone_modDriver (n : Nat) {f : Driver → Driver} (hf : ∀ x, (f x).num = x.num) (s : State) :
    DriverAlone n s (modDriver n f s) :=
  ⟨fun m hm => driverOf_modDriver_ne n m f hf s hm, rfl⟩

theorem modDriver_record {n : Nat} {f : Driver → Driver} (hf : ∀ x, (f x).num = x.num) {s : State} {x : Driver}
    (hx : s.driverOf n = some x) : DriverAlone n s (modDriver n f s) ∧ (modDriver n f s).driverOf n = some (f x) :=
  ⟨driverAlone_modDriver n hf s, driverOf_modDriver_self n f hf s hx⟩

/-- What a change of one driver's record leaves of the units, with the key at the row's level. -/
theorem DriverAlone.units {n : Nat} {s t : State} {v : Bool} (h : DriverAlone n { s with supv := v } t) :
    (∀ m, m ≠ n → t.driverOf m = s.driverOf m) ∧ t.dt = { s.dt with drivers := t.dt.drivers } ∧ t.dv = s.dv ∧
      t.ck = s.ck ∧ t.cp = s.cp ∧ t.bays = s.bays ∧ t.ts = s.ts ∧ t.dl = s.dl ∧ t.st = s.st := by
  refine ⟨h.others, ?_⟩
  rw [h.frame]
  exact ⟨rfl, rfl, rfl, rfl, rfl, rfl, rfl, rfl⟩

/-! ## ENROL and REMOVE (R44, R45) -/

section
variable {s : State}

theorem driverZero_false {n : Nat} (h : n ≠ 0) : driverZero n = false := by
  simp [driverZero, h]

section
variable {n : Nat} (hn : n ≠ 0)
include hn

theorem dtEnrol_exists (h : (s.driverOf n).isSome = true) : dtEnrol (some n) s = (s, er .EXISTS) := by
  simp only [dtEnrol, driverZero_false hn, h, Bool.false_eq_true, if_false, if_true]

theorem dtEnrol_full (h : s.driverOf n = none) (hfull : 96 ≤ s.dt.drivers.length) :
    dtEnrol (some n) s = (s, er .TABLE_FULL) := by
  have hmax : Config.maxDrivers ≤ s.dt.drivers.length := hfull
  simp only [dtEnrol, driverZero_false hn, h, Option.isSome_none, Bool.false_eq_true, if_false, if_pos hmax]

theorem dtEnrol_taken (h : s.driverOf n = none) (hroom : s.dt.drivers.length < 96) : ∃ t : State, dtEnrol (some n) s =
      (t, ok [drvFld n, fld "FREE" (dec (96 - (s.dt.drivers.length + 1)))]) ∧ DriverAlone n s t ∧
    t.driverOf n = some ⟨n, .ABSENT, [], none, none, false⟩ ∧ t.dt.drivers.length = s.dt.drivers.length + 1 := by
  have hmax : ¬Config.maxDrivers ≤ s.dt.drivers.length := Nat.not_le.2 hroom
  have hlength := (insertDriver_perm ⟨n, .ABSENT, [], none, none, false⟩ s.dt.drivers).length_eq
  refine ⟨s.modDt fun d => { d with drivers := insertDriver ⟨n, .ABSENT, [], none, none, false⟩ d.drivers }, ?_,
    ⟨fun m hm => find?_insertDriver_ne (x := ⟨n, .ABSENT, [], none, none, false⟩) (Ne.symm hm) _, rfl⟩,
    find?_insertDriver_self (x := ⟨n, .ABSENT, [], none, none, false⟩) h, hlength⟩
  simp only [dtEnrol, driverZero_false hn, h, Option.isSome_none, Bool.false_eq_true, if_false, if_neg hmax, freeDrivers,
    State.dt_modDt, hlength]
  rfl

theorem dtRemove_missing (h : s.driverOf n = none) : dtRemove (some n) s = (s, er .NOT_FOUND) := by
  simp only [dtRemove, driverZero_false hn, h, Bool.false_eq_true, if_false]

variable {x : Driver} (hx : s.driverOf n = some x)
include hx

theorem dtRemove_present (h : x.status ≠ .ABSENT) : dtRemove (some n) s = (s, er .STATE) := by
  simp only [dtRemove, driverZero_false hn, hx, Bool.false_eq_true, if_false, if_pos h]

theorem dtRemove_taken (h : x.status = .ABSENT) : ∃ t : State, dtRemove (some n) s =
      (t, ok [drvFld n, fld "FREE" (dec (96 - t.dt.drivers.length))]) ∧ DriverAlone n s t ∧ t.driverOf n = none := by
  refine ⟨s.modDt fun d => { d with drivers := d.drivers.filter fun y => y.num != n }, ?_, ⟨fun m hm => ?_, rfl⟩, ?_⟩
  · simp only [dtRemove, driverZero_false hn, hx, Bool.false_eq_true, if_false, if_neg (not_not.2 h)]
    rfl
  · have hsame : (fun y : Driver => y.num != n && y.num == m) = fun y => y.num == m := by
      funext y
      by_cases hy : y.num = m <;> simp [hy, hm]
    simp only [State.driverOf, State.dt_modDt, List.find?_filter]
    rw [← hsame]
    refine congrArg (fun p => s.dt.drivers.find? p) (funext fun y => ?_)
    cases y.num != n <;> simp [beq_eq_decide]
  · simp only [State.driverOf, State.dt_modDt]
    rw [List.find?_eq_none]
    intro y hy
    have := (List.mem_filter.1 hy).2
    simpa using this

end
end

/-! ## ARRIVE and DEPART (R46, R47) -/

section
variable {s : State} {n : Nat} (hn : n ≠ 0)
include hn

theorem dtArrive_unset (h : s.ck.isSet = false) : dtArrive (some n) s = (s, er .CLOCK_UNSET) := by
  simp only [dtArrive, driverZero_false hn, h, Bool.not_false, Bool.false_eq_true, if_false, if_true]

theorem dtArrive_missing (hset : s.ck.isSet = true) (h : s.driverOf n = none) :
    dtArrive (some n) s = (s, er .NOT_FOUND) := by
  simp only [dtArrive, driverZero_false hn, hset, h, Bool.not_true, Bool.false_eq_true, if_false]

theorem dtDepart_missing (h : s.driverOf n = none) : dtDepart (some n) s = (s, er .NOT_FOUND) := by
  simp only [dtDepart, driverZero_false hn, h, Bool.false_eq_true, if_false]

variable {x : Driver} (hx : s.driverOf n = some x)
include hx

section
variable (hset : s.ck.isSet = true)
include hset

theorem dtArrive_onTrip (h : x.status = .ON_TRIP) : dtArrive (some n) s = (s, er .TRIP_OPEN) := by
  simp only [dtArrive, driverZero_false hn, hset, hx, h, Bool.not_true, Bool.false_eq_true, if_false]

theorem dtArrive_present (h : x.status = .ON_SITE ∨ ∃ b, x.status = .AT_BAY b) :
    dtArrive (some n) s = (s, er .STATE) := by
  rcases h with h | ⟨b, h⟩ <;>
    simp only [dtArrive, driverZero_false hn, hset, hx, h, Bool.not_true, Bool.false_eq_true, if_false]

variable (h : x.status = .ABSENT)
include h

theorem dtArrive_full (hfull : 32 < (s.pruned (x.list ++ [⟨s.nowMin, none, .WORK, .TERMINAL⟩])).length) :
    dtArrive (some n) s = (s, er .LIST_FULL) := by
  have hlist : listFull (s.pruned (openEntry s.nowMin .WORK x.list)) = true := decide_eq_true hfull
  simp only [dtArrive, driverZero_false hn, hset, hx, h, Bool.not_true, Bool.false_eq_true, if_false, hlist, if_true]

theorem dtArrive_taken (hroom : (s.pruned (x.list ++ [⟨s.nowMin, none, .WORK, .TERMINAL⟩])).length ≤ 32) :
    ∃ t : State, dtArrive (some n) s = (t, ok [drvFld n, fld "STATUS" "ON_SITE", fld "START" (minuteText s.nowMin),
        fld "ENTRIES" (dec (s.pruned (x.list ++ [⟨s.nowMin, none, .WORK, .TERMINAL⟩])).length),
        fld "PRUNED" (dec (x.list.length + 1 - (s.pruned (x.list ++ [⟨s.nowMin, none, .WORK, .TERMINAL⟩])).length))]) ∧
      DriverAlone n s t ∧ t.driverOf n = some { x with
        status := .ON_SITE, list := s.pruned (x.list ++ [⟨s.nowMin, none, .WORK, .TERMINAL⟩]) } := by
  have hlist : listFull (s.pruned (openEntry s.nowMin .WORK x.list)) = false := decide_eq_false (Nat.not_lt.2 hroom)
  have hlength : (openEntry s.nowMin .WORK x.list).length = x.list.length + 1 := by simp [openEntry]
  refine ⟨modDriver n (fun y => { y with
      status := .ON_SITE, list := s.pruned (x.list ++ [⟨s.nowMin, none, .WORK, .TERMINAL⟩]) }) s, ?_,
    modDriver_record (fun _ => by rfl) hx⟩
  simp only [dtArrive, driverZero_false hn, hset, hx, h, Bool.not_true, Bool.false_eq_true, if_false, hlist, prunedFields,
    hlength]
  rfl

end

theorem dtDepart_onTrip (h : x.status = .ON_TRIP) : dtDepart (some n) s = (s, er .TRIP_OPEN) := by
  simp only [dtDepart, driverZero_false hn, hx, h, Bool.false_eq_true, if_false]

theorem dtDepart_away (h : x.status = .ABSENT ∨ ∃ b, x.status = .AT_BAY b) : dtDepart (some n) s = (s, er .STATE) := by
  rcases h with h | ⟨b, h⟩ <;> simp only [dtDepart, driverZero_false hn, hx, h, Bool.false_eq_true, if_false]

theorem dtDepart_taken (h : x.status = .ON_SITE) : ∃ t : State, dtDepart (some n) s = (t, ok [drvFld n,
        fld "STATUS" "ABSENT", fld "END" (minuteText s.nowMin),
        fld "ENTRIES" (dec (s.pruned (closeOpen s.nowMin x.list)).length),
        fld "PRUNED" (dec ((closeOpen s.nowMin x.list).length - (s.pruned (closeOpen s.nowMin x.list)).length))]) ∧
      DriverAlone n s t ∧
      t.driverOf n = some { x with status := .ABSENT, list := s.pruned (closeOpen s.nowMin x.list) } := by
  refine ⟨modDriver n (fun y => { y with status := .ABSENT, list := s.pruned (closeOpen s.nowMin x.list) }) s, ?_,
    modDriver_record (fun _ => by rfl) hx⟩
  simp only [dtDepart, driverZero_false hn, hx, h, Bool.false_eq_true, if_false, prunedFields]
  rfl

end

/-- Settles O24. -/
theorem driversAreEnrolledAndComeAndGo : Obligations.DriversAreEnrolledAndComeAndGo := by
  refine ⟨fun h s hready => ⟨?_, ?_, ?_, ?_⟩, fun h n s hready hn => ?_, fun h n x s hready hn hx => ?_⟩
  · exact exec_act (c := .dtEnrol h (some 0)) rfl hready rfl
  · exact exec_act (c := .dtRemove h (some 0)) rfl hready rfl
  · exact exec_act (c := .dtArrive h (some 0)) rfl hready rfl
  · exact exec_act (c := .dtDepart h (some 0)) rfl hready rfl
  · have henrol {t : State} {a : Answer} (hact : dtEnrol (some n) (underKey h s) = (t, a)) :=
      exec_act (c := .dtEnrol h (some n)) rfl hready hact
    have hremove {t : State} {a : Answer} (hact : dtRemove (some n) (underKey h s) = (t, a)) :=
      exec_act (c := .dtRemove h (some n)) rfl hready hact
    have harrive {t : State} {a : Answer} (hact : dtArrive (some n) (underKey h s) = (t, a)) :=
      exec_act (c := .dtArrive h (some n)) rfl hready hact
    have hdepart {t : State} {a : Answer} (hact : dtDepart (some n) (underKey h s) = (t, a)) :=
      exec_act (c := .dtDepart h (some n)) rfl hready hact
    refine ⟨fun hnone hroom => ?_, fun hsome => henrol (dtEnrol_exists hn hsome),
      fun hnone hfull => henrol (dtEnrol_full hn hnone hfull), fun hnone => ⟨hremove (dtRemove_missing hn hnone),
        hdepart (dtDepart_missing hn hnone), fun hset => harrive (dtArrive_missing hn hset hnone)⟩,
      fun hset => harrive (dtArrive_unset hn hset), fun x hx => ⟨fun hst => hremove (dtRemove_present hn hx hst),
        fun hst => ?_⟩⟩
    · obtain ⟨t, ht, halone, hdriver, hlength⟩ := dtEnrol_taken (s := underKey h s) hn hnone hroom
      obtain ⟨hothers, hdt, hrest⟩ := halone.units
      exact ⟨t, henrol ht, hdriver, hothers, hdt, hlength, hrest⟩
    · obtain ⟨t, ht, halone, hdriver⟩ := dtRemove_taken (s := underKey h s) hn hx hst
      exact ⟨t, hremove ht, hdriver, halone.units⟩
  · have harrive {t : State} {a : Answer} (hact : dtArrive (some n) (underKey h s) = (t, a)) :=
      exec_act (c := .dtArrive h (some n)) rfl hready hact
    have hdepart {t : State} {a : Answer} (hact : dtDepart (some n) (underKey h s) = (t, a)) :=
      exec_act (c := .dtDepart h (some n)) rfl hready hact
    refine ⟨fun hset => ⟨fun hst => harrive (dtArrive_onTrip hn hx hset hst), fun hst => harrive (dtArrive_present hn hx hset hst),
        fun hst => ⟨fun hfull => harrive (dtArrive_full hn hx hset hst hfull), fun hroom => ?_⟩⟩,
      fun hst => hdepart (dtDepart_onTrip hn hx hst), fun hst => hdepart (dtDepart_away hn hx hst), fun hst => ?_⟩
    · obtain ⟨t, ht, halone, hdriver⟩ := dtArrive_taken (s := underKey h s) hn hx hset hst hroom
      exact ⟨t, harrive ht, hdriver, halone.units⟩
    · obtain ⟨t, ht, halone, hdriver⟩ := dtDepart_taken (s := underKey h s) hn hx hst
      exact ⟨t, hdepart ht, hdriver, halone.units⟩

end Sys2Proof.Proofs.DutyRows

/-! PROOFS. The duty table: imports and closed trips (R48 to R54). -/

namespace Sys2Proof.Proofs.DutyRows

open Sys2Proof Sys2Proof.Machine Sys2Proof.Laws.Tables Sys2Proof.Laws.Basic Sys2Proof.Proofs.LinkRequests
open Sys2Proof.Proofs.Telling

/-! ## IMPORT (R48, R49) -/

section
variable {a : ImportArgs} {s : State}

theorem any_overlaps_false {e : Entry} {l : List Entry} {now : Nat} (h : ∀ y ∈ l, overlaps now e y = false) :
    l.any (overlaps now e) = false :=
  List.any_eq_false.2 fun y hy => by simp [h y hy]

theorem dtImport_range (h : importEntry a = none) : dtImport (some a) s = (s, er .RANGE) := by
  simp only [dtImport, h]

variable {e : Entry} (he : importEntry a = some e)
include he

theorem dtImport_unset (h : s.ck.isSet = false) : dtImport (some a) s = (s, er .CLOCK_UNSET) := by
  simp only [dtImport, he, h, Bool.not_false, if_true]

variable (hset : s.ck.isSet = true)
include hset

theorem dtImport_missing (h : s.driverOf a.drv = none) : dtImport (some a) s = (s, er .NOT_FOUND) := by
  simp only [dtImport, he, hset, h, Bool.not_true, Bool.false_eq_true, if_false]

variable {x : Driver} (hx : s.driverOf a.drv = some x)
include hx

theorem dtImport_future (h : s.nowMin < e.till s.nowMin) : dtImport (some a) s = (s, er .FUTURE_TIME) := by
  simp only [dtImport, he, hset, hx, Bool.not_true, Bool.false_eq_true, if_false, if_pos h]

variable (hpast : e.till s.nowMin ≤ s.nowMin)
include hpast

theorem dtImport_pending (h : x.pend = true) : dtImport (some a) s = (s, er .BUSY) := by
  simp only [dtImport, he, hset, hx, Bool.not_true, Bool.false_eq_true, if_false, if_neg (Nat.not_lt.2 hpast), h, if_true]

variable (hpend : x.pend = false)
include hpend

theorem dtImport_overlap (h : ∃ y ∈ x.list, overlaps s.nowMin e y = true) : dtImport (some a) s = (s, er .OVERLAP) := by
  simp only [dtImport, he, hset, hx, Bool.not_true, Bool.false_eq_true, if_false, if_neg (Nat.not_lt.2 hpast), hpend,
    List.any_eq_true.2 h, if_true]

variable (hclear : ∀ y ∈ x.list, overlaps s.nowMin e y = false)
include hclear

theorem dtImport_full (h : 32 < (s.pruned (insertEntry e x.list)).length) :
    dtImport (some a) s = (s, er .LIST_FULL) := by
  have hlist : listFull (s.pruned (insertEntry e x.list)) = true := decide_eq_true h
  simp only [dtImport, he, hset, hx, Bool.not_true, Bool.false_eq_true, if_false, if_neg (Nat.not_lt.2 hpast), hpend,
    any_overlaps_false hclear, hlist, if_true]

theorem dtImport_taken (h : (s.pruned (insertEntry e x.list)).length ≤ 32) : ∃ (t : State) (fs : List Fld),
    dtImport (some a) s = (t, ok fs) ∧
    fld "KEPT" (if e ∈ s.pruned (insertEntry e x.list) then "YES" else "NO") ∈ fs ∧ DriverAlone a.drv s t ∧
    t.driverOf a.drv = some { x with list := s.pruned (insertEntry e x.list) } := by
  have hlist : listFull (s.pruned (insertEntry e x.list)) = false := decide_eq_false (Nat.not_lt.2 h)
  refine ⟨modDriver a.drv (fun y => { y with list := s.pruned (insertEntry e x.list) }) s,
    drvFld a.drv :: prunedFields (insertEntry e x.list) (s.pruned (insertEntry e x.list)) ++
      [fld "KEPT" (yesNo ((s.pruned (insertEntry e x.list)).contains e))], ?_, ?_, modDriver_record (fun _ => by rfl) hx⟩
  · simp only [dtImport, he, hset, hx, Bool.not_true, Bool.false_eq_true, if_false, if_neg (Nat.not_lt.2 hpast), hpend,
      any_overlaps_false hclear, hlist]
  · simp [yesNo]

end

/-- Settles O25. -/
theorem importInsertsAnEntry : Obligations.ImportInsertsAnEntry := by
  intro h a s hready
  have himport {t : State} {ans : Answer} (hact : dtImport (some a) (underKey h s) = (t, ans)) :=
    exec_act (c := .dtImport h (some a)) rfl hready hact
  refine ⟨fun hnone => himport (dtImport_range hnone), fun e he => ⟨fun hset => himport (dtImport_unset he hset),
    fun hset hx => himport (dtImport_missing he hset hx), fun hset x hx => ⟨fun hfut => himport (dtImport_future he hset hx hfut),
    fun hpast => ⟨fun hpend => himport (dtImport_pending he hset hx hpast hpend), fun hpend =>
      ⟨fun hover => himport (dtImport_overlap he hset hx hpast hpend hover), fun hclear =>
        ⟨fun hfull => himport (dtImport_full he hset hx hpast hpend hclear hfull), fun hroom => ?_⟩⟩⟩⟩⟩⟩
  obtain ⟨t, fs, ht, hkept, halone, hdriver⟩ :=
    dtImport_taken (s := underKey h s) he hset hx hpast hpend hclear hroom
  exact ⟨t, fs, himport ht, hkept, hdriver, halone.units⟩

/-! ## CLOSETRIP (R52 to R54) -/

/-- The driver's list takes the trip, and he is ABSENT without a document. -/
def tripEnded (a : ClosetripArgs) (x : Driver) (items : List TripItem) (s : State) : State :=
  modDriver a.drv (fun y => { y with
    list := s.pruned (closeTrip (dateMinutes a.stop).toNat items x.list), status := .ABSENT, trip := none }) s

/-- The TRIP_CLOSE record stands in the outbox. -/
def tripRecorded (a : ClosetripArgs) (x : Driver) (dep : Nat) (items : List TripItem) (s : State) : State :=
  (tripEnded a x items s).modDt fun d => { d with
    outbox := d.outbox ++ [s.makeRec (.TRIP_CLOSE ⟨a.drv, x.trip.getD "", dep, (dateMinutes a.stop).toNat, items⟩)] }

/-- The trip of a driver closed: his list, the record in the outbox and at the log, the document gone, the trip told. -/
def closed (a : ClosetripArgs) (x : Driver) (dep : Nat) (items : List TripItem) (s : State) : State :=
  let t := (cpRemove (x.trip.getD "") (postFrom .DT (tripRecorded a x dep items s))).modDt fun d => { d with
    trips := satAdd Config.maxCount16 d.trips 1
    lastTrip := some ⟨a.drv, x.trip.getD "", dep, (dateMinutes a.stop).toNat⟩ }
  raise .DT .TRIP (tripFields t.dt) t

theorem closed_frame (a : ClosetripArgs) (x : Driver) (dep : Nat) (items : List TripItem) (s : State) :
    closed a x dep items s = { s with
      dt := { s.dt with
        drivers := (tripEnded a x items s).dt.drivers
        outbox := s.dt.outbox ++
          [s.makeRec (.TRIP_CLOSE ⟨a.drv, x.trip.getD "", dep, (dateMinutes a.stop).toNat, items⟩)]
        trips := min 65535 (s.dt.trips + 1)
        lastTrip := some ⟨a.drv, x.trip.getD "", dep, (dateMinutes a.stop).toNat⟩ }
      cp := { s.cp with docs := s.cp.docs.filter fun y => y.num != x.trip.getD "" }
      dl := (closed a x dep items s).dl
      dv := (closed a x dep items s).dv } ∧
    (closed a x dep items s).dv.notices = putNotice ⟨.DT, .TRIP, tripFields (closed a x dep items s).dt⟩ s.dv.notices ∧
    LinkKept s (closed a x dep items s) ∧ Posted .DT s (closed a x dep items s) := by
  have hpost := postFrom_frame .DT (tripRecorded a x dep items s)
  have hposted : Posted .DT s (postFrom .DT (tripRecorded a x dep items s)) := posted_postFrom .DT rfl
  unfold closed
  generalize postFrom .DT (tripRecorded a x dep items s) = p at hpost hposted
  have hout : p.dt.outbox = (tripRecorded a x dep items s).dt.outbox := by rw [hpost]
  generalize hdl : p.dl = dl at hpost hposted
  subst hpost
  exact ⟨rfl, rfl, ⟨rfl, rfl, rfl, rfl⟩, hdl.trans hposted⟩

section
variable {a : ClosetripArgs} {s : State}

theorem dtClosetrip_range (h : a.drv = 0 ∨ dateValid a.stop = false ∨ tripItems a.segs = none) :
    dtClosetrip (some a) s = (s, er .RANGE) := by
  cases hitems : tripItems a.segs with
  | none => simp only [dtClosetrip, hitems]
  | some items =>
    have hbad : (driverZero a.drv || !dateValid a.stop) = true := by
      rcases h with h | h | h
      · simp [driverZero, h]
      · simp [h]
      · exact nomatch hitems.symm.trans h
    simp only [dtClosetrip, hitems, hbad, if_true]

variable {items : List TripItem} (hn : a.drv ≠ 0) (hstop : dateValid a.stop = true) (hitems : tripItems a.segs = some items)
include hn hstop hitems

theorem dtClosetrip_unset (h : s.ck.isSet = false) : dtClosetrip (some a) s = (s, er .CLOCK_UNSET) := by
  simp [dtClosetrip, hitems, driverZero_false hn, hstop, h]

variable (hset : s.ck.isSet = true)
include hset

theorem dtClosetrip_missing (h : s.driverOf a.drv = none) : dtClosetrip (some a) s = (s, er .NOT_FOUND) := by
  simp [dtClosetrip, hitems, driverZero_false hn, hstop, hset, h]

variable {x : Driver} (hx : s.driverOf a.drv = some x)
include hx

theorem dtClosetrip_state (h : x.status ≠ .ON_TRIP) : dtClosetrip (some a) s = (s, er .STATE) := by
  simp [dtClosetrip, hitems, driverZero_false hn, hstop, hset, hx, h]

variable (htrip : x.status = .ON_TRIP)
include htrip

theorem dtClosetrip_future (h : (s.nowMin : Int) < dateMinutes a.stop) :
    dtClosetrip (some a) s = (s, er .FUTURE_TIME) := by
  simp [dtClosetrip, hitems, driverZero_false hn, hstop, hset, hx, htrip, h]

variable {dep : Nat} (hpast : dateMinutes a.stop ≤ s.nowMin) (hdep : departureOf x.list = some dep)
include hpast hdep

theorem dtClosetrip_early (h : dateMinutes a.stop < dep) : dtClosetrip (some a) s = (s, er .BEFORE_DEPARTURE) := by
  simp [dtClosetrip, hitems, driverZero_false hn, hstop, hset, hx, htrip, not_lt.2 hpast, hdep, h]

variable (hafter : (dep : Int) ≤ dateMinutes a.stop)
include hafter

theorem dtClosetrip_busy (h : 4 ≤ s.dt.outbox.length) : dtClosetrip (some a) s = (s, er .BUSY) := by
  have hfull : Config.maxDtOutbox ≤ s.dt.outbox.length := h
  simp [dtClosetrip, hitems, driverZero_false hn, hstop, hset, hx, htrip, not_lt.2 hpast, hdep, not_lt.2 hafter, hfull]

variable (hroom : s.dt.outbox.length < 4)
include hroom

theorem dtClosetrip_full (h : 32 < (s.pruned (closeTrip (dateMinutes a.stop).toNat items x.list)).length) :
    dtClosetrip (some a) s = (s, er .LIST_FULL) := by
  have hfree : ¬Config.maxDtOutbox ≤ s.dt.outbox.length := Nat.not_le.2 hroom
  have hlist : listFull (s.pruned (closeTrip (dateMinutes a.stop).toNat items x.list)) = true := decide_eq_true h
  simp [dtClosetrip, hitems, driverZero_false hn, hstop, hset, hx, htrip, not_lt.2 hpast, hdep, not_lt.2 hafter, hfree, hlist]

theorem dtClosetrip_taken (h : (s.pruned (closeTrip (dateMinutes a.stop).toNat items x.list)).length ≤ 32) :
    ∃ (t : State) (fs : List Fld), dtClosetrip (some a) s = (t, ok fs) ∧ fld "DOC" (x.trip.getD "") ∈ fs ∧
    fld "LAID" (dec (layTrip (dateMinutes a.stop).toNat dep items).length) ∈ fs ∧
    t.driverOf a.drv = some { x with
      list := s.pruned (closeTrip (dateMinutes a.stop).toNat items x.list), status := .ABSENT, trip := none } ∧
    (∀ m, m ≠ a.drv → t.driverOf m = s.driverOf m) ∧
    t = { s with
      dt := { s.dt with
        drivers := t.dt.drivers
        outbox := s.dt.outbox ++
          [s.makeRec (.TRIP_CLOSE ⟨a.drv, x.trip.getD "", dep, (dateMinutes a.stop).toNat, items⟩)]
        trips := min 65535 (s.dt.trips + 1)
        lastTrip := some ⟨a.drv, x.trip.getD "", dep, (dateMinutes a.stop).toNat⟩ }
      cp := { s.cp with docs := s.cp.docs.filter fun y => y.num != x.trip.getD "" }
      dl := t.dl
      dv := t.dv } ∧
    t.dv.notices = putNotice ⟨.DT, .TRIP, tripFields t.dt⟩ s.dv.notices ∧ LinkKept s t ∧ Posted .DT s t := by
  have hfree : ¬Config.maxDtOutbox ≤ s.dt.outbox.length := Nat.not_le.2 hroom
  have hlist : listFull (s.pruned (closeTrip (dateMinutes a.stop).toNat items x.list)) = false :=
    decide_eq_false (Nat.not_lt.2 h)
  have hclose : dtClosetrip (some a) s = (closed a x dep items s, ok ([drvFld a.drv, fld "DOC" (x.trip.getD ""),
      fld "LAID" (dec (layTrip (dateMinutes a.stop).toNat dep items).length)] ++
        prunedFields (closeTrip (dateMinutes a.stop).toNat items x.list)
          (s.pruned (closeTrip (dateMinutes a.stop).toNat items x.list)))) := by
    simp only [dtClosetrip, hitems, driverZero_false hn, hstop, hset, hx, htrip, if_neg (not_lt.2 hpast), hdep,
      if_neg (not_lt.2 hafter), if_neg hfree, hlist, Bool.not_true, Bool.or_self, Bool.false_eq_true, if_false, ne_eq,
      not_true_eq_false]
    rfl
  obtain ⟨hframe, hnotices, hkept, hposted⟩ := closed_frame a x dep items s
  have hrecord := modDriver_record (n := a.drv) (f := fun y => { y with
    list := s.pruned (closeTrip (dateMinutes a.stop).toNat items x.list), status := .ABSENT, trip := none })
    (fun _ => by rfl) hx
  obtain ⟨halone, hdriver⟩ := hrecord
  have hdrivers : (closed a x dep items s).dt.drivers = (tripEnded a x items s).dt.drivers := by rw [hframe]
  have hdriverOf (m : Nat) : (closed a x dep items s).driverOf m = (tripEnded a x items s).driverOf m := by
    unfold State.driverOf
    rw [hdrivers]
  refine ⟨_, _, hclose, by simp, by simp, ?_, fun m hm => ?_, ?_, hnotices, hkept, hposted⟩
  · rw [hdriverOf]
    exact hdriver
  · rw [hdriverOf]
    exact halone.others m hm
  · rw [hdrivers]
    exact hframe

end

/-- Settles O26. -/
theorem closetripClosesTheTrip : Obligations.ClosetripClosesTheTrip := by
  intro h a s hready
  have hclose {t : State} {ans : Answer} (hact : dtClosetrip (some a) (underKey h s) = (t, ans)) :=
    exec_act (c := .dtClosetrip h (some a)) rfl hready hact
  refine ⟨fun hrange => hclose (dtClosetrip_range hrange), fun items hn hstop hitems =>
    ⟨fun hset => hclose (dtClosetrip_unset hn hstop hitems hset),
     fun hset hx => hclose (dtClosetrip_missing hn hstop hitems hset hx), fun x dep hset hx =>
      ⟨fun hst => hclose (dtClosetrip_state hn hstop hitems hset hx hst), fun htrip =>
        ⟨fun hfut => hclose (dtClosetrip_future hn hstop hitems hset hx htrip hfut), fun hpast hdep =>
          ⟨fun hearly => hclose (dtClosetrip_early hn hstop hitems hset hx htrip hpast hdep hearly), fun hafter =>
            ⟨fun hbusy => hclose (dtClosetrip_busy hn hstop hitems hset hx htrip hpast hdep hafter hbusy), fun hroom =>
              ⟨fun hfull => hclose (dtClosetrip_full hn hstop hitems hset hx htrip hpast hdep hafter hroom hfull),
               fun hlist => ?_⟩⟩⟩⟩⟩⟩⟩
  obtain ⟨t, fs, ht, hdoc, hlaid, hdriver, hothers, hframe, hnotices, hkept, hposted⟩ :=
    dtClosetrip_taken (s := underKey h s) hn hstop hitems hset hx htrip hpast hdep hafter hroom hlist
  refine ⟨t, fs, hclose ht, hdoc, hlaid, hdriver, hothers, ?_, ?_, ?_, ?_, hnotices, hkept, hposted, ?_⟩
  · rw [hframe]
    rfl
  · rw [hframe]
  · rw [hframe]
  · rw [hframe]
  · rw [hframe]
    exact ⟨rfl, rfl, rfl, rfl⟩

end Sys2Proof.Proofs.DutyRows

/-! PROOFS. The layout of a trip, the off-duty runs of a list, and pruning (R41, R53, R66 to R69). -/

namespace Sys2Proof.Proofs.DutyLists

open Sys2Proof Sys2Proof.Machine

/-! ## The layout of a trip (R53) -/

theorem layTrip_end {stop pos : Nat} (h : stop ≤ pos) (items : List TripItem) : layTrip stop pos items = [] := by
  cases items <;> simp [layTrip, Nat.not_lt.2 h]

theorem layTrip_nil {stop pos : Nat} (h : pos < stop) : layTrip stop pos [] = [⟨pos, some stop, .WORK, .TRIP⟩] := by
  simp [layTrip, h]

theorem layTrip_cons {stop pos : Nat} (h : pos < stop) (i : TripItem) (is : List TripItem) : layTrip stop pos (i :: is) =
    ⟨pos, some (min (pos + i.minutes) stop), i.kind, .TRIP⟩ :: layTrip stop (min (pos + i.minutes) stop) is := by
  simp [layTrip, h]

theorem head_layTrip {stop pos : Nat} (h : pos < stop) (items : List TripItem) :
    (layTrip stop pos items).head?.map (·.start) = some pos := by
  cases items <;> simp [layTrip, h]

theorem getLast_layTrip {stop pos : Nat} (h : pos < stop) (items : List TripItem) :
    (layTrip stop pos items).getLast?.map (·.stop) = some (some stop) := by
  induction items generalizing pos with
  | nil => rw [layTrip_nil h]; rfl
  | cons i is ih =>
    rw [layTrip_cons h]
    rcases Nat.lt_or_ge (pos + i.minutes) stop with hlt | hge
    · rw [Nat.min_eq_left hlt.le]
      have hlast := ih hlt
      cases hrest : layTrip stop (pos + i.minutes) is with
      | nil => simp [hrest] at hlast
      | cons e es =>
        rw [hrest] at hlast
        rw [List.getLast?_cons_cons]
        exact hlast
    · rw [Nat.min_eq_right hge, layTrip_end (Nat.le_refl _)]
      rfl

theorem consecutive_layTrip (stop pos : Nat) (items : List TripItem) (i : Nat) (a b : Entry)
    (ha : (layTrip stop pos items)[i]? = some a) (hb : (layTrip stop pos items)[i + 1]? = some b) :
    a.stop = some b.start := by
  induction items generalizing pos i with
  | nil =>
    rcases Nat.lt_or_ge pos stop with h | h
    · rw [layTrip_nil h] at hb
      simp at hb
    · rw [layTrip_end h] at hb
      simp at hb
  | cons it is ih =>
    rcases Nat.lt_or_ge pos stop with h | h
    · rw [layTrip_cons h] at ha hb
      rw [List.getElem?_cons_succ] at hb
      cases i with
      | zero =>
        rw [List.getElem?_cons_zero, Option.some.injEq] at ha
        rcases Nat.lt_or_ge (min (pos + it.minutes) stop) stop with hlt | hge
        · have hhead := head_layTrip hlt is
          rw [List.head?_eq_getElem?, hb, Option.map_some, Option.some.injEq] at hhead
          rw [← ha, hhead]
        · rw [layTrip_end hge] at hb
          simp at hb
      | succ i =>
        rw [List.getElem?_cons_succ] at ha
        exact ih _ i ha hb
    · rw [layTrip_end h] at hb
      simp at hb

theorem entries_layTrip {stop pos : Nat} {items : List TripItem} (hitems : ∀ i ∈ items, 1 ≤ i.minutes) {e : Entry}
    (he : e ∈ layTrip stop pos items) : e.source = .TRIP ∧ ∃ t, e.stop = some t ∧ e.start < t := by
  induction items generalizing pos with
  | nil =>
    rcases Nat.lt_or_ge pos stop with h | h
    · rw [layTrip_nil h, List.mem_singleton] at he
      rw [he]
      exact ⟨rfl, stop, rfl, h⟩
    · rw [layTrip_end h] at he
      exact nomatch he
  | cons it is ih =>
    rcases Nat.lt_or_ge pos stop with h | h
    · rw [layTrip_cons h, List.mem_cons] at he
      rcases he with rfl | he
      · refine ⟨rfl, _, rfl, ?_⟩
        have hpos := hitems it List.mem_cons_self
        show pos < min (pos + it.minutes) stop
        omega
      · exact ih (fun i hi => hitems i (List.mem_cons_of_mem _ hi)) he
    · rw [layTrip_end h] at he
      exact nomatch he

theorem length_layTrip (stop pos : Nat) (items : List TripItem) : (layTrip stop pos items).length ≤ items.length + 1 := by
  induction items generalizing pos with
  | nil =>
    unfold layTrip
    split
    · exact Nat.le_refl 1
    · exact Nat.zero_le 1
  | cons it is ih =>
    rcases Nat.lt_or_ge pos stop with h | h
    · rw [layTrip_cons h]
      exact Nat.succ_le_succ (ih _)
    · rw [layTrip_end h]
      exact Nat.zero_le _

/-- Where the segments are cut at END the ones behind are beyond it. -/
theorem getElem_layTrip (stop pos : Nat) (items : List TripItem) (i : Nat) (it : TripItem) (hit : items[i]? = some it) :
    (layTrip stop pos items)[i]? = if pos + ((items.take i).map (·.minutes)).sum < stop then
      some ⟨pos + ((items.take i).map (·.minutes)).sum,
        some (min (pos + ((items.take i).map (·.minutes)).sum + it.minutes) stop), it.kind, .TRIP⟩ else none := by
  induction items generalizing pos i with
  | nil => simp at hit
  | cons x xs ih =>
    rcases Nat.lt_or_ge pos stop with h | h
    · rw [layTrip_cons h]
      cases i with
      | zero =>
        obtain rfl : x = it := by simpa using hit
        simp [h]
      | succ i =>
        rw [List.getElem?_cons_succ, ih _ i (by simpa using hit), List.take_succ_cons, List.map_cons, List.sum_cons]
        rcases Nat.le_total (pos + x.minutes) stop with hle | hge
        · rw [Nat.min_eq_left hle, Nat.add_assoc]
        · rw [Nat.min_eq_right hge, if_neg (by omega), if_neg (by omega)]
    · rw [layTrip_end h, if_neg (by omega)]
      rfl

theorem getElem_layTrip_length (stop pos : Nat) (items : List TripItem) : (layTrip stop pos items)[items.length]? =
    if pos + (items.map (·.minutes)).sum < stop then
      some ⟨pos + (items.map (·.minutes)).sum, some stop, .WORK, .TRIP⟩ else none := by
  induction items generalizing pos with
  | nil =>
    rcases Nat.lt_or_ge pos stop with h | h
    · simp [layTrip_nil h, h]
    · simp [layTrip_end h, Nat.not_lt.2 h]
  | cons x xs ih =>
    rcases Nat.lt_or_ge pos stop with h | h
    · rw [layTrip_cons h, List.length_cons, List.getElem?_cons_succ, ih, List.map_cons, List.sum_cons]
      rcases Nat.le_total (pos + x.minutes) stop with hle | hge
      · rw [Nat.min_eq_left hle, Nat.add_assoc]
      · rw [Nat.min_eq_right hge, if_neg (by omega), if_neg (by omega)]
    · rw [layTrip_end h, if_neg (by omega)]
      rfl

/-! ## The off-duty runs (R66, R67) -/

/-- A maximal stretch off duty between two minutes. -/
structure Maximal (base now : Nat) (D : Nat → Prop) (r : Run) : Prop where
  nonempty : r.start < r.stop
  after : base ≤ r.start
  before : r.stop ≤ now
  off : ∀ m, r.start ≤ m → m < r.stop → ¬D m
  start : r.start = base ∨ D (r.start - 1)
  stop : r.stop = now ∨ D r.stop

/-- What holds of the runs yet to come: the present stretch off duty reaches from s to prev, and the entries es follow. -/
structure Reached (base now : Nat) (D : Nat → Prop) (s prev : Nat) (es : List Entry) : Prop where
  base_le : base ≤ s
  le_prev : s ≤ prev
  le_now : prev ≤ now
  off : ∀ m, s ≤ m → m < prev → ¬D m
  begun : s = now ∨ s = base ∨ D (s - 1)
  duty : ∀ m, prev ≤ m → (D m ↔ OnDuty now es m)
  follow : ∀ e ∈ es, prev ≤ e.start
  ordered : DutyOrdered now es

section
variable {base now s prev : Nat} {D : Nat → Prop} {e : Entry} {es : List Entry} (h : Reached base now D s prev (e :: es))
include h

theorem Reached.entry : e.start ≤ e.till now ∧ e.till now ≤ now ∧ (e.stop = none → e.kind ≠ .REST) ∧
    ∀ t ∈ e.stop, e.start < t := h.ordered.2 e List.mem_cons_self

/-- An entry that covers no minute is open at now. -/
theorem Reached.till_eq_now (hempty : e.till now ≤ e.start) : e.till now = now := by
  obtain ⟨-, -, -, hclosed⟩ := h.entry
  cases hstop : e.stop with
  | none => simp [Entry.till, hstop]
  | some t =>
    have hlt := hclosed t hstop
    have htill : e.till now = t := by simp [Entry.till, hstop]
    omega

theorem Reached.later {f : Entry} (hf : f ∈ es) : e.till now ≤ f.start := (List.pairwise_cons.1 h.ordered.1).1 f hf

/-- No minute before the next entry is on duty. -/
theorem Reached.off_before (m : Nat) (hs : s ≤ m) (hm : m < e.start) : ¬D m := by
  rcases Nat.lt_or_ge m prev with hlt | hge
  · exact h.off m hs hlt
  · intro hd
    obtain ⟨f, hf, -, hstart, -⟩ := (h.duty m hge).1 hd
    rcases List.mem_cons.1 hf with rfl | hf
    · omega
    · have hlater := h.later hf
      have hentry := h.entry.1
      omega

theorem Reached.duty_after (m : Nat) (hm : e.till now ≤ m) : D m ↔ OnDuty now es m := by
  have hstart := h.follow e List.mem_cons_self
  have hle := h.entry.1
  rw [h.duty m (by omega)]
  refine ⟨fun ⟨f, hf, hkind, hfrom, hto⟩ => ?_, fun ⟨f, hf, hrest⟩ => ⟨f, List.mem_cons_of_mem _ hf, hrest⟩⟩
  rcases List.mem_cons.1 hf with rfl | hf
  · omega
  · exact ⟨f, hf, hkind, hfrom, hto⟩

theorem Reached.ordered_tail : DutyOrdered now es :=
  ⟨(List.pairwise_cons.1 h.ordered.1).2, fun f hf => h.ordered.2 f (List.mem_cons_of_mem _ hf)⟩

/-- Behind a REST entry the stretch goes on. -/
theorem Reached.rest (hkind : e.kind = .REST) : Reached base now D s (e.till now) es ∧ s < e.till now := by
  obtain ⟨hle, hnow, hopen, hclosed⟩ := h.entry
  have hstart := h.follow e List.mem_cons_self
  have hlt : e.start < e.till now := by
    cases hstop : e.stop with
    | none => exact absurd hkind (hopen hstop)
    | some t => simpa [Entry.till, hstop] using hclosed t hstop
  refine ⟨⟨h.base_le, ?_, hnow, fun m hs hm => ?_, h.begun, h.duty_after, fun f hf => h.later hf, h.ordered_tail⟩, ?_⟩
  · have := h.le_prev
    omega
  · rcases Nat.lt_or_ge m e.start with hm' | hm'
    · exact h.off_before m hs hm'
    · intro hd
      obtain ⟨f, hf, hfkind, hfrom, -⟩ := (h.duty m (by omega)).1 hd
      rcases List.mem_cons.1 hf with rfl | hf
      · exact hfkind hkind
      · have := h.later hf
        omega
  · have := h.le_prev
    omega

variable (hkind : e.kind ≠ .REST)
include hkind

theorem Reached.on_duty (m : Nat) (hfrom : e.start ≤ m) (hto : m < e.till now) : D m := by
  have hstart := h.follow e List.mem_cons_self
  exact (h.duty m (by omega)).2 ⟨e, List.mem_cons_self, hkind, hfrom, hto⟩

/-- Behind an entry on duty a new stretch may begin. -/
theorem Reached.anew : Reached base now D (e.till now) (e.till now) es := by
  obtain ⟨hle, hnow, -, -⟩ := h.entry
  have hstart := h.follow e List.mem_cons_self
  have hbase := h.base_le
  have hprev := h.le_prev
  refine ⟨by omega, Nat.le_refl _, hnow, fun m hs hm => by omega, ?_, h.duty_after, fun f hf => h.later hf, h.ordered_tail⟩
  rcases Nat.lt_or_ge e.start (e.till now) with hlt | hge
  · exact .inr (.inr (h.on_duty hkind _ (by omega) (by omega)))
  · exact .inl (h.till_eq_now hge)

/-- The stretch before an entry on duty is a run, and the only one that begins before the entry's end. -/
theorem Reached.run_iff (hlt : s < e.start) (r : Run) : Maximal base now D r ∧ s ≤ r.start ↔
    r = ⟨s, e.start⟩ ∨ (Maximal base now D r ∧ e.till now ≤ r.start) := by
  obtain ⟨hle, hnow, -, -⟩ := h.entry
  have hbase := h.base_le
  constructor
  · rintro ⟨hr, hs⟩
    have hnonempty := hr.nonempty
    have hbefore := hr.before
    rcases Nat.lt_or_ge r.start e.start with hin | hout
    · left
      have hstart : r.start = s := by
        rcases hr.start with hb | hd
        · omega
        · rcases Nat.lt_or_ge s r.start with hgt | hle'
          · exact absurd hd (h.off_before _ (by omega) (by omega))
          · omega
      have hstop : r.stop = e.start := by
        rcases Nat.lt_trichotomy r.stop e.start with hlt' | heq | hgt
        · rcases hr.stop with hn | hd
          · omega
          · exact absurd hd (h.off_before _ (by omega) hlt')
        · exact heq
        · rcases Nat.lt_or_ge e.start (e.till now) with hlen | hlen
          · exact absurd (h.on_duty hkind e.start (Nat.le_refl _) hlen) (hr.off _ (by omega) hgt)
          · have := h.till_eq_now hlen
            omega
      obtain ⟨start, stop⟩ := r
      obtain rfl : start = s := hstart
      obtain rfl : stop = e.start := hstop
      rfl
    · right
      refine ⟨hr, ?_⟩
      by_contra hno
      exact hr.off r.start (Nat.le_refl _) hnonempty (h.on_duty hkind _ hout (by omega))
  · rintro (rfl | ⟨hr, hs⟩)
    · refine ⟨⟨hlt, hbase, by show e.start ≤ now; omega, fun m hs hm => h.off_before m hs hm, ?_, ?_⟩, Nat.le_refl _⟩
      · exact h.begun.resolve_left (by omega)
      · rcases Nat.lt_or_ge e.start (e.till now) with hlen | hlen
        · exact .inr (h.on_duty hkind _ (Nat.le_refl _) hlen)
        · have := h.till_eq_now hlen
          left
          show e.start = now
          omega
    · exact ⟨hr, by omega⟩

end

end Sys2Proof.Proofs.DutyLists

/-! PROOFS. The runs that a list's reading finds, and what rests on the latest of them (R41, R67 to R69). -/

namespace Sys2Proof.Proofs.DutyLists

open Sys2Proof Sys2Proof.Machine

/-! ## The reading of a list -/

section
variable {now prev : Nat} {run : Option Nat} (hrun : ∀ s ∈ run, s < prev)
include hrun

theorem runsFrom_nil (hnow : prev ≤ now) :
    runsFrom now prev run [] = if run.getD prev < now then [⟨run.getD prev, now⟩] else [] := by
  unfold runsFrom
  dsimp only
  rcases Nat.lt_or_ge prev now with hlt | hge
  · have hs : run.getD prev < now := by
      cases run with
      | none => exact hlt
      | some s => exact (hrun s rfl).trans hlt
    rw [if_pos hlt, if_pos hs]
    simp [hlt.le]
  · obtain rfl : prev = now := by omega
    rw [if_neg (Nat.lt_irrefl _)]
    cases run with
    | none => simp
    | some s =>
      have hs : s < prev := hrun s rfl
      simp [hs]

variable {e : Entry} (he : prev ≤ e.start) (es : List Entry)
include he

/-- The start of the run that reaches the entry, if one does. -/
theorem run_at_entry : (if prev < e.start then some (run.getD prev) else run) =
    if run.getD prev < e.start then some (run.getD prev) else none := by
  rcases Nat.lt_or_ge prev e.start with hlt | hge
  · have hs : run.getD prev < e.start := by
      cases run with
      | none => exact hlt
      | some s => exact (hrun s rfl).trans hlt
    rw [if_pos hlt, if_pos hs]
  · rw [if_neg (Nat.not_lt.2 hge)]
    cases run with
    | none => simp [Nat.not_lt.2 hge]
    | some s =>
      have hs : s < e.start := Nat.lt_of_lt_of_le (hrun s rfl) he
      simp [hs]

theorem runsFrom_rest (hkind : e.kind = .REST) :
    runsFrom now prev run (e :: es) = runsFrom now (e.till now) (some (run.getD prev)) es := by
  have hget : (if run.getD prev < e.start then some (run.getD prev) else none).getD e.start = run.getD prev := by
    split
    · rfl
    · have hle : run.getD prev ≤ prev := by
        cases run with
        | none => exact Nat.le_refl _
        | some s => exact (hrun s rfl).le
      simp only [Option.getD_none]
      omega
  conv_lhs => unfold runsFrom
  simp only [hkind, run_at_entry hrun he, hget]

theorem runsFrom_duty (hkind : e.kind ≠ .REST) : runsFrom now prev run (e :: es) =
    (if run.getD prev < e.start then [⟨run.getD prev, e.start⟩] else []) ++ runsFrom now (e.till now) none es := by
  conv_lhs => unfold runsFrom
  dsimp only
  rw [run_at_entry hrun he]
  split
  · contradiction
  · split
    · rename_i s hs
      split at hs
      · obtain rfl := Option.some.inj hs
        rw [if_pos ‹_›]
        rfl
      · exact nomatch hs
    · rename_i hs
      split at hs
      · exact nomatch hs
      · rw [if_neg ‹_›]
        rfl

end

/-- The runs found are the maximal stretches from the present one on. -/
theorem mem_runsFrom {base now prev : Nat} {D : Nat → Prop} {run : Option Nat} {es : List Entry}
    (h : Reached base now D (run.getD prev) prev es) (hrun : ∀ s ∈ run, s < prev) (r : Run) :
    r ∈ runsFrom now prev run es ↔ Maximal base now D r ∧ run.getD prev ≤ r.start := by
  induction es generalizing prev run with
  | nil =>
    have hnone (m : Nat) (hm : prev ≤ m) : ¬D m := fun hd => by
      obtain ⟨f, hf, -⟩ := (h.duty m hm).1 hd
      exact nomatch hf
    have hoff (m : Nat) (hm : run.getD prev ≤ m) : ¬D m := by
      rcases Nat.lt_or_ge m prev with hlt | hge
      · exact h.off m hm hlt
      · exact hnone m hge
    rw [runsFrom_nil hrun h.le_now]
    split
    · rename_i hlt
      rw [List.mem_singleton]
      constructor
      · rintro rfl
        exact ⟨⟨hlt, h.base_le, Nat.le_refl _, fun m hm _ => hoff m hm, h.begun.resolve_left (Nat.ne_of_lt hlt), .inl rfl⟩,
          Nat.le_refl _⟩
      · rintro ⟨hr, hs⟩
        have hnonempty := hr.nonempty
        have hstart : r.start = run.getD prev := by
          rcases hr.start with hb | hd
          · have := h.base_le
            omega
          · by_contra hne
            exact hoff _ (by omega) hd
        have hstop : r.stop = now := hr.stop.resolve_right (hoff _ (by omega))
        obtain ⟨start, stop⟩ := r
        obtain rfl : start = run.getD prev := hstart
        obtain rfl : stop = now := hstop
        rfl
    · rename_i hge
      refine ⟨fun hr => absurd hr List.not_mem_nil, fun ⟨hr, hs⟩ => ?_⟩
      have hnonempty := hr.nonempty
      have hbefore := hr.before
      omega
  | cons e es ih =>
    have he := h.follow e List.mem_cons_self
    by_cases hkind : e.kind = .REST
    · obtain ⟨hrest, hlt⟩ := h.rest hkind
      rw [runsFrom_rest hrun he es hkind, ih (run := some (run.getD prev)) hrest fun s hs => by
        obtain rfl : run.getD prev = s := by simpa using hs
        exact hlt]
      rfl
    · have hanew := h.anew hkind
      rw [runsFrom_duty hrun he es hkind, List.mem_append, ih (prev := e.till now) (run := none) hanew nofun]
      split
      · rename_i hlt
        rw [h.run_iff hkind hlt, List.mem_singleton]
        rfl
      · rename_i hge
        have hle := h.le_prev
        have hentry := h.entry.1
        refine ⟨fun hr => ?_, fun ⟨hr, hs⟩ => .inr ⟨hr, ?_⟩⟩
        · obtain ⟨hr, hs⟩ := hr.resolve_left (fun hn => nomatch hn)
          have hs' : e.till now ≤ r.start := hs
          exact ⟨hr, by omega⟩
        · show e.till now ≤ r.start
          by_contra hno
          exact hr.off r.start (Nat.le_refl _) hr.nonempty (h.on_duty hkind _ (by omega) (by omega))

/-- The runs are found in their order. -/
theorem sorted_runsFrom {base now prev : Nat} {D : Nat → Prop} {run : Option Nat} {es : List Entry}
    (h : Reached base now D (run.getD prev) prev es) (hrun : ∀ s ∈ run, s < prev) :
    (runsFrom now prev run es).Pairwise fun q r => q.stop < r.stop := by
  induction es generalizing prev run with
  | nil =>
    rw [runsFrom_nil hrun h.le_now]
    split
    · exact List.pairwise_singleton _ _
    · exact List.Pairwise.nil
  | cons e es ih =>
    have he := h.follow e List.mem_cons_self
    by_cases hkind : e.kind = .REST
    · obtain ⟨hrest, hlt⟩ := h.rest hkind
      rw [runsFrom_rest hrun he es hkind]
      refine ih (run := some (run.getD prev)) hrest fun s hs => ?_
      obtain rfl : run.getD prev = s := by simpa using hs
      exact hlt
    · have hanew := h.anew hkind
      rw [runsFrom_duty hrun he es hkind]
      split
      · refine List.pairwise_cons.2 ⟨fun r hr => ?_, ih (run := none) hanew nofun⟩
        obtain ⟨hmax, hs⟩ := (mem_runsFrom (run := none) hanew nofun r).1 hr
        have hs' : e.till now ≤ r.start := hs
        have hnonempty := hmax.nonempty
        have hentry := h.entry.1
        show e.start < r.stop
        omega
      · exact ih (run := none) hanew nofun

/-- At the head of a list nothing is behind. -/
theorem reached_head {now : Nat} {x : Entry} {xs : List Entry} (h : DutyOrdered now (x :: xs)) :
    Reached x.start now (OnDuty now (x :: xs)) x.start x.start (x :: xs) := by
  obtain ⟨hle, hnow, -⟩ := h.2 x List.mem_cons_self
  refine ⟨Nat.le_refl _, Nat.le_refl _, hle.trans hnow, fun m hs hm => by omega, .inr (.inl rfl), fun _ _ => Iff.rfl,
    fun e he => ?_, h⟩
  rcases List.mem_cons.1 he with rfl | he
  · exact Nat.le_refl _
  · exact hle.trans ((List.pairwise_cons.1 h.1).1 e he)

theorem mem_offRuns {now : Nat} {x : Entry} {xs : List Entry} (h : DutyOrdered now (x :: xs)) (r : Run) :
    r ∈ offRuns now (x :: xs) ↔ Maximal x.start now (OnDuty now (x :: xs)) r := by
  refine (mem_runsFrom (run := none) (reached_head h) nofun r).trans ?_
  exact ⟨fun hr => hr.1, fun hr => ⟨hr, hr.after⟩⟩

theorem sorted_offRuns {now : Nat} {l : List Entry} (h : DutyOrdered now l) :
    (offRuns now l).Pairwise fun q r => q.stop < r.stop := by
  cases l with
  | nil => exact List.Pairwise.nil
  | cons x xs => exact sorted_runsFrom (run := none) (reached_head h) nofun

/-! ## The latest run of a length (R41, R68, R69) -/

theorem latestRun_some {n now : Nat} {l : List Entry} (h : DutyOrdered now l) {r : Run} (hr : r ∈ offRuns now l)
    (hlength : n ≤ r.stop - r.start) (hlast : ∀ q ∈ offRuns now l, n ≤ q.stop - q.start → q.stop ≤ r.stop) :
    latestRun n now l = some r := by
  have hmem : r ∈ (offRuns now l).filter fun r => decide (n ≤ r.length) :=
    List.mem_filter.2 ⟨hr, decide_eq_true hlength⟩
  have hsorted := (sorted_offRuns h).filter (fun r => decide (n ≤ r.length))
  unfold latestRun
  obtain ⟨init, q, hsplit⟩ := List.eq_nil_or_concat ((offRuns now l).filter fun r => decide (n ≤ r.length)) |>.resolve_left
    fun hnil => by rw [hnil] at hmem; exact nomatch hmem
  rw [hsplit] at hmem hsorted ⊢
  rw [List.concat_eq_append] at hmem hsorted ⊢
  rw [List.getLast?_concat]
  rcases List.mem_append.1 hmem with hin | hin
  · have hlt := (List.pairwise_append.1 hsorted).2.2 r hin q (List.mem_singleton_self q)
    have hq : q ∈ (offRuns now l).filter fun r => decide (n ≤ r.length) := by rw [hsplit]; simp
    obtain ⟨hq, hqlength⟩ := List.mem_filter.1 hq
    have hle := hlast q hq (of_decide_eq_true hqlength)
    omega
  · rw [List.mem_singleton.1 hin]

theorem latestRun_none {n now : Nat} {l : List Entry} (h : ∀ r ∈ offRuns now l, r.stop - r.start < n) :
    latestRun n now l = none := by
  have hnil : ((offRuns now l).filter fun r => decide (n ≤ r.length)) = [] := List.filter_eq_nil_iff.2 fun r hr => by
    have hlt := h r hr
    have hlength : r.length = r.stop - r.start := rfl
    simp only [decide_eq_true_eq, hlength]
    omega
  rw [latestRun, hnil]
  rfl

/-- Settles O27. -/
theorem tripLayoutRunsAndPruning : Obligations.TripLayoutRunsAndPruning := by
  refine ⟨fun stop dep items hitems hle => ?_, fun now x xs r h => ?_, fun p week now l h => ?_⟩
  · exact ⟨fun heq => layTrip_end heq.ge items, fun hlt => ⟨head_layTrip hlt items, getLast_layTrip hlt items⟩,
      consecutive_layTrip stop dep items, fun e he => entries_layTrip hitems he, length_layTrip stop dep items,
      getElem_layTrip stop dep items, getElem_layTrip_length stop dep items⟩
  · rw [mem_offRuns h]
    exact ⟨fun hr => ⟨hr.nonempty, hr.after, hr.before, hr.off, hr.start, hr.stop⟩,
      fun ⟨h1, h2, h3, h4, h5, h6⟩ => ⟨h1, h2, h3, h4, h5, h6⟩⟩
  · refine ⟨fun r ⟨hr, hlength, hlast⟩ => ?_, fun hnone => ?_, fun r ⟨hr, hlength, hlast⟩ => ?_, fun hnone => ?_⟩
    · have hlatest := latestRun_some h hr hlength hlast
      exact ⟨by simp only [dutyDayStart, hlatest], by simp only [prune, horizon, hlatest]⟩
    · have hlatest := latestRun_none hnone
      exact ⟨by simp only [dutyDayStart, hlatest], by simp only [prune, horizon, hlatest]⟩
    · have hlatest := latestRun_some h hr hlength hlast
      simp only [contDriveStart, hlatest]
    · have hlatest := latestRun_none hnone
      simp only [contDriveStart, hlatest]

end Sys2Proof.Proofs.DutyLists

/-! PROOFS. The consignment papers: staging a document and the readouts of the table (R84 to R94, R105). -/

namespace Sys2Proof.Proofs.Papers

open Sys2Proof Sys2Proof.Machine Sys2Proof.Laws.Basic Sys2Proof.Laws.Requests Sys2Proof.Proofs.Telling
open Sys2Proof.Proofs.LinkRequests

theorem compInRange_iff (c : Nat) : compInRange c = true ↔ 1 ≤ c ∧ c ≤ 8 := by
  simp [compInRange]

theorem compInRange_false (c : Nat) (h : ¬(1 ≤ c ∧ c ≤ 8)) : compInRange c = false :=
  Bool.eq_false_iff.2 fun hc => h ((compInRange_iff c).1 hc)

/-! ## OPEN and LINE (R85, R86) -/

/-- What OPEN leaves when its values are in range. -/
def opened (a : OpenArgs) (s : State) : State :=
  (discardStaging "REOPENED" s).modCp fun c =>
    { c with staging := some ⟨a.doc, a.lines, a.tanker, a.carrier, a.driver, a.plan, []⟩ }

theorem cpOpen_range {a : OpenArgs} (h : ¬(1 ≤ a.lines ∧ a.lines ≤ 8) ∨ a.driver = some 0) (s : State) :
    cpOpen (some a) s = (s, er .RANGE) := by
  have htest : (!compInRange a.lines || a.driver == some 0) = true := by
    rcases h with h | h
    · simp [compInRange_false _ h]
    · simp [h]
  simp only [cpOpen, htest, if_true]

theorem cpOpen_taken {a : OpenArgs} (h1 : 1 ≤ a.lines) (h8 : a.lines ≤ 8) (hd : a.driver ≠ some 0) (s : State) :
    cpOpen (some a) s = (opened a s, ok [fld "DOC" a.doc, fld "LINES" (dec a.lines)]) := by
  have htest : (!compInRange a.lines || a.driver == some 0) = false := by
    simp [(compInRange_iff _).2 ⟨h1, h8⟩, hd]
  simp only [cpOpen, htest, Bool.false_eq_true, if_false]
  rfl

/-- The notice that a discard raises stands among the others. -/
theorem notices_discardStaging (reason : String) (s : State) : (discardStaging reason s).dv.notices =
    match s.cp.staging with
    | none => s.dv.notices
    | some g => putNotice ⟨.CP, .STAGING, stagingFields reason g⟩ s.dv.notices := by
  unfold discardStaging
  rcases s.cp.staging with _ | g <;> rfl

section
variable {a : LineArgs}

theorem cpLine_range (h : lineInRange a = none) (s : State) : cpLine (some a) s = (s, er .RANGE) := by
  simp only [cpLine, h]

variable {l : DocLine} (hl : lineInRange a = some l) {s : State}
include hl

theorem cpLine_nothingStaged (hs : s.cp.staging = none) : cpLine (some a) s = (s, er .SEQUENCE) := by
  simp only [cpLine, hl, hs]

theorem cpLine_full {g : Staging} (hs : s.cp.staging = some g) (hfull : g.expected ≤ g.lines.length) :
    cpLine (some a) s = (discardStaging "SEQUENCE" s, er .SEQUENCE) := by
  simp only [cpLine, hl, hs, if_pos hfull]

theorem cpLine_taken {g : Staging} (hs : s.cp.staging = some g) (hroom : g.lines.length < g.expected) :
    cpLine (some a) s = (s.modCp fun c => { c with staging := some { g with lines := g.lines ++ [l] } },
      ok [fld "LINE" (dec (g.lines.length + 1)), fld "OF" (dec g.expected)]) := by
  simp only [cpLine, hl, hs, if_neg (Nat.not_le.2 hroom)]

end

theorem discardStaging_of_some {s : State} {g : Staging} (hs : s.cp.staging = some g) (reason : String) :
    discardStaging reason s =
      raise .CP .STAGING (stagingFields reason g) (s.modCp fun c => { c with staging := none }) := by
  simp only [discardStaging, hs]

/-- Settles O29: the branches of OPEN and of LINE, one by one. -/
theorem openAndLineStageADocument : Obligations.OpenAndLineStageADocument := by
  intro h s hready
  have hopen {a : OpenArgs} {t : State} {r : Answer} (hact : cpOpen (some a) (underKey h s) = (t, r)) :
      exec (.cpOpen h (some a)) s = Answers h "CP" r t :=
    exec_act (c := .cpOpen h (some a)) rfl hready hact
  refine ⟨fun a h1 h8 hd => ⟨_, hopen (cpOpen_taken h1 h8 hd _), ?_⟩, fun a ha => hopen (cpOpen_range ha _), fun a => ?_⟩
  · obtain ⟨hcp, hck, hdt, hbays, hts, hdl, hst, hlink⟩ := stagingDiscarded_frame "REOPENED" h s
    rw [← discardStaging_underKey] at hcp hck hdt hbays hts hdl hst hlink
    refine ⟨?_, notices_discardStaging "REOPENED" (underKey h s), hlink, hck, hdt, hbays, hts, hdl, hst⟩
    exact congrArg (fun c : Cp =>
      { c with staging := some ⟨a.doc, a.lines, a.tanker, a.carrier, a.driver, a.plan, []⟩ }) hcp
  · have hline {t : State} {r : Answer} (hact : cpLine (some a) (underKey h s) = (t, r)) :
        exec (.cpLine h (some a)) s = Answers h "CP" r t :=
      exec_act (c := .cpLine h (some a)) rfl hready hact
    refine ⟨fun hl => hline (cpLine_range hl _), fun l hl => ⟨fun hs => hline (cpLine_nothingStaged hl hs), ?_⟩⟩
    intro g hs
    refine ⟨fun hroom => hline (cpLine_taken hl (s := underKey h s) hs hroom), fun hfull => hline ?_⟩
    rw [cpLine_full hl (s := underKey h s) hs hfull, discardStaging_of_some (s := underKey h s) hs]

/-! ## The readouts, VOID and ABORT (R90 to R94) -/

section
variable {s : State}

theorem cpList_taken {i : Nat} (h1 : 1 ≤ i) (h64 : i ≤ 64) : cpList (some i) s =
    (interrupted s, ok [fld "COUNT" (dec (interrupted s).cp.docs.length), fld "FROM" (dec i),
      fld "E" (commas ((((interrupted s).cp.docs.drop (i - 1)).take 6).map docItem)),
      if i + 6 ≤ (interrupted s).cp.docs.length then fld "MORE" (dec (i + 6)) else bare "END"]) := by
  have hrange : ¬(i < 1 ∨ Config.maxDocs < i) := by
    show ¬(i < 1 ∨ 64 < i)
    omega
  simp only [cpList, if_neg hrange]
  rfl

variable {d : String}

theorem cpShow_notFound (hd : (interrupted s).docOf d = none) :
    cpShow (some d) s = (interrupted s, er .NOT_FOUND [bare "DOC"]) := by
  simp only [cpShow, hd]

theorem cpVoid_notFound (hd : (interrupted s).docOf d = none) : cpVoid (some d) s = (interrupted s, er .NOT_FOUND) := by
  simp only [cpVoid, hd]

variable {x : Doc} (hd : (interrupted s).docOf d = some x)
include hd

theorem cpShow_taken : cpShow (some d) s = (interrupted s, ok (headerFields x)) := by
  simp only [cpShow, hd]

theorem cpShowLine_taken {c : Nat} {l : DocLine} (h1 : 1 ≤ c) (h8 : c ≤ 8) (hl : x.lineOf c = some l) :
    cpShowLine (some ⟨d, c⟩) s =
      (interrupted s, ok (docLineFields l (x.lines.findIdx (fun m => m.comp == c) + 1))) := by
  simp only [cpShowLine, (compInRange_iff c).2 ⟨h1, h8⟩, hd, hl, Bool.not_true, Bool.false_eq_true, if_false]

theorem cpVoid_state (hx : x.state ≠ .DRAFT) : cpVoid (some d) s = (interrupted s, er .STATE) := by
  simp only [cpVoid, hd, if_pos hx]

theorem cpVoid_taken (hx : x.state = .DRAFT) :
    cpVoid (some d) s = (dropDoc d (interrupted s),
      ok [fld "DOC" d, fld "FREE" (dec (64 - (dropDoc d (interrupted s)).cp.docs.length))]) := by
  simp only [cpVoid, hd, hx, ne_eq, not_true_eq_false, if_false]
  rfl

end

/-- The documents are found after a discard as before it. -/
theorem docOf_interrupted (d : String) (s : State) : (interrupted s).docOf d = s.docOf d := by
  unfold interrupted discardStaging
  rcases s.cp.staging with _ | g <;> rfl

theorem docs_interrupted (s : State) : (interrupted s).cp.docs = s.cp.docs := by
  unfold interrupted discardStaging
  rcases s.cp.staging with _ | g <;> rfl

/-- Settles O31: the branches of each verb, on the state that the discard leaves. -/
theorem papersReadVoidAndAbort : Obligations.PapersReadVoidAndAbort := by
  intro h s hready
  dsimp only
  rw [← interrupted_underKey, ← discardStaging_underKey]
  have hfind (d : String) : (interrupted (underKey h s)).docOf d = s.docOf d := docOf_interrupted d (underKey h s)
  have hdocs : (interrupted (underKey h s)).cp.docs = s.cp.docs := docs_interrupted (underKey h s)
  have hshow {d : String} {t : State} {r : Answer} (hact : cpShow (some d) (underKey h s) = (t, r)) :
      exec (.cpShow h (some d)) s = Answers h "CP" r t := exec_act (c := .cpShow h (some d)) rfl hready hact
  have hvoid {d : String} {t : State} {r : Answer} (hact : cpVoid (some d) (underKey h s) = (t, r)) :
      exec (.cpVoid h (some d)) s = Answers h "CP" r t := exec_act (c := .cpVoid h (some d)) rfl hready hact
  refine ⟨exec_act (c := .cpAbort h (some ())) rfl hready rfl, fun i h1 h64 => ?_, fun d hd => ?_, fun d x hd => ?_⟩
  · refine exec_act (c := .cpList h (some i)) rfl hready ?_
    show cpList (some i) (underKey h s) = _
    rw [cpList_taken h1 h64, hdocs]
  · exact ⟨hshow (cpShow_notFound ((hfind d).trans hd)), hvoid (cpVoid_notFound ((hfind d).trans hd))⟩
  · have hd' := (hfind d).trans hd
    refine ⟨hshow (cpShow_taken hd'), fun c l h1 h8 hl => ?_, fun hx => hvoid (cpVoid_state hd' hx), fun hx => ?_⟩
    · exact exec_act (c := .cpShowLine h (some ⟨d, c⟩)) rfl hready (cpShowLine_taken hd' h1 h8 hl)
    · refine ⟨_, hvoid (cpVoid_taken hd' hx), ?_⟩
      obtain ⟨hcp, hck, hdt, hbays, hts, hdl, hst, hlink⟩ := stagingDiscarded_frame "INTERRUPTED" h s
      rw [← interrupted_underKey] at hck hdt hbays hts hdl hst
      refine ⟨?_, rfl, hck, hdt, hbays, hts, hdl, hst⟩
      exact congrArg (fun l : List Doc => { (interrupted (underKey h s)).cp with docs := l.filter fun y => y.num != d })
        hdocs

/-! ## What a withdrawal restores (R105) -/

theorem findIdx_filter_insert {l : DocLine} {ls : List DocLine} (hnodup : (ls.map (·.comp)).Nodup) (hl : l ∈ ls) :
    (ls.filter fun m => m.comp != l.comp).insertIdx (ls.findIdx fun m => m.comp == l.comp) l = ls := by
  induction ls with
  | nil => exact nomatch hl
  | cons x xs ih =>
    rw [List.map_cons, List.nodup_cons] at hnodup
    obtain ⟨hx, hxs⟩ := hnodup
    by_cases hc : x.comp = l.comp
    · have hrest : xs.filter (fun m => m.comp != l.comp) = xs :=
        List.filter_eq_self.2 fun m hm => bne_iff_ne.2 fun he => hx (hc.trans he.symm ▸ List.mem_map_of_mem hm)
      have hself : l = x := (List.mem_cons.1 hl).resolve_right fun hm => hx (hc ▸ List.mem_map_of_mem hm)
      simp [List.findIdx_cons, hc, hrest, hself]
    · have hm : l ∈ xs := (List.mem_cons.1 hl).resolve_left fun he => hc (he ▸ rfl)
      have hb : (x.comp == l.comp) = false := by simpa using hc
      simp [List.findIdx_cons, hb, hc, ih hxs hm]

theorem replaceLine_replaceLine {l new : DocLine} {ls : List DocLine} (hnodup : (ls.map (·.comp)).Nodup) (hl : l ∈ ls)
    (hnew : new.comp = l.comp) : replaceLine l (replaceLine new ls) = ls := by
  unfold replaceLine
  rw [List.map_map]
  refine (List.map_congr_left fun m hm => ?_).trans (List.map_id ls)
  by_cases hc : m.comp = l.comp
  · have hself : m = l := List.inj_on_of_nodup_map hnodup hm hl hc
    simp [hnew, hself]
  · simp [hnew, hc]

/-- Settles O34: a replaced line is replaced again, and a removed one goes back to its place. -/
theorem withdrawalUndoesTheAmendment : Obligations.WithdrawalUndoesTheAmendment := fun _ _ _ hnodup hl hnew =>
  ⟨replaceLine_replaceLine hnodup hl hnew, replaceLine_replaceLine hnodup hl hnew, findIdx_filter_insert hnodup hl⟩

end Sys2Proof.Proofs.Papers

/-! PROOFS. The validation of a staging and CONFIRM (R87 to R89). -/

namespace Sys2Proof.Proofs.Validation

open Sys2Proof Sys2Proof.Machine Sys2Proof.Laws.Basic Sys2Proof.Laws.Requests Sys2Proof.Proofs.Keeping
open Sys2Proof.Proofs.LinkRequests Sys2Proof.Proofs.Papers Sys2Proof.Proofs.SettingsEdits

/-! ## Segregation (R89) -/

theorem pairPasses_iff (c : Settings) (i j : DocLine) : pairPasses c i j = true ↔ PairAllowed c i j := by
  unfold pairPasses Settings.segEntry PairAllowed
  split <;> rename_i he
  · rw [he]
    simp
  · rw [he]
    simp
  · rw [he]
    simp

theorem pairPasses_false (c : Settings) (i j : DocLine) : pairPasses c i j = false ↔ ¬PairAllowed c i j := by
  rw [← pairPasses_iff, Bool.not_eq_true]

theorem find?_failing_none {c : Settings} {i : DocLine} {ls : List DocLine} :
    ls.find? (fun j => !pairPasses c i j) = none ↔ ∀ j ∈ ls, PairAllowed c i j := by
  simp [List.find?_eq_none, pairPasses_iff]

theorem firstFailingPair_none_iff (c : Settings) (ls : List DocLine) :
    firstFailingPair c ls = none ↔ ls.Pairwise (PairAllowed c) := by
  induction ls with
  | nil => simp [firstFailingPair]
  | cons i rest ih =>
    rw [List.pairwise_cons, ← find?_failing_none, ← ih, firstFailingPair]
    rcases rest.find? fun j => !pairPasses c i j with _ | j
    · simp
    · simp

theorem firstFailingPair_of_first {c : Settings} {ls : List DocLine} {i j : DocLine} (h : FirstBadPair c ls i j) :
    firstFailingPair c ls = some (i.comp, j.comp) := by
  obtain ⟨pre, mid, post, rfl, hbad, hmid, hpre⟩ := h
  induction pre with
  | nil =>
    have hfind : (mid ++ j :: post).find? (fun y => !pairPasses c i y) = some j := by
      rw [List.find?_append, find?_failing_none.2 hmid, Option.none_or,
        List.find?_cons_of_pos (by simp [(pairPasses_false c i j).2 hbad])]
    rw [List.nil_append, firstFailingPair, hfind]
  | cons x pre ih =>
    have hfind : (pre ++ i :: (mid ++ j :: post)).find? (fun y => !pairPasses c x y) = none :=
      find?_failing_none.2 (hpre [] x pre rfl)
    rw [List.cons_append, firstFailingPair, hfind]
    exact ih fun p1 y p2 hsplit => hpre (x :: p1) y p2 (by rw [hsplit, List.cons_append])

/-! ## The tests over lines (R88) -/

theorem firstConflict_none {ls : List DocLine} (h : (ls.map (·.comp)).Nodup) {seen : List Nat}
    (hseen : ∀ l ∈ ls, l.comp ∉ seen) : firstConflict seen ls = none := by
  induction ls generalizing seen with
  | nil => rfl
  | cons l ls ih =>
    rw [List.map_cons, List.nodup_cons] at h
    have hl : ¬seen.contains l.comp = true := by simpa using hseen l List.mem_cons_self
    rw [firstConflict, if_neg hl]
    refine ih h.2 fun m hm => ?_
    rw [List.mem_cons, not_or]
    exact ⟨fun he => h.1 (he ▸ List.mem_map_of_mem hm), hseen m (List.mem_cons_of_mem _ hm)⟩

theorem firstConflict_first {pre post : List DocLine} {l : DocLine} (h : (pre.map (·.comp)).Nodup) {seen : List Nat}
    (hseen : ∀ m ∈ pre, m.comp ∉ seen) (hl : l.comp ∈ seen ∨ ∃ m ∈ pre, m.comp = l.comp) :
    firstConflict seen (pre ++ l :: post) = some l.comp := by
  induction pre generalizing seen with
  | nil =>
    have hc : seen.contains l.comp = true := by simpa using hl
    rw [List.nil_append, firstConflict, if_pos hc]
  | cons x pre ih =>
    rw [List.map_cons, List.nodup_cons] at h
    have hx : ¬seen.contains x.comp = true := by simpa using hseen x List.mem_cons_self
    rw [List.cons_append, firstConflict, if_neg hx]
    refine ih h.2 (fun m hm => ?_) ?_
    · rw [List.mem_cons, not_or]
      exact ⟨fun he => h.1 (he ▸ List.mem_map_of_mem hm), hseen m (List.mem_cons_of_mem _ hm)⟩
    · rcases hl with hl | ⟨m, hm, he⟩
      · exact .inl (List.mem_cons_of_mem _ hl)
      · rcases List.mem_cons.1 hm with rfl | hm
        · exact .inl (he ▸ List.mem_cons_self)
        · exact .inr ⟨m, hm, he⟩

theorem firstLine_none {ls : List DocLine} {bad : DocLine → Bool} (h : ∀ l ∈ ls, bad l = false) :
    firstLine ls bad = none := by
  rw [firstLine, List.find?_eq_none.2 fun l hl => by simp [h l hl], Option.map_none]

theorem firstLine_first {ls pre post : List DocLine} {l : DocLine} {bad : DocLine → Bool} (hls : ls = pre ++ l :: post)
    (hpre : ∀ m ∈ pre, bad m = false) (hl : bad l = true) : firstLine ls bad = some l.comp := by
  rw [firstLine, hls, List.find?_append, List.find?_eq_none.2 fun m hm => by simp [hpre m hm], Option.none_or,
    List.find?_cons_of_pos hl, Option.map_some]

/-! ## The tests that a line must pass -/

/-- The product of the line is in the table. -/
def Known (c : Settings) (l : DocLine) : Prop := ∃ y ∈ c.products, y.code = l.product

/-- The line has the identity of its product. -/
def Alike (c : Settings) (l : DocLine) : Prop :=
  ∀ y, c.products.find? (fun y => y.code == l.product) = some y → l.un = y.un ∧ l.cls = y.cls ∧ l.pg = y.pg

theorem unknown_iff (c : Settings) (l : DocLine) : (!c.hasProduct l.product) = false ↔ Known c l := by
  simp [hasProduct_iff, Known]

theorem product_of_known {c : Settings} {l : DocLine} (h : Known c l) :
    c.products.find? (fun y => y.code == l.product) = some (c.product l.product) := by
  obtain ⟨y, hy, hcode⟩ := h
  unfold Settings.product
  rcases hfind : c.products.find? fun y => y.code == l.product with _ | z
  · exact absurd hcode (by simpa using List.find?_eq_none.1 hfind y hy)
  · rw [hfind]
    rfl

theorem unlike_iff {c : Settings} {l : DocLine} (h : Known c l) :
    (!lineMatchesProduct (c.product l.product) l) = false ↔ Alike c l := by
  unfold Alike
  rw [product_of_known h]
  simp [lineMatchesProduct, and_assoc]

theorem not_full {s : State} (h : s.cp.docs.length < 64) : ¬Config.maxDocs ≤ s.cp.docs.length := Nat.not_le.2 h

section
variable {s : State} {g : Staging}

theorem validation_exists (h : ∃ x ∈ s.cp.docs, x.num = g.num) : validation s g = some (.EXISTS, [fld "DOC" g.num]) := by
  have hdoc : (s.docOf g.num).isSome = true := (docOf_isSome_iff s g.num).2 (List.mem_map.2 h)
  simp only [validation, hdoc, if_true]

variable (hnew : ∀ x ∈ s.cp.docs, x.num ≠ g.num)
include hnew

theorem docOf_new : (s.docOf g.num).isSome = false := by
  rw [← Bool.not_eq_true, docOf_isSome_iff, List.mem_map]
  exact fun ⟨x, hx, he⟩ => hnew x hx he

theorem validation_full (hfull : 64 ≤ s.cp.docs.length) : validation s g = some (.TABLE_FULL, []) := by
  simp only [validation, docOf_new hnew, Bool.false_eq_true, if_false, if_pos (show Config.maxDocs ≤ s.cp.docs.length from hfull)]

variable (hroom : s.cp.docs.length < 64)
include hroom

theorem validation_plan (hplan : planInRange g.plan = false) : validation s g = some (.RANGE, [bare "PLAN"]) := by
  simp only [validation, docOf_new hnew, Bool.false_eq_true, if_false, if_neg (not_full hroom), hplan,
    Bool.not_false, if_true]

variable (hplan : planInRange g.plan = true)
include hplan

theorem validation_conflict {n : Nat} (hc : firstConflict [] g.lines = some n) :
    validation s g = some (.LINE_CONFLICT, [fld "C" (dec n)]) := by
  simp only [validation, docOf_new hnew, Bool.false_eq_true, if_false, if_neg (not_full hroom), hplan,
    Bool.not_true, hc]

variable (hc : firstConflict [] g.lines = none)
include hc

theorem validation_capacity {n : Nat} (hq : firstLine g.lines (fun l => decide (l.cap < l.qty)) = some n) :
    validation s g = some (.RANGE, [fld "C" (dec n)]) := by
  simp only [validation, docOf_new hnew, Bool.false_eq_true, if_false, if_neg (not_full hroom), hplan,
    Bool.not_true, hc, hq]

variable (hq : firstLine g.lines (fun l => decide (l.cap < l.qty)) = none)
include hq

theorem validation_unknown {n : Nat} (hk : firstLine g.lines (fun l => !s.st.applied.hasProduct l.product) = some n) :
    validation s g = some (.NOT_FOUND, [fld "C" (dec n)]) := by
  simp only [validation, docOf_new hnew, Bool.false_eq_true, if_false, if_neg (not_full hroom), hplan,
    Bool.not_true, hc, hq, hk]

variable (hk : firstLine g.lines (fun l => !s.st.applied.hasProduct l.product) = none)
include hk

theorem validation_unlike {n : Nat}
    (ha : firstLine g.lines (fun l => !lineMatchesProduct (s.st.applied.product l.product) l) = some n) :
    validation s g = some (.PRODUCT_MISMATCH, [fld "C" (dec n)]) := by
  simp only [validation, docOf_new hnew, Bool.false_eq_true, if_false, if_neg (not_full hroom), hplan,
    Bool.not_true, hc, hq, hk, ha]

theorem validation_pairs
    (ha : firstLine g.lines (fun l => !lineMatchesProduct (s.st.applied.product l.product) l) = none) :
    validation s g = (firstFailingPair s.st.applied g.lines).map fun p => (.SEGREGATION, [pairField p]) := by
  simp only [validation, docOf_new hnew, Bool.false_eq_true, if_false, if_neg (not_full hroom), hplan,
    Bool.not_true, hc, hq, hk, ha]

end

theorem planInRange_iff (p : Plan) : planInRange p = true ↔
    1 ≤ p.drive ∧ p.drive ≤ 720 ∧ p.drive ≤ p.total ∧ p.total ≤ 1440 ∧ p.breaks ≤ 4 := by
  simp [planInRange, and_assoc]

theorem validation_tests (s : State) (g : Staging) :
    let c := s.st.applied
    let v := validation s g
    let p := g.plan
    let field : DocLine → List Fld := fun l => [fld "C" (dec l.comp)]
    ((∃ x ∈ s.cp.docs, x.num = g.num) → v = some (.EXISTS, [fld "DOC" g.num])) ∧
    ((∀ x ∈ s.cp.docs, x.num ≠ g.num) →
      (64 ≤ s.cp.docs.length → v = some (.TABLE_FULL, [])) ∧
      (s.cp.docs.length < 64 →
        (¬(1 ≤ p.drive ∧ p.drive ≤ 720 ∧ p.drive ≤ p.total ∧ p.total ≤ 1440 ∧ p.breaks ≤ 4) →
          v = some (.RANGE, [bare "PLAN"])) ∧
        (1 ≤ p.drive ∧ p.drive ≤ 720 ∧ p.drive ≤ p.total ∧ p.total ≤ 1440 ∧ p.breaks ≤ 4 →
          (∀ pre l post, g.lines = pre ++ l :: post → (pre.map (·.comp)).Nodup → (∃ m ∈ pre, m.comp = l.comp) →
            v = some (.LINE_CONFLICT, field l)) ∧
          ((g.lines.map (·.comp)).Nodup →
            (∀ pre l post, g.lines = pre ++ l :: post → (∀ m ∈ pre, m.qty ≤ m.cap) → l.cap < l.qty →
              v = some (.RANGE, field l)) ∧
            ((∀ l ∈ g.lines, l.qty ≤ l.cap) →
              (∀ pre l post, g.lines = pre ++ l :: post → (∀ m ∈ pre, Known c m) → ¬Known c l →
                v = some (.NOT_FOUND, field l)) ∧
              ((∀ l ∈ g.lines, Known c l) →
                (∀ pre l post, g.lines = pre ++ l :: post → (∀ m ∈ pre, Alike c m) → ¬Alike c l →
                  v = some (.PRODUCT_MISMATCH, field l)) ∧
                ((∀ l ∈ g.lines, Alike c l) →
                  (∀ i j, FirstBadPair c g.lines i j →
                    v = some (.SEGREGATION, [fld "C" (dec i.comp ++ "," ++ dec j.comp)])) ∧
                  (g.lines.Pairwise (PairAllowed c) → v = none)))))))) := by
  dsimp only
  refine ⟨validation_exists, fun hnew => ⟨validation_full hnew, fun hroom => ?_⟩⟩
  rw [← planInRange_iff]
  refine ⟨fun hplan => validation_plan hnew hroom (Bool.not_eq_true _ ▸ hplan), fun hplan => ⟨?_, fun hcomps => ?_⟩⟩
  · intro pre l post hls hpre hl
    exact validation_conflict hnew hroom hplan (hls ▸ firstConflict_first hpre (fun _ _ => List.not_mem_nil) (.inr hl))
  have hc := firstConflict_none hcomps (seen := []) fun _ _ => List.not_mem_nil
  refine ⟨?_, fun hqty => ?_⟩
  · intro pre l post hls hpre hl
    exact validation_capacity hnew hroom hplan hc (firstLine_first hls (fun m hm => by simpa using hpre m hm) (by simpa using hl))
  have hq : firstLine g.lines (fun l => decide (l.cap < l.qty)) = none :=
    firstLine_none fun l hl => by simpa using hqty l hl
  refine ⟨?_, fun hknown => ?_⟩
  · intro pre l post hls hpre hl
    refine validation_unknown hnew hroom hplan hc hq
      (firstLine_first hls (fun m hm => (unknown_iff _ m).2 (hpre m hm)) ?_)
    exact (Bool.not_eq_false _).mp fun h => hl ((unknown_iff _ l).1 h)
  have hk : firstLine g.lines (fun l => !s.st.applied.hasProduct l.product) = none :=
    firstLine_none fun l hl => (unknown_iff _ l).2 (hknown l hl)
  have hin {pre post : List DocLine} {l : DocLine} (hls : g.lines = pre ++ l :: post) :
      (∀ m ∈ pre, m ∈ g.lines) ∧ l ∈ g.lines := by
    rw [hls]
    exact ⟨fun m hm => List.mem_append_left _ hm, List.mem_append_right _ List.mem_cons_self⟩
  refine ⟨?_, fun halike => ?_⟩
  · intro pre l post hls hpre hl
    obtain ⟨hpres, hmem⟩ := hin hls
    refine validation_unlike hnew hroom hplan hc hq hk
      (firstLine_first hls (fun m hm => (unlike_iff (hknown m (hpres m hm))).2 (hpre m hm)) ?_)
    exact (Bool.not_eq_false _).mp fun h => hl ((unlike_iff (hknown l hmem)).1 h)
  have ha : firstLine g.lines (fun l => !lineMatchesProduct (s.st.applied.product l.product) l) = none :=
    firstLine_none fun l hl => (unlike_iff (hknown l hl)).2 (halike l hl)
  have hv := validation_pairs hnew hroom hplan hc hq hk ha
  refine ⟨fun i j hbad => ?_, fun hpairs => ?_⟩
  · rw [hv, firstFailingPair_of_first hbad]
    rfl
  · rw [hv, (firstFailingPair_none_iff _ _).2 hpairs]
    rfl

/-! ## CONFIRM (R87) -/

section
variable {s : State}

theorem cpConfirm_nothingStaged (hs : s.cp.staging = none) : cpConfirm (some ()) s = (s, er .SEQUENCE) := by
  simp only [cpConfirm, hs]

variable {g : Staging} (hs : s.cp.staging = some g)
include hs

theorem cpConfirm_incomplete (h : g.lines.length < g.expected) :
    cpConfirm (some ()) s = (discardStaging "SEQUENCE" s, er .SEQUENCE) := by
  simp only [cpConfirm, hs, if_pos h]

variable (h : g.expected ≤ g.lines.length)
include h

theorem cpConfirm_invalid {code : ReplyCode} {fs : List Fld} (hv : validation s g = some (code, fs)) :
    cpConfirm (some ()) s = (s.modCp fun c => { c with staging := none }, er code fs) := by
  simp only [cpConfirm, hs, if_neg (Nat.not_lt.2 h), hv]

theorem cpConfirm_taken (hv : validation s g = none) : cpConfirm (some ()) s =
    ((s.modCp fun c => { c with staging := none }).modCp fun c => { c with docs := c.docs ++
        [⟨g.num, .DRAFT, g.tanker, g.carrier, g.driver, g.plan, g.lines, 0, []⟩] },
      ok [fld "DOC" g.num, fld "STATE" "DRAFT", fld "FREE" (dec (64 - (s.cp.docs.length + 1)))]) := by
  simp only [cpConfirm, hs, if_neg (Nat.not_lt.2 h), hv, Staging.document, freeDocs, State.modCp, List.length_append,
    List.length_singleton, Config.maxDocs]

end

/-- Settles O30: the tests of the validation in their order, and the branches of CONFIRM over them. -/
theorem confirmEntersADraft : Obligations.ConfirmEntersADraft := by
  refine ⟨fun c ls => ⟨firstFailingPair_none_iff c ls, fun i j => firstFailingPair_of_first⟩, validation_tests, ?_⟩
  intro h s hready
  have hact {t : State} {r : Answer} (hact : cpConfirm (some ()) (underKey h s) = (t, r)) :
      exec (.cpConfirm h (some ())) s = Answers h "CP" r t :=
    exec_act (c := .cpConfirm h (some ())) rfl hready hact
  refine ⟨fun hs => hact (cpConfirm_nothingStaged hs), fun g hs => ⟨fun hless => hact ?_, fun hall => ⟨?_, fun hv => hact ?_⟩⟩⟩
  · rw [cpConfirm_incomplete (s := underKey h s) hs hless, discardStaging_of_some (s := underKey h s) hs]
  · exact fun code fs hv => hact (cpConfirm_invalid (s := underKey h s) hs hall hv)
  · exact cpConfirm_taken (s := underKey h s) hs hall hv

end Sys2Proof.Proofs.Validation

/-! PROOFS. What an amendment or a withdrawal reaches: its document and its bay (R101, R105, R106, R135). -/

namespace Sys2Proof.Proofs.Amendments

open Sys2Proof Sys2Proof.Machine Sys2Proof.Laws.Basic Sys2Proof.Laws.Tables Sys2Proof.Proofs.Telling
open Sys2Proof.Proofs.BayLines Sys2Proof.Proofs.WriteCompletes Sys2Proof.Proofs.Papers

/-! ## The notices of a change of a bay, STATE last (R113) -/

section
variable {b : Bay} {reason : String} {u v : BayUnit} {ns : List Notice}

theorem mem_toldStateLast_of_ne {m : Notice} {lines : Bool} (hm : m ∈ ns) (hunit : m.unit = .B b) (hkind : m.kind = .LINES)
    (hlines : lines = false) : m ∈ toldStateLast b reason lines u v ns := by
  subst hlines
  have hhold : m ∈ if u.holds = v.holds then ns else putNotice ⟨.B b, .HOLD, holdFields v⟩ ns := by
    split
    · exact hm
    · exact mem_putNotice_of_ne hm (by simp [hkind])
  unfold toldStateLast
  dsimp only
  split
  · exact hhold
  · exact mem_putNotice_of_ne hhold (by simp [hkind])

theorem mem_toldStateLast_lines : (⟨.B b, .LINES, linesFields v⟩ : Notice) ∈ toldStateLast b reason true u v ns :=
  mem_toldStateLast_of_ne (lines := false) (mem_putNotice ..) rfl rfl rfl

theorem mem_toldStateLast_hold {lines : Bool} (h : u.holds ≠ v.holds) :
    (⟨.B b, .HOLD, holdFields v⟩ : Notice) ∈ toldStateLast b reason lines u v ns := by
  unfold toldStateLast
  dsimp only
  rw [if_neg h]
  split
  · exact mem_putNotice ..
  · exact mem_putNotice_of_ne (mem_putNotice ..) (by simp)

theorem mem_toldStateLast_state {lines : Bool} (h : u.state ≠ v.state) :
    (⟨.B b, .STATE, stateFields v reason⟩ : Notice) ∈ toldStateLast b reason lines u v ns := by
  unfold toldStateLast
  dsimp only
  rw [if_neg h]
  exact mem_putNotice ..

end

/-! ## What the bay does (R135) -/

/-- A bay whose line of a compartment is matched against a new declared quantity. -/
def requantifiedBay (tol : Tolerance) (c q : Nat) (u : BayUnit) : BayUnit :=
  let ls := u.lines.map fun m => if m.comp = c then reReconcile tol q m else m
  { u with
    lines := ls
    holds := matchedHolds u.holds ls
    state := match u.state with
      | .HELD => if matchedHolds u.holds ls = Holds.none then .ASSIGNED else .HELD
      | .ASSIGNED => if matchedHolds u.holds ls = Holds.none then .ASSIGNED else .HELD
      | y => y }

theorem requantified_changeBay (b : Bay) (c q : Nat) (s : State) : Requantified b c q s
    (changeBay b "HOLD" true .stateLast (fun u => (u.modLine c (reReconcile s.st.applied.tol q)).matchHolds.adjust) s) := by
  have hbay : ((s.bay b).modLine c (reReconcile s.st.applied.tol q)).matchHolds.adjust =
      requantifiedBay s.st.applied.tol c q (s.bay b) := by
    rw [modLine_lines, matchHolds_eq, adjust_eq]
    rfl
  unfold Requantified
  rw [told_changeBay_last, bay_changeBay_self, hbay]
  exact ⟨rfl, mem_toldStateLast_lines, fun hh => mem_toldStateLast_hold (Ne.symm hh),
    fun hs => mem_toldStateLast_state (Ne.symm hs)⟩

theorem relined_changeBay (b : Bay) (f : List LineRec → List LineRec) (s : State) : Relined b (f (s.bay b).lines) s
    (changeBay b "HOLD" true .stateLast (fun u => { u with lines := f u.lines }) s) := by
  unfold Relined
  rw [told_changeBay_last, bay_changeBay_self]
  exact ⟨rfl, mem_toldStateLast_lines⟩

section
variable {s : State} {b : Bay} {c : Nat}

/-- Of a line that is not in one of the states a quantity is matched in the bay takes no notice. -/
theorem noteAmendment_quiet (h : ((s.bay b).lineOf c).map (·.state) = some .OPEN) :
    noteAmendment b (.quantity c) s = s := by
  obtain ⟨l, hl, hstate⟩ := Option.map_eq_some_iff.1 h
  simp only [noteAmendment, hl]
  split
  · rename_i heq _
    obtain rfl := Option.some.inj heq
    simp [hstate, LineState.isQuantity]
  · rfl

theorem noteAmendment_quantity {d : DocLine} (hd : lineRead s (s.bay b).doc b c = some d)
    (h : ((s.bay b).lineOf c).map (·.state) = some .OVER ∨ ((s.bay b).lineOf c).map (·.state) = some .UNDER) :
    Requantified b c d.qty s (noteAmendment b (.quantity c) s) := by
  have hl : ∃ l, (s.bay b).lineOf c = some l ∧ l.state.isQuantity = true := by
    rcases h with h | h
    all_goals
      obtain ⟨l, hl, hstate⟩ := Option.map_eq_some_iff.1 h
      exact ⟨l, hl, by rw [hstate]; rfl⟩
  obtain ⟨l, hl, hstate⟩ := hl
  simp only [noteAmendment, hl, hd, hstate, if_true]
  exact requantified_changeBay b c d.qty s

end

theorem requantified_congr {b : Bay} {c q : Nat} {s w t : State} (hb : w.bay b = s.bay b) (hst : w.st = s.st)
    (h : Requantified b c q w t) : Requantified b c q s t := by
  unfold Requantified at h ⊢
  rw [hb, hst] at h
  exact h

theorem relined_congr {b : Bay} {ls : List LineRec} {s w t : State} (hb : w.bay b = s.bay b) (h : Relined b ls w t) :
    Relined b ls s t := by
  unfold Relined at h ⊢
  rw [hb] at h
  exact h

/-- The bay and the link's notices alone follow an amendment. -/
theorem noteAmendment_frame (b : Bay) (n : AmendNote) (s : State) :
    noteAmendment b n s = { s with bays := (noteAmendment b n s).bays, dv := (noteAmendment b n s).dv } ∧
      (∀ b', b' ≠ b → (noteAmendment b n s).bay b' = s.bay b') ∧ LinkKept s (noteAmendment b n s) := by
  have hself : s = { s with bays := s.bays, dv := s.dv } ∧ (∀ b', b' ≠ b → s.bay b' = s.bay b') ∧ LinkKept s s :=
    ⟨rfl, fun _ _ => rfl, linkKept_refl s⟩
  have hchange (f : BayUnit → BayUnit) : changeBay b "HOLD" true .stateLast f s =
        { s with bays := (changeBay b "HOLD" true .stateLast f s).bays, dv := (changeBay b "HOLD" true .stateLast f s).dv } ∧
      (∀ b', b' ≠ b → (changeBay b "HOLD" true .stateLast f s).bay b' = s.bay b') ∧
      LinkKept s (changeBay b "HOLD" true .stateLast f s) :=
    ⟨changeBay_frame .., fun b' h => bay_changeBay_ne _ _ _ _ _ _ _ (Ne.symm h), linkKept_changeBay ..⟩
  cases n with
  | quantity c =>
    simp only [noteAmendment]
    split
    · split
      · exact hchange _
      · exact hself
    · exact hself
  | product c => exact hself
  | removed c =>
    simp only [noteAmendment]
    exact hchange _
  | restored c pos =>
    simp only [noteAmendment]
    exact hchange _

/-! ## The document and the bay together -/

/-- A document with changed lines, count and stack, of which its bay is told. -/
def amendedAt (b : Bay) (n : AmendNote) (d : String) (f : Doc → Doc) (s : State) : State :=
  noteAmendment b n (modDoc d f s)

theorem amendedAt_parts {d : String} {f : Doc → Doc} (hf : ∀ x, (f x).num = x.num) (b : Bay) (n : AmendNote) {s : State}
    {x : Doc} (hx : s.docOf d = some x) :
    (amendedAt b n d f s).docOf d = some (f x) ∧ (∀ e, e ≠ d → (amendedAt b n d f s).docOf e = s.docOf e) ∧
      (amendedAt b n d f s).cp.staging = s.cp.staging ∧ (∀ b', b' ≠ b → (amendedAt b n d f s).bay b' = s.bay b') ∧
      LinkKept s (amendedAt b n d f s) ∧ (amendedAt b n d f s).ck = s.ck ∧ (amendedAt b n d f s).dt = s.dt ∧
      (amendedAt b n d f s).ts = s.ts ∧ (amendedAt b n d f s).dl = s.dl ∧ (amendedAt b n d f s).st = s.st := by
  have hself := docOf_modDoc_self d f hf s hx
  have hother (e : String) (he : e ≠ d) := docOf_modDoc_ne d e f hf s he
  obtain ⟨hframe, hbays, hlink⟩ := noteAmendment_frame b n (modDoc d f s)
  unfold amendedAt
  generalize noteAmendment b n (modDoc d f s) = t at hframe hbays hlink
  rw [hframe] at hlink hbays ⊢
  exact ⟨hself, hother, rfl, hbays, hlink, rfl, rfl, rfl, rfl, rfl⟩

/-! ## The document an amendment acts on (R101) -/

theorem quantityPermitted_iff (s : State) (b : Bay) (c : Nat) :
    linePermits s b c quantityPermitted = true ↔ QuantityOpen (((s.bay b).lineOf c).map (·.state)) := by
  unfold linePermits
  rcases (s.bay b).lineOf c with _ | l
  · simp [QuantityOpen]
  · simp [QuantityOpen, quantityPermitted, isQuantity_eq]

theorem openOnly_iff (s : State) (b : Bay) (c : Nat) :
    linePermits s b c openOnly = true ↔ ((s.bay b).lineOf c).map (·.state) = some .OPEN := by
  unfold linePermits
  rcases (s.bay b).lineOf c with _ | l
  · simp
  · simp [openOnly]

section
variable {s : State} {d : String} (fs : List Fld)

theorem boundDoc_unknown (hd : s.docOf d = none) : boundDoc s d fs = .error (.NOT_FOUND, fs) := by
  simp only [boundDoc, hd]

variable {x : Doc} (hd : s.docOf d = some x)
include hd

theorem boundDoc_free (hb : ∀ b, x.state ≠ .BOUND b) : boundDoc s d fs = .error (.STATE, []) := by
  have hbay : docBay x.state = none := by
    cases hx : x.state with
    | BOUND b => exact absurd hx (hb b)
    | DRAFT => rfl
    | RELEASED => rfl
  simp only [boundDoc, hd, hbay]

variable {b : Bay} (hb : x.state = .BOUND b)
include hb

theorem boundDoc_dispatching (h : (s.bay b).state = .DISPATCHING) : boundDoc s d fs = .error (.BUSY, []) := by
  simp only [boundDoc, hd, hb, docBay, h, if_true]

variable (h : (s.bay b).state ≠ .DISPATCHING)
include h

theorem boundDoc_taken : boundDoc s d fs = .ok (x, b) := by
  simp only [boundDoc, hd, hb, docBay, if_neg h]

end

section
variable {s : State} {d : String} {c : Nat} {permits : LineState → Bool} {remove : Bool}

theorem amendTarget_refused {e : Refused} (h : boundDoc s d [bare "DOC"] = .error e) :
    amendTarget s d c permits remove = .error e := by
  simp only [amendTarget, h]

variable {x : Doc} {b : Bay} (h : boundDoc s d [bare "DOC"] = .ok (x, b))
include h

theorem amendTarget_noLine (hl : x.lineOf c = none) :
    amendTarget s d c permits remove = .error (.NOT_FOUND, [bare "C"]) := by
  simp only [amendTarget, h, hl]

variable {l : DocLine} (hl : x.lineOf c = some l)
include hl

theorem amendTarget_lineState (hp : linePermits s b c permits = false) :
    amendTarget s d c permits remove = .error (.LINE_STATE, []) := by
  simp only [amendTarget, h, hl, hp, Bool.not_false, if_true]

variable (hp : linePermits s b c permits = true)
include hp

theorem amendTarget_lastLine (hr : remove = true) (hone : x.lines.length = 1) :
    amendTarget s d c permits remove = .error (.LAST_LINE, []) := by
  simp only [amendTarget, h, hl, hp, hr, hone, decide_true, Bool.and_true, Bool.not_true, Bool.false_eq_true, if_false,
    if_true]

variable (hr : remove = false ∨ x.lines.length ≠ 1)
include hr

theorem not_lastLine : (remove && decide (x.lines.length = 1)) = false := by
  rcases hr with hr | hr
  · rw [hr, Bool.false_and]
  · rw [decide_eq_false hr, Bool.and_false]

theorem amendTarget_stackFull (hfull : 4 ≤ x.stack.length) :
    amendTarget s d c permits remove = .error (.STACK_FULL, []) := by
  have hstack : Config.maxStack ≤ x.stack.length := hfull
  simp only [amendTarget, h, hl, hp, not_lastLine h hl hp hr, if_pos hstack, Bool.not_true, Bool.false_eq_true, if_false]

theorem amendTarget_taken (hroom : x.stack.length < 4) : amendTarget s d c permits remove = .ok ⟨x, b, l⟩ := by
  have hstack : ¬Config.maxStack ≤ x.stack.length := Nat.not_le.2 hroom
  simp only [amendTarget, h, hl, hp, not_lastLine h hl hp hr, if_neg hstack, Bool.not_true, Bool.false_eq_true, if_false]

end

/-! ## Lines replaced (R102, R105) -/

theorem lineOf_comp {x : Doc} {c : Nat} {l : DocLine} (h : x.lineOf c = some l) : l.comp = c := by
  simpa using List.find?_some h

theorem find?_replaceLine {l : DocLine} {ls : List DocLine} (h : ∃ m ∈ ls, m.comp = l.comp) :
    (replaceLine l ls).find? (fun m => m.comp == l.comp) = some l := by
  obtain ⟨m, hm, hc⟩ := h
  have hin : l ∈ replaceLine l ls := List.mem_map.2 ⟨m, hm, by rw [if_pos (by simpa using hc)]⟩
  rcases hfind : (replaceLine l ls).find? fun m => m.comp == l.comp with _ | y
  · exact absurd (beq_self_eq_true l.comp) (List.find?_eq_none.1 hfind l hin)
  · obtain ⟨z, hz, hy⟩ := List.mem_map.1 (List.mem_of_find?_eq_some hfind)
    have hyc : y.comp = l.comp := by simpa using List.find?_some hfind
    split at hy
    · rw [hfind, hy]
    · rename_i hne
      subst hy
      exact absurd (by simpa using hyc) hne

end Sys2Proof.Proofs.Amendments

/-! PROOFS. The requests that amend a document (R101 to R104). -/

namespace Sys2Proof.Proofs.Amendments

open Sys2Proof Sys2Proof.Machine Sys2Proof.Laws.Basic Sys2Proof.Laws.Requests Sys2Proof.Laws.Tables
open Sys2Proof.Proofs.LinkRequests Sys2Proof.Proofs.Papers

/-! ## The reply (R101) -/

/-- The line record that the reply to an amendment of a kind speaks of. -/
def repliedLine (k : AmendKind) (b : Bay) (c : Nat) (t : State) : Option LineRec :=
  match k with
  | .REMOVE _ => none
  | _ => (t.bay b).lineOf c

theorem takeAmendment_taken {d : String} {x : Doc} {b : Bay} {l : DocLine} {s : State} (hd : s.docOf d = some x)
    (k : AmendKind) (ls : List DocLine) (n : AmendNote) : takeAmendment d ⟨x, b, l⟩ k ls n s =
      (amendedAt b n d (Doc.amended k l ls) s, amendAnswer d l.comp k (x.stack.length + 1) (min 65535 (x.count + 1))
        (repliedLine k b l.comp (amendedAt b n d (Doc.amended k l ls) s))) := by
  obtain ⟨hdoc, -⟩ := amendedAt_parts (d := d) (f := Doc.amended k l ls) (fun _ => rfl) b n hd
  unfold takeAmendment
  dsimp only
  rw [show noteAmendment b n (modDoc d (Doc.amended k l ls) s) = amendedAt b n d (Doc.amended k l ls) s from rfl]
  generalize amendedAt b n d (Doc.amended k l ls) s = t at hdoc
  simp only [amendReply, hdoc, Option.map_some, Option.getD_some, Doc.amended, List.length_append, List.length_singleton]
  cases k <;> rfl

/-! ## The tests and the taking of each request -/

section
variable {d : String} {c : Nat} {s : State}

section
variable (h : ¬(1 ≤ c ∧ c ≤ 8))
include h

theorem cpAmendQty_comp (q : Nat) : cpAmendQty (some ⟨d, c, q⟩) s = (interrupted s, er .RANGE) := by
  simp only [cpAmendQty, compInRange_false c h, Bool.not_false, Bool.true_or, if_true]

theorem cpAmendProd_comp (p : String) : cpAmendProd (some ⟨d, c, p⟩) s = (interrupted s, er .RANGE) := by
  simp only [cpAmendProd, compInRange_false c h, Bool.not_false, if_true]

theorem cpAmendRemove_comp : cpAmendRemove (some ⟨d, c⟩) s = (interrupted s, er .RANGE) := by
  simp only [cpAmendRemove, compInRange_false c h, Bool.not_false, if_true]

end

theorem volumeInRange_iff (q : Nat) : volumeInRange q = true ↔ 1 ≤ q ∧ q ≤ 20000 := by
  rw [volumeInRange, Bool.and_eq_true, decide_eq_true_iff, decide_eq_true_iff]
  exact Iff.rfl

theorem cpAmendQty_volume {q : Nat} (h : ¬(1 ≤ q ∧ q ≤ 20000)) :
    cpAmendQty (some ⟨d, c, q⟩) s = (interrupted s, er .RANGE) := by
  have hq : volumeInRange q = false := Bool.eq_false_iff.2 fun hv => h ((volumeInRange_iff q).1 hv)
  simp only [cpAmendQty, hq, Bool.not_false, Bool.or_true, if_true]

variable (hc : 1 ≤ c ∧ c ≤ 8)
include hc

section
variable {e : Refused}

theorem cpAmendQty_refused {q : Nat} (hq : 1 ≤ q ∧ q ≤ 20000)
    (he : amendTarget (interrupted s) d c quantityPermitted false = .error e) :
    cpAmendQty (some ⟨d, c, q⟩) s = (interrupted s, er e.1 e.2) := by
  simp only [cpAmendQty, (compInRange_iff c).2 hc, (volumeInRange_iff q).2 hq, he, Bool.not_true, Bool.or_self,
    Bool.false_eq_true, if_false]

theorem cpAmendProd_refused (p : String) (he : amendTarget (interrupted s) d c openOnly false = .error e) :
    cpAmendProd (some ⟨d, c, p⟩) s = (interrupted s, er e.1 e.2) := by
  simp only [cpAmendProd, (compInRange_iff c).2 hc, he, Bool.not_true, Bool.false_eq_true, if_false]

theorem cpAmendRemove_refused (he : amendTarget (interrupted s) d c openOnly true = .error e) :
    cpAmendRemove (some ⟨d, c⟩) s = (interrupted s, er e.1 e.2) := by
  simp only [cpAmendRemove, (compInRange_iff c).2 hc, he, Bool.not_true, Bool.false_eq_true, if_false]

end

variable {x : Doc} {b : Bay} {l : DocLine}

section
variable {q : Nat} (hq : 1 ≤ q ∧ q ≤ 20000)
  (ht : amendTarget (interrupted s) d c quantityPermitted false = .ok ⟨x, b, l⟩)
include hq ht

theorem cpAmendQty_capacity (hcap : l.cap < q) : cpAmendQty (some ⟨d, c, q⟩) s = (interrupted s, er .RANGE) := by
  simp only [cpAmendQty, (compInRange_iff c).2 hc, (volumeInRange_iff q).2 hq, ht, if_pos hcap, Bool.not_true, Bool.or_self,
    Bool.false_eq_true, if_false]

theorem cpAmendQty_taken (hcap : q ≤ l.cap) : cpAmendQty (some ⟨d, c, q⟩) s =
    takeAmendment d ⟨x, b, l⟩ .QTY (replaceLine { l with qty := q } x.lines) (.quantity c) (interrupted s) := by
  simp only [cpAmendQty, (compInRange_iff c).2 hc, (volumeInRange_iff q).2 hq, ht, if_neg (Nat.not_lt.2 hcap), Bool.not_true,
    Bool.or_self, Bool.false_eq_true, if_false]

end

section
variable {p : String} (ht : amendTarget (interrupted s) d c openOnly false = .ok ⟨x, b, l⟩)
include ht

theorem cpAmendProd_unknown (hp : (interrupted s).st.applied.products.find? (fun y => y.code == p) = none) :
    cpAmendProd (some ⟨d, c, p⟩) s = (interrupted s, er .NOT_FOUND [bare "PROD"]) := by
  simp only [cpAmendProd, (compInRange_iff c).2 hc, ht, hp, Bool.not_true, Bool.false_eq_true, if_false]

variable {y : Product} (hp : (interrupted s).st.applied.products.find? (fun y => y.code == p) = some y)
include hp

theorem cpAmendProd_pair {pr : Nat × Nat}
    (hpr : firstFailingPair (interrupted s).st.applied (replaceLine (withProduct y l) x.lines) = some pr) :
    cpAmendProd (some ⟨d, c, p⟩) s = (interrupted s, er .SEGREGATION [pairField pr]) := by
  simp only [cpAmendProd, (compInRange_iff c).2 hc, ht, hp, hpr, Bool.not_true, Bool.false_eq_true, if_false]

theorem cpAmendProd_taken
    (hpr : firstFailingPair (interrupted s).st.applied (replaceLine (withProduct y l) x.lines) = none) :
    cpAmendProd (some ⟨d, c, p⟩) s =
      takeAmendment d ⟨x, b, l⟩ .PROD (replaceLine (withProduct y l) x.lines) (.product c) (interrupted s) := by
  simp only [cpAmendProd, (compInRange_iff c).2 hc, ht, hp, hpr, Bool.not_true, Bool.false_eq_true, if_false]

end

theorem cpAmendRemove_taken (ht : amendTarget (interrupted s) d c openOnly true = .ok ⟨x, b, l⟩) :
    cpAmendRemove (some ⟨d, c⟩) s =
      takeAmendment d ⟨x, b, l⟩ (.REMOVE (x.lines.findIdx fun m => m.comp == c)) (x.lines.filter fun m => m.comp != c)
        (.removed c) (interrupted s) := by
  simp only [cpAmendRemove, (compInRange_iff c).2 hc, ht, Bool.not_true, Bool.false_eq_true, if_false]

/-- A target refused to every kind is refused to each request. -/
theorem amends_refused {e : Refused} (he : ∀ permits remove, amendTarget (interrupted s) d c permits remove = .error e) :
    (∀ q, 1 ≤ q ∧ q ≤ 20000 → cpAmendQty (some ⟨d, c, q⟩) s = (interrupted s, er e.1 e.2)) ∧
      (∀ p, cpAmendProd (some ⟨d, c, p⟩) s = (interrupted s, er e.1 e.2)) ∧
      cpAmendRemove (some ⟨d, c⟩) s = (interrupted s, er e.1 e.2) :=
  ⟨fun _ hq => cpAmendQty_refused hc hq (he _ _), fun p => cpAmendProd_refused hc p (he _ _),
    cpAmendRemove_refused hc (he _ _)⟩

end

/-! ## What a taken amendment leaves -/

/-- The discard of a staging leaves the documents, the bays and the settings as they were. -/
theorem interrupted_parts (h : Hdr) (s : State) :
    (∀ d, (interrupted (underKey h s)).docOf d = s.docOf d) ∧ (interrupted (underKey h s)).cp.staging = none ∧
      (interrupted (underKey h s)).bays = s.bays ∧ (interrupted (underKey h s)).ck = s.ck ∧
      (interrupted (underKey h s)).dt = s.dt ∧ (interrupted (underKey h s)).ts = s.ts ∧
      (interrupted (underKey h s)).dl = s.dl ∧ (interrupted (underKey h s)).st = s.st := by
  obtain ⟨hcp, hck, hdt, hbays, hts, hdl, hst, -⟩ := stagingDiscarded_frame "INTERRUPTED" h s
  rw [← interrupted_underKey] at hcp hck hdt hbays hts hdl hst
  exact ⟨fun d => docOf_interrupted d (underKey h s), by rw [hcp], hbays, hck, hdt, hts, hdl, hst⟩

theorem bay_of_bays {s t : State} (h : t.bays = s.bays) (b : Bay) : t.bay b = s.bay b := by
  unfold State.bay
  rw [h]

/-- The parts of a document amended on the state that the discard leaves. -/
theorem amendedAt_interrupted {d : String} {f : Doc → Doc} (hf : ∀ x, (f x).num = x.num) (b : Bay) (n : AmendNote) (h : Hdr)
    {s : State} {x : Doc} (hx : s.docOf d = some x) :
    let u := interrupted (underKey h s)
    let t := amendedAt b n d f u
    t.docOf d = some (f x) ∧ (∀ e, e ≠ d → t.docOf e = s.docOf e) ∧ t.cp.staging = none ∧
      (∀ b', b' ≠ b → t.bay b' = s.bay b') ∧ LinkKept u t ∧ t.ck = s.ck ∧ t.dt = s.dt ∧ t.ts = s.ts ∧ t.dl = s.dl ∧
      t.st = s.st := by
  obtain ⟨hdocs, hstaging, hbays, hck, hdt, hts, hdl, hst⟩ := interrupted_parts h s
  obtain ⟨tdoc, tdocs, tstaging, tbays, tlink, tck, tdt, tts, tdl, tst⟩ := amendedAt_parts hf b n ((hdocs d).trans hx)
  exact ⟨tdoc, fun e he => (tdocs e he).trans (hdocs e), tstaging.trans hstaging,
    fun b' hb => (tbays b' hb).trans (bay_of_bays hbays b'), tlink, tck.trans hck, tdt.trans hdt, tts.trans hts,
    tdl.trans hdl, tst.trans hst⟩

/-- A line read gives the line of the document bound to the bay. -/
theorem lineRead_of_bound {s : State} {d : String} {b : Bay} {x : Doc} (hd : s.docOf d = some x) (hb : x.state = .BOUND b)
    (c : Nat) : lineRead s (some d) b c = x.lineOf c := by
  simp only [lineRead, Option.bind_eq_bind, Option.bind_some, hd, hb, if_true]

theorem lineOf_replaced {x : Doc} {c : Nat} {l m : DocLine} (hl : x.lineOf c = some m) (hc : l.comp = c) :
    (replaceLine l x.lines).find? (fun y => y.comp == c) = some l := by
  subst hc
  exact find?_replaceLine ⟨m, List.mem_of_find?_eq_some hl, lineOf_comp hl⟩

/-- A new quantity reaches the bay that stores the document (R106, R135). -/
theorem amendedAt_quantity {d : String} {f : Doc → Doc} (hf : ∀ x, (f x).num = x.num) {b : Bay} {c : Nat} {h : Hdr}
    {s : State} {x : Doc} {l : DocLine} (hx : s.docOf d = some x) (hb : (f x).state = .BOUND b)
    (hl : (f x).lineOf c = some l) (hdoc : (s.bay b).doc = some d)
    (hst : ((s.bay b).lineOf c).map (·.state) = some .OVER ∨ ((s.bay b).lineOf c).map (·.state) = some .UNDER) :
    Requantified b c l.qty s (amendedAt b (.quantity c) d f (interrupted (underKey h s))) := by
  obtain ⟨hdocs, -, hbays, -, -, -, -, hst'⟩ := interrupted_parts h s
  have hself := docOf_modDoc_self d f hf _ ((hdocs d).trans hx)
  have hbay : (modDoc d f (interrupted (underKey h s))).bay b = s.bay b := bay_of_bays hbays b
  have hread : lineRead (modDoc d f (interrupted (underKey h s)))
      ((modDoc d f (interrupted (underKey h s))).bay b).doc b c = some l := by
    rw [hbay, hdoc, lineRead_of_bound hself hb]
    exact hl
  refine requantified_congr hbay hst' (noteAmendment_quantity hread ?_)
  rw [hbay]
  exact hst

/-- Of an OPEN line's new quantity the bay takes no notice. -/
theorem amendedAt_open {d : String} {f : Doc → Doc} {b : Bay} {c : Nat} {h : Hdr} {s : State}
    (hst : ((s.bay b).lineOf c).map (·.state) = some .OPEN) :
    (amendedAt b (.quantity c) d f (interrupted (underKey h s))).bays = s.bays ∧
      (amendedAt b (.quantity c) d f (interrupted (underKey h s))).dv = (interrupted (underKey h s)).dv := by
  obtain ⟨-, -, hbays, -, -, -, -, -⟩ := interrupted_parts h s
  have hbay : (modDoc d f (interrupted (underKey h s))).bay b = s.bay b := bay_of_bays hbays b
  unfold amendedAt
  rw [noteAmendment_quiet (by rw [hbay]; exact hst)]
  exact ⟨hbays, rfl⟩

/-- A line taken out of the document is taken out of the bay. -/
theorem amendedAt_removed {d : String} {f : Doc → Doc} {b : Bay} {c : Nat} {h : Hdr} {s : State} :
    Relined b ((s.bay b).lines.filter fun r => r.comp != c) s
      (amendedAt b (.removed c) d f (interrupted (underKey h s))) := by
  obtain ⟨-, -, hbays, -, -, -, -, -⟩ := interrupted_parts h s
  have hbay : (modDoc d f (interrupted (underKey h s))).bay b = s.bay b := bay_of_bays hbays b
  have hrelined := relined_changeBay b (fun ls => ls.filter fun r => r.comp != c) (modDoc d f (interrupted (underKey h s)))
  rw [hbay] at hrelined
  unfold amendedAt noteAmendment
  exact relined_congr hbay hrelined

/-- A line put back into the document is put back, OPEN, into the bay. -/
theorem amendedAt_restored {d : String} {f : Doc → Doc} {b : Bay} {c pos : Nat} {h : Hdr} {s : State} :
    Relined b ((s.bay b).lines.insertIdx pos (openLine c)) s
      (amendedAt b (.restored c pos) d f (interrupted (underKey h s))) := by
  obtain ⟨-, -, hbays, -, -, -, -, -⟩ := interrupted_parts h s
  have hbay : (modDoc d f (interrupted (underKey h s))).bay b = s.bay b := bay_of_bays hbays b
  have hrelined := relined_changeBay b (fun ls => ls.insertIdx pos (openLine c)) (modDoc d f (interrupted (underKey h s)))
  rw [hbay] at hrelined
  unfold amendedAt noteAmendment
  exact relined_congr hbay hrelined

/-- Settles O32: the tests in their order, and what each kind leaves. -/
theorem amendmentsAreStacked : Obligations.AmendmentsAreStacked := by
  intro h d c q p s hready
  dsimp only
  rw [← interrupted_underKey]
  obtain ⟨hdocs, -, hbays, -, -, -, -, hst⟩ := interrupted_parts h s
  have hbay := bay_of_bays hbays
  have hqty {t : State} {r : Answer} (hact : cpAmendQty (some ⟨d, c, q⟩) (underKey h s) = (t, r)) :
      exec (.cpAmendQty h (some ⟨d, c, q⟩)) s = Answers h "CP" r t :=
    exec_act (c := .cpAmendQty h (some ⟨d, c, q⟩)) rfl hready hact
  have hprod {t : State} {r : Answer} (hact : cpAmendProd (some ⟨d, c, p⟩) (underKey h s) = (t, r)) :
      exec (.cpAmendProd h (some ⟨d, c, p⟩)) s = Answers h "CP" r t :=
    exec_act (c := .cpAmendProd h (some ⟨d, c, p⟩)) rfl hready hact
  have hrem {t : State} {r : Answer} (hact : cpAmendRemove (some ⟨d, c⟩) (underKey h s) = (t, r)) :
      exec (.cpAmendRemove h (some ⟨d, c⟩)) s = Answers h "CP" r t :=
    exec_act (c := .cpAmendRemove h (some ⟨d, c⟩)) rfl hready hact
  refine ⟨fun hc => ⟨hqty (cpAmendQty_comp hc q), hprod (cpAmendProd_comp hc p), hrem (cpAmendRemove_comp hc)⟩,
    fun hq => hqty (cpAmendQty_volume hq), fun h1 h8 => ?_⟩
  have hc : 1 ≤ c ∧ c ≤ 8 := ⟨h1, h8⟩
  have hall {e : Refused} (he : ∀ permits remove, amendTarget (interrupted (underKey h s)) d c permits remove = .error e) :
      (1 ≤ q ∧ q ≤ 20000 → exec (.cpAmendQty h (some ⟨d, c, q⟩)) s =
          Answers h "CP" (er e.1 e.2) (interrupted (underKey h s))) ∧
        exec (.cpAmendProd h (some ⟨d, c, p⟩)) s = Answers h "CP" (er e.1 e.2) (interrupted (underKey h s)) ∧
        exec (.cpAmendRemove h (some ⟨d, c⟩)) s = Answers h "CP" (er e.1 e.2) (interrupted (underKey h s)) := by
    obtain ⟨h1, h2, h3⟩ := amends_refused hc he
    exact ⟨fun hq => hqty (h1 q hq), hprod (h2 p), hrem h3⟩
  refine ⟨fun hd => hall fun _ _ => amendTarget_refused (boundDoc_unknown _ ((hdocs d).trans hd)), fun x hd => ?_⟩
  have hd' := (hdocs d).trans hd
  refine ⟨fun hb => hall fun _ _ => amendTarget_refused (boundDoc_free _ hd' hb), fun b hb => ?_⟩
  refine ⟨fun hdis => hall fun _ _ => amendTarget_refused (boundDoc_dispatching _ hd' hb (by rw [hbay]; exact hdis)),
    fun hdis => ?_⟩
  have hok := boundDoc_taken [bare "DOC"] hd' hb (by rw [hbay]; exact hdis)
  refine ⟨fun hl => hall fun _ _ => amendTarget_noLine hok hl, fun l hl => ?_⟩
  have hquantity := quantityPermitted_iff (interrupted (underKey h s)) b c
  have hopen := openOnly_iff (interrupted (underKey h s)) b c
  rw [hbay] at hquantity hopen
  obtain rfl := lineOf_comp hl
  have hparts (k : AmendKind) (ls : List DocLine) (n : AmendNote) :=
    amendedAt_interrupted (f := Doc.amended k l ls) (fun _ => rfl) b n h hd
  refine ⟨fun hno hq => ?_, fun hno => ?_, fun ho hone => ?_, fun hfull => ?_, fun hroom => ?_⟩
  · exact hqty (cpAmendQty_refused hc hq
      (amendTarget_lineState hok hl (Bool.eq_false_iff.2 fun hp => hno (hquantity.1 hp))))
  · have hp := Bool.eq_false_iff.2 fun hp => hno (hopen.1 hp)
    exact ⟨hprod (cpAmendProd_refused hc p (amendTarget_lineState hok hl hp)),
      hrem (cpAmendRemove_refused hc (amendTarget_lineState hok hl hp))⟩
  · exact hrem (cpAmendRemove_refused hc (amendTarget_lastLine hok hl (hopen.2 ho) rfl hone))
  · exact ⟨fun hp hq => hqty (cpAmendQty_refused hc hq (amendTarget_stackFull hok hl (hquantity.2 hp) (.inl rfl) hfull)),
      fun ho => hprod (cpAmendProd_refused hc p (amendTarget_stackFull hok hl (hopen.2 ho) (.inl rfl) hfull)),
      fun ho hne => hrem (cpAmendRemove_refused hc (amendTarget_stackFull hok hl (hopen.2 ho) (.inr hne) hfull))⟩
  refine ⟨fun hp hq => ?_, fun ho => ?_, fun ho hne => ?_⟩
  · have ht := amendTarget_taken hok hl (hquantity.2 hp) (.inl rfl) hroom
    refine ⟨fun hcap => hqty (cpAmendQty_capacity hc hq ht hcap), fun hcap => ?_⟩
    refine ⟨_, hqty ((cpAmendQty_taken hc hq ht hcap).trans (takeAmendment_taken hd' ..)), ?_⟩
    obtain ⟨tdoc, tdocs, tstaging, tbays, tlink, tck, tdt, tts, tdl, tst⟩ :=
      hparts .QTY (replaceLine { l with qty := q } x.lines) (.quantity l.comp)
    refine ⟨tdoc, tdocs, tstaging, tbays, tlink, tck, tdt, tts, tdl, tst, amendedAt_open, fun hno hdoc => ?_⟩
    exact amendedAt_quantity (f := Doc.amended .QTY l (replaceLine { l with qty := q } x.lines)) (fun _ => rfl)
      (l := { l with qty := q }) hd hb (lineOf_replaced hl rfl) hdoc (hp.resolve_left hno)
  · have ht := amendTarget_taken hok hl (hopen.2 ho) (.inl rfl) hroom (remove := false)
    rw [← hst]
    refine ⟨fun hy => hprod (cpAmendProd_unknown hc ht hy), fun y hy => ?_⟩
    have hcode : y.code = p := by simpa using List.find?_some hy
    obtain rfl := hcode
    refine ⟨fun i j hij => hprod (cpAmendProd_pair (pr := (i, j)) hc ht hy hij), fun hpairs => ?_⟩
    refine ⟨_, hprod ((cpAmendProd_taken hc ht hy hpairs).trans (takeAmendment_taken hd' ..)), ?_⟩
    obtain ⟨tdoc, tdocs, tstaging, tbays, tlink, tck, tdt, tts, tdl, tst⟩ :=
      hparts .PROD (replaceLine (withProduct y l) x.lines) (.product l.comp)
    exact ⟨tdoc, tdocs, tstaging, tbays, tlink, tck, tdt, tts, tdl, tst.trans hst.symm, hbays, rfl⟩
  · have ht := amendTarget_taken hok hl (hopen.2 ho) (.inr hne) hroom (remove := true)
    refine ⟨_, hrem ((cpAmendRemove_taken hc ht).trans (takeAmendment_taken hd' ..)), ?_⟩
    obtain ⟨tdoc, tdocs, tstaging, tbays, tlink, tck, tdt, tts, tdl, tst⟩ :=
      hparts (.REMOVE (x.lines.findIdx fun m => m.comp == l.comp)) (x.lines.filter fun m => m.comp != l.comp)
        (.removed l.comp)
    exact ⟨tdoc, tdocs, tstaging, tbays, tlink, tck, tdt, tts, tdl, tst,
      amendedAt_removed⟩

end Sys2Proof.Proofs.Amendments

/-! PROOFS. The withdrawal of the newest amendment (R105, R106). -/

namespace Sys2Proof.Proofs.Amendments

open Sys2Proof Sys2Proof.Machine Sys2Proof.Laws.Basic Sys2Proof.Laws.Requests Sys2Proof.Laws.Tables
open Sys2Proof.Proofs.LinkRequests Sys2Proof.Proofs.Papers Sys2Proof.Proofs.Validation

/-- The line's state at the bay permits the withdrawal. -/
def PermittedAt (k : AmendKind) (st : Option LineState) : Prop :=
  match k with
  | .QTY => QuantityOpen st
  | .PROD => st = some .OPEN
  | .REMOVE _ => True

theorem withdrawPermitted_iff (s : State) (b : Bay) (e : StackEntry) :
    withdrawPermitted s b e = true ↔ PermittedAt e.kind (((s.bay b).lineOf e.line.comp).map (·.state)) := by
  unfold withdrawPermitted PermittedAt
  cases e.kind with
  | QTY => exact quantityPermitted_iff s b e.line.comp
  | PROD => exact openOnly_iff s b e.line.comp
  | REMOVE pos => exact iff_of_true rfl trivial

/-! ## The line put back (R105) -/

section
variable {s : State} {e : StackEntry} {ls : List DocLine}

theorem withdrawInvalid_unknown (h : s.st.applied.products.find? (fun y => y.code == e.line.product) = none) :
    withdrawInvalid s e ls = some (.NOT_FOUND, []) := by
  have hno : s.st.applied.hasProduct e.line.product = false := by
    simpa [Settings.hasProduct] using h
  simp only [withdrawInvalid, hno, Bool.not_false, if_true]

variable {y : Product} (h : s.st.applied.products.find? (fun y => y.code == e.line.product) = some y)
include h

theorem known_of_find : s.st.applied.hasProduct e.line.product = true ∧ s.st.applied.product e.line.product = y := by
  refine ⟨?_, ?_⟩
  · exact List.any_eq_true.2 ⟨y, List.mem_of_find?_eq_some h, List.find?_some (p := fun y : Product => y.code == e.line.product) h⟩
  · unfold Settings.product
    rw [h]
    rfl

theorem lineMatches_iff : lineMatchesProduct (s.st.applied.product e.line.product) e.line = true ↔
    e.line.un = y.un ∧ e.line.cls = y.cls ∧ e.line.pg = y.pg := by
  rw [(known_of_find h).2]
  simp [lineMatchesProduct, and_assoc]

theorem withdrawInvalid_unlike (ha : ¬(e.line.un = y.un ∧ e.line.cls = y.cls ∧ e.line.pg = y.pg)) :
    withdrawInvalid s e ls = some (.PRODUCT_MISMATCH, []) := by
  have hno : lineMatchesProduct (s.st.applied.product e.line.product) e.line = false :=
    Bool.eq_false_iff.2 fun hm => ha ((lineMatches_iff h).1 hm)
  simp only [withdrawInvalid, (known_of_find h).1, hno, Bool.not_true, Bool.false_eq_true, if_false, Bool.not_false, if_true]

theorem withdrawInvalid_pairs (ha : e.line.un = y.un ∧ e.line.cls = y.cls ∧ e.line.pg = y.pg) :
    withdrawInvalid s e ls = (firstFailingPair s.st.applied ls).map fun p => (.SEGREGATION, [pairField p]) := by
  simp only [withdrawInvalid, (known_of_find h).1, (lineMatches_iff h).2 ha, Bool.not_true, Bool.false_eq_true, if_false]

end

/-! ## The tests and the taking of the request -/

/-- The document with these lines again and its newest amendment forgotten. -/
def undone (ls : List DocLine) (x : Doc) : Doc :=
  { x with lines := ls, count := x.count - 1, stack := x.stack.dropLast }

theorem withdrawNote_qty {e : StackEntry} (h : e.kind = .QTY) : withdrawNote e = .quantity e.line.comp := by
  simp only [withdrawNote, h]

theorem withdrawNote_prod {e : StackEntry} (h : e.kind = .PROD) : withdrawNote e = .product e.line.comp := by
  simp only [withdrawNote, h]

theorem withdrawNote_remove {e : StackEntry} {pos : Nat} (h : e.kind = .REMOVE pos) :
    withdrawNote e = .restored e.line.comp pos := by
  simp only [withdrawNote, h]

section
variable {d : String} {s : State}

theorem cpWithdraw_refused {e : Refused} (h : boundDoc (interrupted s) d [] = .error e) :
    cpWithdraw (some d) s = (interrupted s, er e.1 e.2) := by
  simp only [cpWithdraw, h]

variable {x : Doc} {b : Bay} (h : boundDoc (interrupted s) d [] = .ok (x, b))
include h

theorem cpWithdraw_empty (hx : x.stack = []) : cpWithdraw (some d) s = (interrupted s, er .STACK_EMPTY) := by
  simp only [cpWithdraw, h, hx, List.getLast?_nil]

variable {older : List StackEntry} {e : StackEntry} (hx : x.stack = older ++ [e])
include hx

theorem cpWithdraw_lineState (hp : withdrawPermitted (interrupted s) b e = false) :
    cpWithdraw (some d) s = (interrupted s, er .LINE_STATE) := by
  simp only [cpWithdraw, h, hx, List.getLast?_concat, hp, Bool.not_false, if_true]

variable (hp : withdrawPermitted (interrupted s) b e = true)
include hp

theorem cpWithdraw_invalid {r : Refused} (hr : withdrawInvalid (interrupted s) e (restoredLines e x.lines) = some r) :
    cpWithdraw (some d) s = (interrupted s, er r.1 r.2) := by
  simp only [cpWithdraw, h, hx, List.getLast?_concat, hp, Bool.not_true, Bool.false_eq_true, if_false, hr]

theorem cpWithdraw_taken (hd : (interrupted s).docOf d = some x)
    (hr : withdrawInvalid (interrupted s) e (restoredLines e x.lines) = none) :
    cpWithdraw (some d) s =
      (amendedAt b (withdrawNote e) d (undone (restoredLines e x.lines)) (interrupted s),
        amendAnswer d e.line.comp e.kind older.length (x.count - 1)
          (((amendedAt b (withdrawNote e) d (undone (restoredLines e x.lines)) (interrupted s)).bay b).lineOf
            e.line.comp)) := by
  obtain ⟨hdoc, -⟩ := amendedAt_parts (d := d) (f := undone (restoredLines e x.lines)) (fun _ => rfl) b
    (withdrawNote e) hd
  simp only [cpWithdraw, h, hx, List.getLast?_concat, hp, Bool.not_true, Bool.false_eq_true, if_false, hr]
  unfold amendedAt undone at hdoc ⊢
  simp only [amendReply, hdoc, Option.map_some, Option.getD_some, hx, List.dropLast_concat]
  rfl

end

/-- Settles O33: the tests in their order, and what each kind gives back. -/
theorem withdrawTakesTheNewestBack : Obligations.WithdrawTakesTheNewestBack := by
  intro h d s hready
  dsimp only
  rw [← interrupted_underKey]
  obtain ⟨hdocs, -, hbays, -, -, -, -, hst⟩ := interrupted_parts h s
  have hbay := bay_of_bays hbays
  have hout {t : State} {r : Answer} (hact : cpWithdraw (some d) (underKey h s) = (t, r)) :
      exec (.cpWithdraw h (some d)) s = Answers h "CP" r t :=
    exec_act (c := .cpWithdraw h (some d)) rfl hready hact
  refine ⟨fun hd => hout (cpWithdraw_refused (boundDoc_unknown _ ((hdocs d).trans hd))), fun x hd => ?_⟩
  have hd' := (hdocs d).trans hd
  refine ⟨fun hb => hout (cpWithdraw_refused (boundDoc_free _ hd' hb)), fun b hb => ?_⟩
  refine ⟨fun hdis => hout (cpWithdraw_refused (boundDoc_dispatching _ hd' hb (by rw [hbay]; exact hdis))), fun hdis => ?_⟩
  have hok := boundDoc_taken [] hd' hb (by rw [hbay]; exact hdis)
  refine ⟨fun hx => hout (cpWithdraw_empty hok hx), fun older e hx => ?_⟩
  have hpermitted := withdrawPermitted_iff (interrupted (underKey h s)) b e
  rw [hbay] at hpermitted
  refine ⟨fun hno => hout (cpWithdraw_lineState hok hx (Bool.eq_false_iff.2 fun hp => hno (hpermitted.1 hp))), fun hyes => ?_⟩
  have hp := hpermitted.2 hyes
  rw [← hst]
  refine ⟨fun hy => hout (cpWithdraw_invalid hok hx hp (withdrawInvalid_unknown hy)), fun y hy => ?_⟩
  refine ⟨fun ha => hout (cpWithdraw_invalid hok hx hp (withdrawInvalid_unlike hy ha)), fun h1 h2 h3 => ?_⟩
  have hpairs := withdrawInvalid_pairs (ls := restoredLines e x.lines) hy ⟨h1, h2, h3⟩
  refine ⟨fun i j hij => hout (cpWithdraw_invalid (r := (.SEGREGATION, [pairField (i, j)])) hok hx hp ?_), fun hnone => ?_⟩
  · rw [hpairs, hij]
    rfl
  · have hvalid : withdrawInvalid (interrupted (underKey h s)) e (restoredLines e x.lines) = none := by
      rw [hpairs, hnone]
      rfl
    have hact := cpWithdraw_taken hok hx hp hd' hvalid
    refine ⟨_, hout hact, ?_⟩
    obtain ⟨tdoc, tdocs, tstaging, tbays, tlink, tck, tdt, tts, tdl, tst⟩ :=
      amendedAt_interrupted (f := undone (restoredLines e x.lines)) (fun _ => rfl) b (withdrawNote e) h hd
    have hstack : x.stack.dropLast = older := by rw [hx, List.dropLast_concat]
    rw [undone, hstack] at tdoc
    refine ⟨tdoc, tdocs, tstaging, tbays, tlink, tck, tdt, tts, tdl, tst.trans hst.symm, ?_, ?_, ?_, ?_⟩
    · intro hk hopen hdoc hline
      obtain ⟨l, hl⟩ := Option.ne_none_iff_exists'.1 hline
      have hquantity : QuantityOpen (((s.bay b).lineOf e.line.comp).map (·.state)) := by
        rw [hk] at hyes
        exact hyes
      have hlines : restoredLines e x.lines = replaceLine e.line x.lines := by
        unfold restoredLines
        rw [hk]
      rw [withdrawNote_qty hk]
      refine amendedAt_quantity (f := undone (restoredLines e x.lines)) (fun _ => rfl) (l := e.line) hd hb ?_ hdoc
        (hquantity.resolve_left hopen)
      show (restoredLines e x.lines).find? (fun m => m.comp == e.line.comp) = _
      rw [hlines]
      exact lineOf_replaced hl rfl
    · intro hk hopen
      rw [withdrawNote_qty hk]
      exact amendedAt_open hopen
    · intro hk
      rw [withdrawNote_prod hk]
      exact ⟨hbays, rfl⟩
    · intro pos hk
      rw [withdrawNote_remove hk]
      exact amendedAt_restored

end Sys2Proof.Proofs.Amendments

/-! PROOFS. A change of one bay by a request or an event, and the loading of a compartment (R113, R116, R119, R122). -/

namespace Sys2Proof.Proofs.BayChanges

open Sys2Proof Sys2Proof.Machine Sys2Proof.Laws.Basic Sys2Proof.Laws.Tables Sys2Proof.Proofs.WriteCompletes

section
variable {b : Bay} {reason : String} {lines : Bool} {f : BayUnit → BayUnit} {s : State} {w : BayUnit}
  (hw : (f (s.bay b)).drive = w) (v : Bool)
include hw

/-- A change of a bay, STATE first: what the bay becomes, what is told, and that nothing else changes. -/
theorem changeBay_first : (changeBay b reason lines .stateFirst f { s with supv := v }).bay b = w ∧
    (changeBay b reason lines .stateFirst f { s with supv := v }).dv.notices =
      toldStateFirst b reason lines (s.bay b) w s.dv.notices ∧
    BayAlone b s (changeBay b reason lines .stateFirst f { s with supv := v }) := by
  subst hw
  exact ⟨bay_changeBay_self .., told_changeBay_first .., bayAlone_changeBay ..⟩

/-- A change of a bay, STATE last. -/
theorem changeBay_last : (changeBay b reason lines .stateLast f { s with supv := v }).bay b = w ∧
    (changeBay b reason lines .stateLast f { s with supv := v }).dv.notices =
      toldStateLast b reason lines (s.bay b) w s.dv.notices ∧
    BayAlone b s (changeBay b reason lines .stateLast f { s with supv := v }) := by
  subst hw
  exact ⟨bay_changeBay_self .., told_changeBay_last .., bayAlone_changeBay ..⟩

end

theorem toldStateFirst_lines {b : Bay} {reason : String} {u v : BayUnit} {ns : List Notice} (hstate : u.state ≠ v.state)
    (hholds : u.holds = v.holds) : toldStateFirst b reason true u v ns =
      putNotice ⟨.B b, .LINES, linesFields v⟩ (putNotice ⟨.B b, .STATE, stateFields v reason⟩ ns) := by
  simp only [toldStateFirst, if_neg hstate, hholds, if_true]

section
variable {b : Bay} {reason : String} {f : BayUnit → BayUnit} {s : State} {w : BayUnit} (hw : (f (s.bay b)).drive = w)
  (hstate : (s.bay b).state ≠ w.state) (hholds : (s.bay b).holds = w.holds) (v : Bool)
include hw hstate hholds

/-- A new bay state with other lines is told by STATE and LINES. -/
theorem changeBay_stateAndLines :
    let t := changeBay b reason true .stateFirst f { s with supv := v }
    t.bay b = w ∧ t.dv.notices = putNotice ⟨.B b, .LINES, linesFields (t.bay b)⟩
      (putNotice ⟨.B b, .STATE, stateFields (t.bay b) reason⟩ s.dv.notices) ∧ BayAlone b s t := by
  obtain ⟨hbay, hnotices, halone⟩ := changeBay_first (reason := reason) (lines := true) hw v
  refine ⟨hbay, ?_, halone⟩
  rw [hbay, hnotices, toldStateFirst_lines hstate hholds]

/-- A new bay state alone is told by STATE. -/
theorem changeBay_state :
    let t := changeBay b reason false .stateFirst f { s with supv := v }
    t.bay b = w ∧ t.dv.notices = putNotice ⟨.B b, .STATE, stateFields (t.bay b) reason⟩ s.dv.notices ∧ BayAlone b s t := by
  obtain ⟨hbay, hnotices, halone⟩ := changeBay_first (reason := reason) (lines := false) hw v
  refine ⟨hbay, ?_, halone⟩
  rw [hbay, hnotices, toldStateFirst_stateAlone hstate hholds]

end

/-- RELEASE at a LOADING bay follows the verdict where the bond is good and HALT is away (R112). -/
theorem mayRelease_loading {u : BayUnit} (hstate : u.state = .LOADING) (hbond : u.bond = true) (hhalt : u.halt = false) :
    u.mayRelease = u.verdict.any fun v => decide (v.verdict ≠ .LIMIT) := by
  have hverdict (k : VerdictKind) : (k == .CLEAR || k == .TIGHT) = decide (k ≠ .LIMIT) := by
    cases k <;> rfl
  simp [BayUnit.mayRelease, hstate, hbond, hhalt, hverdict]

theorem drive_loading {u : BayUnit} (hstate : u.state = .LOADING) (hbond : u.bond = true) (hhalt : u.halt = false) :
    u.drive = { u with release := u.verdict.any fun v => decide (v.verdict ≠ .LIMIT) } := by
  rw [BayUnit.drive, mayRelease_loading hstate hbond hhalt]

theorem activeVo_eq {u : BayUnit} {c : Ctx} (hctx : u.ctx = some c) :
    u.activeVo = ((u.lineOf c.comp).map (·.vo)).getD 0 := by
  simp only [BayUnit.activeVo, hctx, Option.bind_some]

theorem activeComp_eq {u : BayUnit} {c : Ctx} (hctx : u.ctx = some c) : u.activeComp = c.comp := by
  simp only [BayUnit.activeComp, hctx, Option.map_some, Option.getD_some]

/-- A bay whose compartment has begun to settle. -/
abbrev finishing (u : BayUnit) (c : Ctx) : BayUnit :=
  { u with
    state := .FINISHING
    ctx := some { c with settleMs := 0, settled := false, final := false }
    lines := u.lines.map fun l => if l.comp = c.comp then { l with state := .FINISHING } else l
    release := false }

theorem drive_finish {u : BayUnit} {c : Ctx} (hctx : u.ctx = some c) : u.finish.drive = finishing u c := by
  have hfinish : u.finish = { u with
      state := .FINISHING
      ctx := some { c with settleMs := 0, settled := false, final := false }
      lines := u.lines.map fun l => if l.comp = c.comp then { l with state := .FINISHING } else l } := by
    simp only [BayUnit.finish, hctx, BayLines.modLine_lines]
  rw [hfinish, Apply.drive_of_not_loading (by simp)]

/-- The compartment of a bay ends: STATE and LINES tell it. -/
theorem enterFinishing_told {b : Bay} {s : State} {c : Ctx} (reason : String) (hctx : (s.bay b).ctx = some c)
    (hstate : (s.bay b).state ≠ .FINISHING) (v : Bool) :
    let t := enterFinishing b reason { s with supv := v }
    t.bay b = finishing (s.bay b) c ∧
      t.dv.notices = putNotice ⟨.B b, .LINES, linesFields (t.bay b)⟩
        (putNotice ⟨.B b, .STATE, stateFields (t.bay b) reason⟩ s.dv.notices) ∧ BayAlone b s t :=
  changeBay_stateAndLines (drive_finish hctx) hstate rfl v

end Sys2Proof.Proofs.BayChanges

namespace Sys2Proof.Proofs.BayLoading

open Sys2Proof Sys2Proof.Machine Sys2Proof.Laws.Basic Sys2Proof.Laws.Tables Sys2Proof.Proofs.WriteCompletes
open Sys2Proof.Proofs.Papers Sys2Proof.Proofs.LinkRequests Sys2Proof.Proofs.BayChanges

/-- What START makes of the bay, but for RELEASE. -/
def startedBay (c q : Nat) (u : BayUnit) : BayUnit :=
  { u.modLine c LineRec.started with state := .LOADING, ctx := some ⟨c, q, false, false, 0, 0, false, 0, false⟩ }

theorem drive_started {u : BayUnit} (hbond : u.bond = true) (hhalt : u.halt = false) {c q : Nat} :
    (startedBay c q u).drive = { u with
      state := .LOADING
      ctx := some ⟨c, q, false, false, 0, 0, false, 0, false⟩
      lines := u.lines.map fun l => if l.comp = c then LineRec.started l else l
      release := u.verdict.any fun v => decide (v.verdict ≠ .LIMIT) } := by
  refine (drive_loading (u := startedBay c q u) rfl hbond hhalt).trans ?_
  rw [startedBay, BayLines.modLine_lines]

/-- What RESUME makes of the bay, but for RELEASE. -/
def resumedBay (u : BayUnit) : BayUnit :=
  { u with
    state := .LOADING
    ctx := u.ctx.map fun c => { c with haltReason := false, bondReason := false, pauseMs := 0 } }

theorem drive_resumed {u : BayUnit} (hbond : u.bond = true) (hhalt : u.halt = false) {c : Ctx} (hctx : u.ctx = some c) :
    (resumedBay u).drive = { u with
      state := .LOADING
      ctx := some { c with haltReason := false, bondReason := false, pauseMs := 0 }
      release := u.verdict.any fun v => decide (v.verdict ≠ .LIMIT) } := by
  refine (drive_loading (u := resumedBay u) rfl hbond hhalt).trans ?_
  rw [resumedBay, hctx]
  rfl

section
variable {b : Bay} {a : StartArgs} {s : State}

theorem start_inRange_iff (a : StartArgs) :
    (!compInRange a.comp || a.preset == 0) = false ↔ 1 ≤ a.comp ∧ a.comp ≤ 8 ∧ a.preset ≠ 0 := by
  rw [Bool.or_eq_false_iff, Bool.not_eq_false', compInRange_iff, beq_eq_false_iff_ne, and_assoc]

theorem bStart_range (h : ¬(1 ≤ a.comp ∧ a.comp ≤ 8 ∧ a.preset ≠ 0)) : bStart b (some a) s = (s, er .RANGE) := by
  have htest : (!compInRange a.comp || a.preset == 0) = true :=
    (Bool.not_eq_false _).mp fun hno => h ((start_inRange_iff a).1 hno)
  simp only [bStart, htest, if_true]

variable (hrange : 1 ≤ a.comp ∧ a.comp ≤ 8 ∧ a.preset ≠ 0)
include hrange

theorem start_inRange : (!compInRange a.comp || a.preset == 0) = false := (start_inRange_iff a).2 hrange

theorem bStart_state (h : (s.bay b).state ≠ .ASSIGNED) : bStart b (some a) s = (s, stateRefusal (s.bay b)) := by
  simp only [bStart, start_inRange hrange, Bool.false_eq_true, if_false, if_pos h]

variable (hstate : (s.bay b).state = .ASSIGNED)
include hstate

theorem bStart_noLine (h : (s.bay b).lineOf a.comp = none) : bStart b (some a) s = (s, er .NOT_FOUND) := by
  simp only [bStart, start_inRange hrange, Bool.false_eq_true, if_false, hstate, ne_eq, not_true_eq_false, h]

variable {l : LineRec} (hl : (s.bay b).lineOf a.comp = some l)
include hl

theorem bStart_lineState (h : l.state ≠ .OPEN) : bStart b (some a) s = (s, er .LINE_STATE) := by
  simp only [bStart, start_inRange hrange, Bool.false_eq_true, if_false, hstate, ne_eq, not_true_eq_false, hl, if_pos h]

variable (hopen : l.state = .OPEN)
include hopen

theorem bStart_noBond (h : (s.bay b).bond = false) : bStart b (some a) s = (s, er .NO_BOND) := by
  simp only [bStart, start_inRange hrange, Bool.false_eq_true, if_false, hstate, ne_eq, not_true_eq_false, hl, hopen, h,
    Bool.not_false, if_true]

variable (hbond : (s.bay b).bond = true)
include hbond

theorem bStart_halted (h : (s.bay b).halt = true) : bStart b (some a) s = (s, er .HALTED) := by
  simp only [bStart, start_inRange hrange, Bool.false_eq_true, if_false, hstate, ne_eq, not_true_eq_false, hl, hopen, hbond,
    Bool.not_true, h, if_true]

theorem bStart_taken (h : (s.bay b).halt = false) {d : DocLine} (hd : lineRead s (s.bay b).doc b a.comp = some d) :
    bStart b (some a) s =
      (changeBay b "START" true .stateFirst (startedBay a.comp (min a.preset d.cap)) s,
        ok [fld "C" (dec a.comp), fld "PRESET" (dec (min a.preset d.cap))]) := by
  simp only [bStart, start_inRange hrange, Bool.false_eq_true, if_false, hstate, ne_eq, not_true_eq_false, hl, hopen, hbond,
    Bool.not_true, h, usedPreset, hd]
  rfl

end

section
variable {b : Bay} {s : State}

theorem bStop_state (h1 : (s.bay b).state ≠ .LOADING) (h2 : (s.bay b).state ≠ .PAUSED) :
    bStop b (some ()) s = (s, er .STATE) := by
  simp only [bStop, h1, h2, or_self, if_false]

theorem bStop_taken (h : (s.bay b).state = .LOADING ∨ (s.bay b).state = .PAUSED) {c : Ctx} (hctx : (s.bay b).ctx = some c) :
    bStop b (some ()) s = (enterFinishing b "STOP" s,
      ok [fld "C" (dec c.comp), fld "VO" (dec ((((s.bay b).lineOf c.comp).map (·.vo)).getD 0))]) := by
  simp only [bStop, if_pos h, activeComp_eq hctx, activeVo_eq hctx]

theorem bResume_state (h : (s.bay b).state ≠ .PAUSED) : bResume b (some ()) s = (s, er .STATE) := by
  simp only [bResume, if_pos h]

variable (hstate : (s.bay b).state = .PAUSED)
include hstate

theorem bResume_halted (h : (s.bay b).halt = true) : bResume b (some ()) s = (s, er .HALTED) := by
  simp only [bResume, hstate, ne_eq, not_true_eq_false, if_false, h, if_true]

variable (hhalt : (s.bay b).halt = false)
include hhalt

theorem bResume_noBond (h : (s.bay b).bond = false) : bResume b (some ()) s = (s, er .NO_BOND) := by
  simp only [bResume, hstate, ne_eq, not_true_eq_false, if_false, hhalt, h, Bool.false_eq_true, Bool.not_false, if_true]

theorem bResume_taken (h : (s.bay b).bond = true) {c : Ctx} (hctx : (s.bay b).ctx = some c) :
    bResume b (some ()) s = (changeBay b "RESUME" false .stateFirst resumedBay s,
      ok [fld "C" (dec c.comp), fld "VO" (dec ((((s.bay b).lineOf c.comp).map (·.vo)).getD 0))]) := by
  simp only [bResume, hstate, ne_eq, not_true_eq_false, if_false, hhalt, h, Bool.false_eq_true, Bool.not_true,
    activeComp_eq hctx, activeVo_eq hctx]
  rfl

end

/-- Settles O36: the tests of each request in their order, and what its change of the bay makes of it. -/
theorem loadingStartsStopsAndResumes : Obligations.LoadingStartsStopsAndResumes := by
  intro h b s hready
  dsimp only
  have hstart {a : StartArgs} {t : State} {r : Answer} (hact : bStart b (some a) (underKey h s) = (t, r)) :
      exec (.bStart h b (some a)) s = Answers h (unitText (.B b)) r t :=
    exec_act (c := .bStart h b (some a)) rfl hready hact
  have hstop {t : State} {r : Answer} (hact : bStop b (some ()) (underKey h s) = (t, r)) :
      exec (.bStop h b (some ())) s = Answers h (unitText (.B b)) r t :=
    exec_act (c := .bStop h b (some ())) rfl hready hact
  have hresume {t : State} {r : Answer} (hact : bResume b (some ()) (underKey h s) = (t, r)) :
      exec (.bResume h b (some ())) s = Answers h (unitText (.B b)) r t :=
    exec_act (c := .bResume h b (some ())) rfl hready hact
  refine ⟨fun a ha => hstart (bStart_range ha), fun a h1 h8 hp => ?_,
    fun h1 h2 => hstop (bStop_state (s := underKey h s) h1 h2), fun c hstate hctx => ?_,
    fun hstate => hresume (bResume_state (s := underKey h s) hstate),
    fun hstate hhalt => hresume (bResume_halted (s := underKey h s) hstate hhalt),
    fun hstate hhalt hbond => hresume (bResume_noBond (s := underKey h s) hstate hhalt hbond),
    fun c hstate hhalt hbond hctx => ?_⟩
  · have hrange := (⟨h1, h8, hp⟩ : 1 ≤ a.comp ∧ a.comp ≤ 8 ∧ a.preset ≠ 0)
    refine ⟨fun ha hheld => ?_, fun hheld => ?_, fun hstate => ⟨fun hl => ?_, fun l hl => ⟨fun ho => ?_, fun ho hbond => ?_,
      fun ho hbond hhalt => ?_, fun ho hbond hhalt d hd => ?_⟩⟩⟩
    · rw [hstart (bStart_state (s := underKey h s) hrange ha), stateRefusal, if_neg (by exact hheld)]
    · rw [hstart (bStart_state (s := underKey h s) hrange (by exact hheld ▸ nofun)), stateRefusal, if_pos (by exact hheld)]
      rfl
    · exact hstart (bStart_noLine (s := underKey h s) hrange hstate hl)
    · exact hstart (bStart_lineState (s := underKey h s) hrange hstate hl ho)
    · exact hstart (bStart_noBond (s := underKey h s) hrange hstate hl ho hbond)
    · exact hstart (bStart_halted (s := underKey h s) hrange hstate hl ho hbond hhalt)
    · refine ⟨_, hstart (bStart_taken (s := underKey h s) hrange hstate hl ho hbond hhalt hd), ?_⟩
      exact changeBay_stateAndLines (drive_started hbond hhalt) (by rw [hstate]; nofun) rfl h.supv
  · refine ⟨_, hstop (bStop_taken (s := underKey h s) hstate hctx), ?_⟩
    exact enterFinishing_told "STOP" hctx (by rcases hstate with e | e <;> rw [e] <;> nofun) h.supv
  · refine ⟨_, hresume (bResume_taken (s := underKey h s) hstate hhalt hbond hctx), ?_⟩
    exact changeBay_state (drive_resumed hbond hhalt hctx) (by rw [hstate]; nofun) rfl h.supv

end Sys2Proof.Proofs.BayLoading

/-! PROOFS. Edges on HALT and BOND, and the pause limit (R120, R121, R134). -/

namespace Sys2Proof.Proofs.BayChanges

open Sys2Proof Sys2Proof.Machine Sys2Proof.Laws.Basic Sys2Proof.Laws.Tables Sys2Proof.Proofs.WriteCompletes
open Sys2Proof.Proofs.Steps Sys2Proof.Proofs.Telling

/-- With the supply, a row of the outside world runs its act. -/
theorem exec_event {c : Instr} {f : State → State} (he : effect c = none) (hf : poweredAct c = some f) {s : State}
    (h : s.supply = true) : exec c s = .next (pump (f s)) := by
  rw [exec_eq_after, after_event he hf, if_pos h]

/-- Without it, what the row does to the level of its input. -/
theorem exec_unpowered {c : Instr} {f : State → State} (he : effect c = none) (hf : poweredAct c = some f) {s : State}
    (h : s.supply = false) : exec c s = .next (unpoweredAct c s) := by
  rw [exec_eq_after, after_event he hf, if_neg (by rw [h]; nofun)]

/-! ## One bay alone -/

theorem bayAlone_refl (b : Bay) (s : State) : BayAlone b s s :=
  ⟨⟨fun _ _ => rfl, rfl, rfl, linkKept_refl s⟩, rfl, rfl, rfl, rfl⟩

theorem bayAlone_trans {b : Bay} {s t u : State} (h : BayAlone b s t) (k : BayAlone b t u) : BayAlone b s u := by
  obtain ⟨⟨hbays, hck, hst, hlink⟩, hdt, hcp, hts, hdl⟩ := h
  obtain ⟨⟨kbays, kck, kst, klink⟩, kdt, kcp, kts, kdl⟩ := k
  exact ⟨⟨fun b' hb => (kbays b' hb).trans (hbays b' hb), kck.trans hck, kst.trans hst, linkKept_trans hlink klink⟩,
    kdt.trans hdt, kcp.trans hcp, kts.trans hts, kdl.trans hdl⟩

theorem bayAlone_modBay (b : Bay) (f : BayUnit → BayUnit) (s : State) : BayAlone b s (s.modBay b f) :=
  ⟨⟨fun _ hb => State.bay_modBay_ne _ _ _ _ (Ne.symm hb), rfl, rfl, rfl, rfl, rfl, rfl⟩, rfl, rfl, rfl, rfl⟩

/-! ## A bay freed (R134) -/

/-- A bay that holds nothing any more. -/
abbrev freed (u : BayUnit) : BayUnit :=
  { u with
    state := .IDLE
    holds := Holds.none
    doc := none
    driver := none
    plan := none
    verdict := none
    lines := []
    ctx := none
    release := false }

theorem drive_empty (u : BayUnit) : (u.empty .IDLE).drive = freed u := Apply.drive_of_not_loading (by simp [BayUnit.empty])

theorem freeBay_told {b : Bay} {s : State} (reason : String) (hstate : (s.bay b).state ≠ .IDLE) (v : Bool) :
    let t := freeBay b reason { s with supv := v }
    t.bay b = freed (s.bay b) ∧
      (let ns := putNotice ⟨.B b, .LINES, linesFields (t.bay b)⟩
        (putNotice ⟨.B b, .STATE, stateFields (t.bay b) reason⟩ s.dv.notices)
       t.dv.notices =
        if (s.bay b).holds = Holds.none then ns else putNotice ⟨.B b, .HOLD, holdFields (t.bay b)⟩ ns) ∧
      BayAlone b s t := by
  obtain ⟨hbay, hnotices, halone⟩ := changeBay_first (f := (BayUnit.empty · .IDLE)) (reason := reason) (lines := true)
    (drive_empty (s.bay b)) v
  refine ⟨hbay, ?_, halone⟩
  unfold freeBay
  dsimp only
  rw [hbay, hnotices]
  simp only [toldStateFirst, if_neg hstate, if_true]

end Sys2Proof.Proofs.BayChanges

namespace Sys2Proof.Proofs.BayEdges

open Sys2Proof Sys2Proof.Machine Sys2Proof.Laws.Basic Sys2Proof.Laws.Tables Sys2Proof.Proofs.BayChanges

section
variable {b : Bay} {s : State}

theorem haltChange_same {on : Bool} (h : (s.bay b).halt = on) : haltChange b on s = s := by
  simp only [haltChange, h, if_true]

theorem bondChange_same {on : Bool} (h : (s.bay b).bond = on) : bondChange b on s = s := by
  simp only [bondChange, h, if_true]

/-- What a pause makes of the bay. -/
theorem drive_paused {u : BayUnit} {c : Ctx} (hctx : u.ctx = some c) (halt : Bool) :
    (u.pauseFor halt).drive = { u with
      state := .PAUSED
      release := false
      ctx := some { c with haltReason := halt, bondReason := !halt, pauseMs := 0 } } := by
  rw [Apply.drive_of_not_loading (by simp [BayUnit.pauseFor]), BayUnit.pauseFor, hctx]
  rfl

/-- What HALT makes of a LOADING bay, but for RELEASE. -/
def haltedBay (u : BayUnit) : BayUnit := ({ u with halt := true } : BayUnit).pauseFor true

/-- What the loss of BOND makes of a LOADING bay, but for RELEASE. -/
def unbondedBay (u : BayUnit) : BayUnit := ({ u with bond := false } : BayUnit).pauseFor false

theorem drive_haltedBay {u : BayUnit} {c : Ctx} (hctx : u.ctx = some c) : (haltedBay u).drive = { u with
      state := .PAUSED
      halt := true
      release := false
      ctx := some { c with haltReason := true, bondReason := false, pauseMs := 0 } } :=
  drive_paused (u := { u with halt := true }) hctx true

theorem drive_unbondedBay {u : BayUnit} {c : Ctx} (hctx : u.ctx = some c) : (unbondedBay u).drive = { u with
      state := .PAUSED
      bond := false
      release := false
      ctx := some { c with haltReason := false, bondReason := true, pauseMs := 0 } } :=
  drive_paused (u := { u with bond := false }) hctx false

theorem haltChange_loading (hstate : (s.bay b).state = .LOADING) (hhalt : (s.bay b).halt = false) :
    haltChange b true s =
      changeBay b "HALT" false .stateFirst haltedBay s := by
  simp only [haltChange, hhalt, hstate, Bool.false_eq_true, if_false, if_true]
  rfl

theorem bondChange_loading (hstate : (s.bay b).state = .LOADING) (hbond : (s.bay b).bond = true) :
    bondChange b false s =
      changeBay b "BOND" false .stateFirst unbondedBay s := by
  simp only [bondChange, hbond, hstate, Bool.false_eq_true, Bool.true_eq_false, if_false]
  rfl

/-- The unit's bay is at hand when a change is made in it. -/
theorem modBay_congr {f g : BayUnit → BayUnit} (h : f (s.bay b) = g (s.bay b)) : s.modBay b f = s.modBay b g := by
  unfold State.modBay
  rw [h]

theorem haltChange_paused {c : Ctx} (hstate : (s.bay b).state = .PAUSED) (hctx : (s.bay b).ctx = some c) {on : Bool}
    (h : (s.bay b).halt ≠ on) :
    haltChange b on s = s.modBay b fun u => { u with halt := on, ctx := some { c with haltReason := on } } := by
  simp only [haltChange, if_neg h, hstate]
  exact modBay_congr (by rw [hctx]; rfl)

theorem bondChange_paused {c : Ctx} (hstate : (s.bay b).state = .PAUSED) (hctx : (s.bay b).ctx = some c) {on : Bool}
    (h : (s.bay b).bond ≠ on) :
    bondChange b on s = s.modBay b fun u => { u with bond := on, ctx := some { c with bondReason := !on } } := by
  simp only [bondChange, if_neg h, hstate]
  exact modBay_congr (by rw [hctx]; rfl)

/-- A level written again leaves the bay as it is. -/
theorem modBay_self {f : BayUnit → BayUnit} (h : f (s.bay b) = s.bay b) : s.modBay b f = s := by
  unfold State.modBay
  rw [h]
  exact congrArg (fun v => { s with bays := v }) (Vector.set_getElem_self b.isLt)

theorem haltChange_level (h1 : (s.bay b).state ≠ .LOADING) (h2 : (s.bay b).state ≠ .PAUSED) (on : Bool) :
    haltChange b on s = s.modBay b fun u => { u with halt := on } := by
  unfold haltChange
  dsimp only
  split
  · rename_i h
    exact (modBay_self (by rw [← h])).symm
  · split
    · contradiction
    · contradiction
    · rfl

theorem bondChange_level (h1 : (s.bay b).state ≠ .LOADING) (h2 : (s.bay b).state ≠ .PAUSED)
    (h3 : (s.bay b).state ≠ .DISPATCHED) (on : Bool) : bondChange b on s = s.modBay b fun u => { u with bond := on } := by
  unfold bondChange
  dsimp only
  split
  · rename_i h
    exact (modBay_self (by rw [← h])).symm
  · split
    · contradiction
    · contradiction
    · contradiction
    · rfl

theorem bondChange_dispatched (hstate : (s.bay b).state = .DISPATCHED) (hbond : (s.bay b).bond = true) :
    bondChange b false s = freeBay b "UNBOND" (s.modBay b fun u => { u with bond := false }) := by
  simp only [bondChange, hbond, hstate, Bool.false_eq_true, Bool.true_eq_false, if_false]

end

/-- Settles O42: the edges by the state of the bay. -/
theorem edgesPauseAndTheLimitEnds : Obligations.EdgesPauseAndTheLimitEnds := by
  intro b s
  dsimp only
  refine ⟨fun on hsupply => ⟨exec_unpowered (c := .haltEdge b on) rfl rfl hsupply,
    exec_unpowered (c := .bondEdge b on) rfl rfl hsupply⟩, fun hsupply => ?_⟩
  have hhalt {on : Bool} {t : State} (h : haltChange b on s = t) : exec (.haltEdge b on) s = .next (pump t) := by
    rw [exec_event (c := .haltEdge b on) rfl rfl hsupply, h]
  have hbond {on : Bool} {t : State} (h : bondChange b on s = t) : exec (.bondEdge b on) s = .next (pump t) := by
    rw [exec_event (c := .bondEdge b on) rfl rfl hsupply, h]
  have hlimit {t : State} (h : pauseEnds b s = t) : exec (.pauseLimit b) s = .next (pump t) := by
    rw [exec_event (c := .pauseLimit b) rfl rfl hsupply, h]
  refine ⟨fun c hstate hctx => ⟨fun hoff => ?_, fun hgood => ?_⟩, fun c hstate hctx => ⟨fun on hne => ?_, fun on hne => ?_, ?_⟩,
    fun hstate => ?_, fun hstate hgood => ?_, fun on h => hhalt (haltChange_same h), fun on h => hbond (bondChange_same h),
    fun h1 h2 => ⟨fun on => hhalt (haltChange_level h1 h2 on), fun h3 on => hbond (bondChange_level h1 h2 h3 on)⟩⟩
  · exact ⟨_, hhalt (haltChange_loading hstate hoff),
      changeBay_state (drive_haltedBay hctx) (by rw [hstate]; nofun) rfl s.supv⟩
  · exact ⟨_, hbond (bondChange_loading hstate hgood),
      changeBay_state (drive_unbondedBay hctx) (by rw [hstate]; nofun) rfl s.supv⟩
  · exact hhalt (haltChange_paused hstate hctx hne)
  · exact hbond (bondChange_paused hstate hctx hne)
  · exact ⟨_, hlimit (if_pos hstate), enterFinishing_told "PAUSE_LIMIT" hctx (by rw [hstate]; nofun) s.supv⟩
  · exact hlimit (if_neg hstate)
  · refine ⟨_, hbond (bondChange_dispatched hstate hgood), ?_⟩
    have hbay := State.bay_modBay_self s b fun u => { u with bond := false }
    obtain ⟨hfree, hnotices, halone⟩ := freeBay_told (b := b) (s := s.modBay b fun u => { u with bond := false }) "UNBOND"
      (by rw [hbay]; show (s.bay b).state ≠ _; rw [hstate]; nofun) s.supv
    rw [hbay] at hfree hnotices
    exact ⟨hfree, hnotices, bayAlone_trans (bayAlone_modBay b _ s) halone⟩

end Sys2Proof.Proofs.BayEdges

/-! PROOFS. The requests that lift a hold: ACKSTRAY, ACKRESTART and TEMP (R110, R125, R126, R128, R165). -/

namespace Sys2Proof.Proofs.BayHolds

open Sys2Proof Sys2Proof.Machine Sys2Proof.Laws.Basic Sys2Proof.Laws.Tables Sys2Proof.Proofs.WriteCompletes
open Sys2Proof.Proofs.Papers Sys2Proof.Proofs.LinkRequests Sys2Proof.Proofs.BayChanges Sys2Proof.Proofs.BayLines

theorem holdNames_nil_iff (hs : Holds) : holdNames hs = [] ↔ hs = Holds.none := by
  obtain ⟨a, b, c, d, e⟩ := hs
  revert a b c d e
  decide

theorem holdText_eq (hs : Holds) :
    commasOrNone (holdNames hs) = if hs = Holds.none then "NONE" else commas (holdNames hs) := by
  simp only [commasOrNone, holdNames_nil_iff]

section
variable {b : Bay} {s : State}

theorem bAckstray_closed (h : (s.bay b).state = .CLOSED) : bAckstray b (some ()) s = (s, er .STATE) := by
  simp only [bAckstray, h, if_true]

theorem bAckstray_noKey (h : (s.bay b).state ≠ .CLOSED) (hkey : s.supv = false) :
    bAckstray b (some ()) s = (s, er .KEY_REQUIRED) := by
  simp only [bAckstray, if_neg h, hkey, Bool.not_false, if_true]

/-- What ACKSTRAY makes of the bay, but for RELEASE. -/
def strayLifted (u : BayUnit) : BayUnit := BayUnit.adjust { u with stray := 0, holds := { u.holds with stray := false } }

theorem bAckstray_taken (h : (s.bay b).state ≠ .CLOSED) (hkey : s.supv = true) : bAckstray b (some ()) s =
    (changeBay b "HOLD" false .stateLast strayLifted s, ok [fld "STRAY" (dec (s.bay b).stray)]) := by
  simp only [bAckstray, if_neg h, hkey, Bool.not_true, Bool.false_eq_true, if_false]
  rfl

theorem bAckrestart_refused (h : (s.bay b).holds.restart = false) : bAckrestart b (some ()) s = (s, er .STATE) := by
  simp only [bAckrestart, h, Bool.not_false, if_true]

/-- What ACKRESTART makes of the bay, but for RELEASE. -/
def restartLifted (u : BayUnit) : BayUnit := BayUnit.adjust { u with holds := { u.holds with restart := false } }

theorem bAckrestart_taken (h : (s.bay b).holds.restart = true) : bAckrestart b (some ()) s =
    (changeBay b "HOLD" false .stateLast restartLifted s,
      ok [fld "HOLD" (if { (s.bay b).holds with restart := false } = Holds.none then "NONE"
        else commas (holdNames { (s.bay b).holds with restart := false }))]) := by
  have hholds : ((changeBay b "HOLD" false .stateLast restartLifted s).bay b).holds =
      { (s.bay b).holds with restart := false } := by
    rw [bay_changeBay_self, restartLifted, adjust_eq]
    rfl
  rw [← holdText_eq, ← hholds]
  simp only [bAckrestart, h, Bool.not_true, Bool.false_eq_true, if_false]
  rfl

end

/-! ## A manual temperature (R126, R165) -/

theorem state_stage6 (tol : Tolerance) (qty : Nat) (f : Figures) (l : LineRec) :
    (stage6 tol qty f l).state = .VERIFIED ∨ (stage6 tol qty f l).state = .OVER ∨ (stage6 tol qty f l).state = .UNDER := by
  show outcomeOf _ _ = _ ∨ outcomeOf _ _ = _ ∨ outcomeOf _ _ = _
  unfold outcomeOf
  split
  · exact .inr (.inl rfl)
  · split
    · exact .inr (.inr rfl)
    · exact .inl rfl

section
variable {b : Bay} {a : TempArgs} {s : State}

theorem temp_inRange_iff (a : TempArgs) :
    (!compInRange a.comp || decide (a.temp < Config.minTemp) || decide (Config.maxTemp < a.temp)) = false ↔
      (1 ≤ a.comp ∧ a.comp ≤ 8) ∧ -400 ≤ a.temp ∧ a.temp ≤ 700 := by
  rw [Bool.or_eq_false_iff, Bool.or_eq_false_iff, Bool.not_eq_false', compInRange_iff, decide_eq_false_iff_not,
    decide_eq_false_iff_not, Int.not_lt, Int.not_lt, and_assoc]
  exact Iff.rfl

theorem bTemp_range (h : ¬((1 ≤ a.comp ∧ a.comp ≤ 8) ∧ -400 ≤ a.temp ∧ a.temp ≤ 700)) :
    bTemp b (some a) s = (s, er .RANGE) := by
  have htest : (!compInRange a.comp || decide (a.temp < Config.minTemp) || decide (Config.maxTemp < a.temp)) = true :=
    (Bool.not_eq_false _).mp fun hno => h ((temp_inRange_iff a).1 hno)
  simp only [bTemp, htest, if_true]

variable (hrange : (1 ≤ a.comp ∧ a.comp ≤ 8) ∧ -400 ≤ a.temp ∧ a.temp ≤ 700)
include hrange

theorem bTemp_state (h : (s.bay b).state ≠ .ASSIGNED ∧ (s.bay b).state ≠ .HELD) :
    bTemp b (some a) s = (s, er .STATE) := by
  simp only [bTemp, (temp_inRange_iff a).2 hrange, Bool.false_eq_true, if_false, if_pos h]

variable (hstate : ¬((s.bay b).state ≠ .ASSIGNED ∧ (s.bay b).state ≠ .HELD))
include hstate

theorem bTemp_noLine (h : (s.bay b).lineOf a.comp = none) : bTemp b (some a) s = (s, er .NOT_FOUND) := by
  simp only [bTemp, (temp_inRange_iff a).2 hrange, Bool.false_eq_true, if_false, if_neg hstate, h]

variable {l : LineRec} (hl : (s.bay b).lineOf a.comp = some l)
include hl

theorem bTemp_lineState (h : l.state.isTemperature = false) : bTemp b (some a) s = (s, er .LINE_STATE) := by
  simp only [bTemp, (temp_inRange_iff a).2 hrange, Bool.false_eq_true, if_false, if_neg hstate, hl, h, Bool.not_false,
    if_true]

variable (htemp : l.state.isTemperature = true)
include htemp

theorem bTemp_noKey (h : s.supv = false) : bTemp b (some a) s = (s, er .KEY_REQUIRED) := by
  simp only [bTemp, (temp_inRange_iff a).2 hrange, Bool.false_eq_true, if_false, if_neg hstate, hl, htemp, Bool.not_true, h,
    Bool.not_false, if_true]

/-- What TEMP makes of the bay, but for RELEASE. -/
def tempGiven (s : State) (d : DocLine) (c : Nat) (t : Int) (u : BayUnit) : BayUnit :=
  (u.modLine c (manualLine s d t)).matchHolds.adjust

theorem bTemp_taken (hkey : s.supv = true) {d : DocLine} (hd : lineRead s (s.bay b).doc b a.comp = some d) :
    bTemp b (some a) s = (changeBay b "HOLD" true .stateLast (tempGiven s d a.comp a.temp) s,
      ok [fld "C" (dec a.comp), fld "LINE" (lineStateText (manualLine s d a.temp l).state)]) := by
  simp only [bTemp, (temp_inRange_iff a).2 hrange, Bool.false_eq_true, if_false, if_neg hstate, hl, htemp, Bool.not_true,
    hkey, hd]
  rfl

end

theorem state_manualLine (s : State) (d : DocLine) (t : Int) (l : LineRec) :
    (manualLine s d t l).state = .VERIFIED ∨ (manualLine s d t l).state = .OVER ∨ (manualLine s d t l).state = .UNDER :=
  state_stage6 _ _ _ { l with marks := { l.marks with v := vcfClamped (s.st.applied.product d.product) t } }

/-- A HELD or ASSIGNED bay stays one of the two when its holds are matched, and drives no RELEASE. -/
theorem adjust_not_loading {u : BayUnit} (h : u.state = .ASSIGNED ∨ u.state = .HELD) : u.adjust.state ≠ .LOADING := by
  rw [adjust_eq]
  rcases h with h | h <;> rw [h] <;> dsimp only <;> split <;> nofun

/-- Settles O37: the tests of each request in their order, and the reasons that are left. -/
theorem holdsAreLifted : Obligations.HoldsAreLifted := by
  intro h b s hready
  dsimp only
  have hstray {t : State} {r : Answer} (hact : bAckstray b (some ()) (underKey h s) = (t, r)) :
      exec (.bAckstray h b (some ())) s = Answers h (unitText (.B b)) r t :=
    exec_act (c := .bAckstray h b (some ())) rfl hready hact
  have hrestart {t : State} {r : Answer} (hact : bAckrestart b (some ()) (underKey h s) = (t, r)) :
      exec (.bAckrestart h b (some ())) s = Answers h (unitText (.B b)) r t :=
    exec_act (c := .bAckrestart h b (some ())) rfl hready hact
  have htemp {a : TempArgs} {t : State} {r : Answer} (hact : bTemp b (some a) (underKey h s) = (t, r)) :
      exec (.bTemp h b (some a)) s = Answers h (unitText (.B b)) r t :=
    exec_act (c := .bTemp h b (some a)) rfl hready hact
  have hboth {x : BayState} (hx : x = .ASSIGNED ∨ x = .HELD) : ¬(x ≠ .ASSIGNED ∧ x ≠ .HELD) :=
    fun ⟨h1, h2⟩ => hx.elim h1 h2
  refine ⟨fun hstate => hstray (bAckstray_closed (s := underKey h s) hstate),
    fun hstate hkey => hstray (bAckstray_noKey (s := underKey h s) hstate hkey), fun hstate hkey => ?_,
    fun hoff => hrestart (bAckrestart_refused (s := underKey h s) hoff), fun hon => ?_,
    fun a => ⟨fun hno => htemp (bTemp_range hno),
      fun hr h1 h2 => htemp (bTemp_state (s := underKey h s) hr ⟨h1, h2⟩),
      fun hr hstate hl => htemp (bTemp_noLine (s := underKey h s) hr (hboth hstate) hl)⟩,
    fun a l d h1 h8 hlo hhi hstate hl => ⟨fun hf hn => ?_, fun htl => ⟨fun hkey => ?_, fun hkey hd => ?_⟩⟩⟩
  · refine ⟨_, hstray (bAckstray_taken (s := underKey h s) hstate hkey), ?_⟩
    obtain ⟨hbay, hnotices, halone⟩ := changeBay_last (reason := "HOLD") (lines := false) (f := strayLifted) (s := s) (b := b)
      rfl h.supv
    refine ⟨?_, by rw [hbay]; exact hnotices, halone⟩
    rw [hbay, strayLifted, adjust_eq]
    rfl
  · refine ⟨_, hrestart (bAckrestart_taken (s := underKey h s) hon), ?_⟩
    obtain ⟨hbay, hnotices, halone⟩ := changeBay_last (reason := "HOLD") (lines := false) (f := restartLifted) (s := s) (b := b)
      rfl h.supv
    refine ⟨?_, by rw [hbay]; exact hnotices, halone⟩
    rw [hbay, restartLifted, adjust_eq]
    rfl
  · have hno : l.state.isTemperature = false := by
      rw [isTemperature_eq, decide_eq_false_iff_not]
      exact fun e => e.elim hf hn
    exact htemp (bTemp_lineState (s := underKey h s) ⟨⟨h1, h8⟩, hlo, hhi⟩ (hboth hstate) hl hno)
  · have hyes : l.state.isTemperature = true := by
      rw [isTemperature_eq, decide_eq_true_iff]
      exact htl
    exact htemp (bTemp_noKey (s := underKey h s) ⟨⟨h1, h8⟩, hlo, hhi⟩ (hboth hstate) hl hyes hkey)
  · have hyes : l.state.isTemperature = true := by
      rw [isTemperature_eq, decide_eq_true_iff]
      exact htl
    refine ⟨_, htemp (bTemp_taken (s := underKey h s) ⟨⟨h1, h8⟩, hlo, hhi⟩ (hboth hstate) hl hyes hkey hd), ?_⟩
    have hw : (tempGiven (underKey h s) d a.comp a.temp (s.bay b)).drive =
        { tempGiven (underKey h s) d a.comp a.temp (s.bay b) with release := false } :=
      Apply.drive_of_not_loading (adjust_not_loading hstate)
    obtain ⟨hbay, hnotices, halone⟩ := changeBay_last (reason := "HOLD") (lines := true) hw h.supv
    refine ⟨?_, rfl, state_manualLine s d a.temp l, by rw [hbay]; exact hnotices, halone⟩
    rw [hbay, tempGiven, modLine_lines, matchHolds_eq, adjust_eq]
    rfl

end Sys2Proof.Proofs.BayHolds

/-! PROOFS. Weight posted at the sampler, and the end of the settle (R118, R123, R140, R148). -/

namespace Sys2Proof.Proofs.Sampler

open Sys2Proof Sys2Proof.Machine Sys2Proof.Laws.Basic

/-- The choice of the next work reaches the sampler alone, and leaves its requests. -/
theorem chooseWork_frame (s : State) : chooseWork s = { s with ts := (chooseWork s).ts } ∧
    (chooseWork s).ts.reqs = s.ts.reqs := by
  unfold chooseWork
  split
  · split
    · exact ⟨rfl, rfl⟩
    · split
      · exact ⟨rfl, rfl⟩
      · split
        · exact ⟨rfl, rfl⟩
        · exact ⟨rfl, rfl⟩
  · exact ⟨rfl, rfl⟩

/-- The choice follows the sampler alone. -/
theorem ts_chooseWork_congr {s t : State} (h : t.ts = s.ts) : (chooseWork t).ts = (chooseWork s).ts := by
  have hconv : t.ts.conv = s.ts.conv := by rw [h]
  unfold chooseWork
  rw [hconv]
  split
  · rw [h]
    split
    · simp only [State.modTs, h]
    · split
      · exact h
      · split
        · simp only [State.modTs, h]
        · exact h
  · exact h

section
variable (b : Bay) (w : Nat) (final : Bool) (t : Ts)

theorem reqs_addReq_self : (t.addReq b w final).reqs[b] =
    some ⟨((t.reqs[b].map (·.weight)).getD 0) + w, (t.reqs[b].map (·.final)).getD false || final⟩ := by
  simp only [Ts.addReq, Fin.getElem_fin, Vector.getElem_set_self]
  rcases t.reqs[(b : Nat)] with _ | r
  · simp
  · rfl

theorem reqs_addReq_ne {c : Bay} (h : c ≠ b) : (t.addReq b w final).reqs[c] = t.reqs[c] := by
  have hval : (b : Nat) ≠ c := fun e => h (Fin.ext e).symm
  simp [Ts.addReq, Vector.getElem_set_ne, hval]

end

/-- A post while the sampler is well enters the bay's request, and a free converter takes up the next work. -/
theorem tsPost_posts {s : State} (h : s.ts.fault = false) (b : Bay) (w : Nat) (final : Bool) :
    tsPost b w final s = { s with ts := (tsPost b w final s).ts } ∧
      (tsPost b w final s).ts.reqs[b] =
        some ⟨((s.ts.reqs[b].map (·.weight)).getD 0) + w, (s.ts.reqs[b].map (·.final)).getD false || final⟩ ∧
      (∀ c : Bay, c ≠ b → (tsPost b w final s).ts.reqs[c] = s.ts.reqs[c]) ∧
      ∀ u : State, u.ts = s.ts →
        (tsPost b w final s).ts = (chooseWork { u with ts := { u.ts with reqs := (tsPost b w final s).ts.reqs } }).ts := by
  have hpost : tsPost b w final s = chooseWork (s.modTs (Ts.addReq b w final)) := by
    simp only [tsPost, h, Bool.false_eq_true, if_false]
  obtain ⟨hframe, hreqs⟩ := chooseWork_frame (s.modTs (Ts.addReq b w final))
  rw [hpost]
  refine ⟨hframe, ?_, fun c hc => ?_, fun u hu => ?_⟩
  · rw [hreqs]
    exact reqs_addReq_self b w final s.ts
  · rw [hreqs]
    exact reqs_addReq_ne b w final s.ts hc
  · rw [hreqs]
    refine ts_chooseWork_congr ?_
    show s.ts.addReq b w final = { u.ts with reqs := (s.ts.addReq b w final).reqs }
    rw [hu]
    rfl

/-- A post at a faulty sampler comes back as a fault. -/
theorem tsPost_faulted {s : State} (h : s.ts.fault = true) (b : Bay) (w : Nat) (final : Bool) :
    tsPost b w final s = takeResult b none w final s := if_pos h

end Sys2Proof.Proofs.Sampler

namespace Sys2Proof.Proofs.BayLines

open Sys2Proof Sys2Proof.Machine Sys2Proof.Laws.Basic Sys2Proof.Laws.Tables Sys2Proof.Proofs.WriteCompletes
open Sys2Proof.Proofs.BayChanges Sys2Proof.Proofs.Sampler

theorem lineOf_modLine {u : BayUnit} {c : Nat} {f : LineRec → LineRec} (hf : ∀ l, (f l).comp = l.comp) :
    (u.modLine c f).lineOf c = (u.lineOf c).map f := by
  unfold BayUnit.lineOf BayUnit.modLine
  dsimp only
  induction u.lines with
  | nil => rfl
  | cons l ls ih =>
    rw [List.map_cons]
    by_cases hc : l.comp = c
    · simp [hc, hf]
    · simpa [hc, hf] using ih

theorem find?_comp {u : BayUnit} {c : Nat} {l : LineRec} (h : u.lineOf c = some l) : l ∈ u.lines ∧ l.comp = c :=
  ⟨List.mem_of_find?_eq_some h, by simpa using List.find?_some h⟩

/-! ## The end of the settle (R123) -/

/-- The bay whose settle has ended, its last weight due. -/
def lastWeight (c : Ctx) (w : Nat) (u : BayUnit) : BayUnit :=
  { u.modLine c.comp (fun l => { l with pend := l.pend + w }) with ctx := some { c with settled := true, final := true } }

section
variable {b : Bay} {c : Ctx} {s : State} (hstate : (s.bay b).state = .FINISHING) (hctx : (s.bay b).ctx = some c)
include hstate hctx

theorem settleEnds_done (h : c.settled = true) : settleEnds b s = s := by
  simp only [settleEnds, hstate, hctx, h, if_true]

theorem settleEnds_posts (h : c.settled = false) {l : LineRec} (hl : (s.bay b).lineOf c.comp = some l) :
    settleEnds b s = tsPost b (l.vo - 10 * s.st.applied.bays[b].step * c.crossings) true
      (s.modBay b (lastWeight c (l.vo - 10 * s.st.applied.bays[b].step * c.crossings))) := by
  have hvo : (s.bay b).activeVo = l.vo := by rw [activeVo_eq hctx, hl]; rfl
  simp only [settleEnds, hstate, hctx, h, Bool.false_eq_true, if_false, hvo]
  rfl

end

/-- A line to which the sampler gives a fault instead of its last temperature. -/
abbrev faultedLine (factor : Nat) (l : LineRec) : LineRec :=
  { l with
    state := .PROBE_FAULT
    vo := roundHalfUp (l.pulses * factor) 1000
    faulted := min 255 (l.faulted + 1)
    figs := none
    marks := ⟨false, false, false, decide (l.pulses = 16777215)⟩
    manual := false }

theorem reconcile_faulted (factor : Nat) (p : Product) (tol : Tolerance) (qty w : Nat) (l : LineRec) :
    reconcile true factor p tol qty (sampled none w true { l with pend := l.pend + w }) = faultedLine factor l := by
  have hfaulted : 0 < (stage1 factor (sampled none w true { l with pend := l.pend + w })).faulted := by
    show 0 < min 255 (l.faulted + 1)
    omega
  unfold reconcile
  dsimp only
  rw [show meanTemp true (stage1 factor (sampled none w true { l with pend := l.pend + w })) = .stop .PROBE_FAULT from
    if_pos hfaulted]
  simp only [stopLine, stage1, sampled, Option.map_none, Option.getD_none, Option.isSome_none, Bool.false_eq_true, if_false,
    Bool.and_false, Int.add_zero, Nat.add_zero, Nat.add_sub_cancel]
  rfl

theorem settledLines_faulted (g : Settings) (b : Bay) (d : DocLine) (w : Nat) {u : BayUnit} {c : Ctx} {l : LineRec}
    (hone : ∀ m ∈ u.lines, m.comp = c.comp → m = l) : settledLines g b c.comp d none w (lastWeight c w u).lines =
      u.lines.map fun m => if m.comp = c.comp then faultedLine g.bays[b].factor l else m := by
  have hlines : (lastWeight c w u).lines = u.lines.map fun m => if m.comp = c.comp then { m with pend := m.pend + w } else m := by
    rw [lastWeight, modLine_lines]
  unfold settledLines
  rw [hlines, List.map_map]
  refine List.map_congr_left fun m hm => ?_
  by_cases hc : m.comp = c.comp
  · obtain rfl := hone m hm hc
    simp only [Function.comp_apply, if_pos hc]
    exact reconcile_faulted ..
  · simp only [Function.comp_apply, if_neg hc]

/-- A line without a temperature holds the bay. -/
theorem settledBay_faulted {u : BayUnit} {c : Ctx} {w factor : Nat} {l : LineRec} (hl : u.lineOf c.comp = some l) :
    settledBay (lastWeight c w u) (u.lines.map fun m => if m.comp = c.comp then faultedLine factor l else m) = { u with
      lines := u.lines.map fun m => if m.comp = c.comp then faultedLine factor l else m
      ctx := none
      state := .HELD
      release := false
      holds := { u.holds with
        temperature := true
        quantity := (u.lines.map fun m => if m.comp = c.comp then faultedLine factor l else m).any fun m =>
          decide (m.state = .OVER ∨ m.state = .UNDER) } } := by
  obtain ⟨hmem, hc⟩ := find?_comp hl
  have hany : ((u.lines.map fun m => if m.comp = c.comp then faultedLine factor l else m).any fun m =>
      decide (m.state = .PROBE_FAULT ∨ m.state = .NO_TEMP)) = true :=
    List.any_eq_true.2 ⟨faultedLine factor l, List.mem_map.2 ⟨l, hmem, if_pos hc⟩, by simp⟩
  have hholds : matchedHolds (lastWeight c w u).holds
      (u.lines.map fun m => if m.comp = c.comp then faultedLine factor l else m) = { u.holds with
        temperature := true
        quantity := (u.lines.map fun m => if m.comp = c.comp then faultedLine factor l else m).any fun m =>
          decide (m.state = .OVER ∨ m.state = .UNDER) } := by
    unfold matchedHolds
    rw [hany]
    rfl
  have hheld : matchedHolds (lastWeight c w u).holds
      (u.lines.map fun m => if m.comp = c.comp then faultedLine factor l else m) ≠ Holds.none := by
    rw [hholds]
    exact fun h => absurd (congrArg Holds.temperature h) Bool.true_eq_false.mp
  unfold settledBay
  rw [if_neg hheld, hholds]
  rfl

/-- Settles O43: the settle that ends posts its weight; a faulty sampler settles the line at once. -/
theorem settlePostsTheFinalWeight : Obligations.SettlePostsTheFinalWeight := by
  intro b c l s hsupply hstate hctx hl
  dsimp only
  have hexec {t : State} (h : settleEnds b s = t) : exec (.settleEnd b) s = .next (pump t) := by
    rw [exec_event (c := .settleEnd b) rfl rfl hsupply, h]
  have hposts (h : c.settled = false) := hexec (settleEnds_posts hstate hctx h hl)
  generalize l.vo - 10 * s.st.applied.bays[b].step * c.crossings = w at hposts ⊢
  have hbay : (s.modBay b (lastWeight c w)).bay b = lastWeight c w (s.bay b) := State.bay_modBay_self ..
  refine ⟨fun h => hexec (settleEnds_done hstate hctx h), fun h hok => ⟨_, hposts h, ?_⟩, fun d h hfault hone hd => ?_⟩
  · obtain ⟨hframe, hreq, hreqs, hts⟩ := tsPost_posts (s := s.modBay b (lastWeight c w)) hok b w true
    have hts := hts s rfl
    generalize tsPost b w true (s.modBay b (lastWeight c w)) = t at hframe hreq hreqs hts ⊢
    refine ⟨?_, ?_, hreqs, hts, ⟨fun b' hb => ?_, ?_, ?_, ?_, ?_, ?_, ?_⟩, ?_, ?_, ?_, ?_⟩
    · rw [hframe]
      exact hbay.trans (by rw [lastWeight, modLine_lines])
    · rw [hreq, Bool.or_true]
      rfl
    · rw [hframe]
      exact State.bay_modBay_ne _ _ _ _ hb.symm
    all_goals
      rw [hframe]
      rfl
  · have htake := tsPost_faulted (s := s.modBay b (lastWeight c w)) hfault b w true
    have hread : lineRead (s.modBay b (lastWeight c w)) ((s.modBay b (lastWeight c w)).bay b).doc b c.comp = some d := by
      rw [hbay]
      exact hd
    obtain ⟨f, hresult, hf⟩ := takeResult_final (s := s.modBay b (lastWeight c w)) (b := b)
      (c := { c with settled := true, final := true }) (by rw [hbay]; rfl) none w hread
    have hlines := settledLines_faulted s.st.applied b d w hone
    have hsettled : (f ((s.modBay b (lastWeight c w)).bay b)).drive = settledBay (lastWeight c w (s.bay b))
        ((s.bay b).lines.map fun m => if m.comp = c.comp then faultedLine s.st.applied.bays[b].factor l else m) := by
      rw [hf, hbay]
      exact congrArg (settledBay _) hlines
    rw [settledBay_faulted hl] at hsettled
    obtain ⟨tbay, tnotices, talone⟩ := changeBay_first (b := b) (s := s.modBay b (lastWeight c w)) (f := f)
      (reason := "RECONCILED") (lines := true) hsettled s.supv
    rw [htake, hresult] at hposts
    refine ⟨_, hposts h, tbay, ?_, bayAlone_trans (bayAlone_modBay b _ s) talone⟩
    rw [hbay] at tnotices
    exact tnotices.trans (congrArg (toldStateFirst b "RECONCILED" true (s.bay b) · s.dv.notices) tbay.symm)

end Sys2Proof.Proofs.BayLines

/-! PROOFS. Pulses counted into a line, and stray pulses (R117, R118, R124). -/

namespace Sys2Proof.Proofs.Pulses

open Sys2Proof Sys2Proof.Machine Sys2Proof.Laws.Basic Sys2Proof.Laws.Tables Sys2Proof.Proofs.WriteCompletes
open Sys2Proof.Proofs.BayLines Sys2Proof.Proofs.BayChanges Sys2Proof.Proofs.BayEdges Sys2Proof.Proofs.Sampler
open Sys2Proof.Proofs.Telling

/-! ## Stray pulses (R124) -/

section
variable {b : Bay} {s : State}

theorem pulse_closed (h : (s.bay b).state = .CLOSED) : pulse b s = s := by
  simp only [pulse, h]

theorem pulse_stray (h : (s.bay b).state = .IDLE ∨ (s.bay b).state = .ASSIGNED ∨ (s.bay b).state = .HELD ∨
    (s.bay b).state = .DISPATCHING ∨ (s.bay b).state = .DISPATCHED ∨
    ((s.bay b).state = .FINISHING ∧ ∃ c, (s.bay b).ctx = some c ∧ c.settled = true)) : pulse b s = strayPulse b s := by
  rcases h with h | h | h | h | h | ⟨h, c, hctx, hsettled⟩
  · simp only [pulse, h]
  · simp only [pulse, h]
  · simp only [pulse, h]
  · simp only [pulse, h]
  · simp only [pulse, h]
  · simp only [pulse, h, hctx, hsettled, if_true]

theorem pulse_line {c : Ctx} (h : (s.bay b).state = .LOADING ∨ (s.bay b).state = .PAUSED ∨
    ((s.bay b).state = .FINISHING ∧ c.settled = false)) (hctx : (s.bay b).ctx = some c) : pulse b s = linePulse b c s := by
  rcases h with h | h | ⟨h, hsettled⟩
  · simp only [pulse, h, hctx]
  · simp only [pulse, h, hctx]
  · simp only [pulse, h, hctx, hsettled, Bool.false_eq_true, if_false]

theorem strayPulse_counts (h : (s.bay b).stray ≠ 19) :
    strayPulse b s = s.modBay b fun u => { u with stray := min 65535 (u.stray + 1) } := by
  have hno : ¬(min 65535 ((s.bay b).stray + 1) = 20 ∧ (s.bay b).stray < 20) := by omega
  refine (if_neg hno).trans (modBay_congr ?_)
  rfl

/-- The bay has a load, which the stray pulses then hold. -/
abbrev Holdable (u : BayUnit) : Prop := u.state = .ASSIGNED ∨ u.state = .HELD ∨ u.state = .FINISHING

theorem bayAlone_raise (b : Bay) (u : UnitName) (k : NKind) (fs : List Fld) (s : State) :
    BayAlone b s (raise u k fs s) :=
  ⟨⟨fun _ _ => rfl, rfl, rfl, linkKept_raise ..⟩, rfl, rfl, rfl, rfl⟩

/-- A bay after its twentieth stray pulse. -/
abbrev strayed (u : BayUnit) : BayUnit :=
  { u with
    stray := 20
    holds := if Holdable u then { u.holds with stray := true } else u.holds
    state := if u.state = .ASSIGNED then .HELD else u.state
    release := false }

/-- What the twentieth stray pulse makes of the bay, but for RELEASE. -/
def strayHeld (hold : Prop) [Decidable hold] (u : BayUnit) : BayUnit :=
  if hold then BayUnit.adjust { u with holds := { u.holds with stray := true } } else u

theorem drive_strayHeld {u : BayUnit} (h : u.state ≠ .LOADING) :
    (strayHeld (Holdable u) { u with stray := 20 }).drive = strayed u := by
  have hheld : ({ u.holds with stray := true } : Holds) ≠ Holds.none :=
    fun e => absurd (congrArg Holds.stray e) Bool.true_eq_false.mp
  by_cases hhold : Holdable u
  · rw [strayHeld, if_pos hhold, adjust_eq]
    dsimp only
    rw [if_neg hheld, strayed, if_pos hhold]
    rcases hhold with hstate | hstate | hstate
    all_goals
      rw [hstate]
      exact Apply.drive_of_not_loading nofun
  · rw [strayHeld, if_neg hhold, strayed, if_neg hhold, if_neg fun e => hhold (.inl e)]
    exact Apply.drive_of_not_loading h

theorem strayPulse_limit (h : (s.bay b).stray = 19) : strayPulse b s =
    let t := changeBay b "HOLD" false .stateLast (strayHeld (Holdable (s.bay b))) (s.modBay b fun u => { u with stray := 20 })
    raise (.B b) .STRAY (strayFields (t.bay b)) t := by
  have hyes : min 65535 ((s.bay b).stray + 1) = 20 ∧ (s.bay b).stray < 20 := by omega
  refine (if_pos hyes).trans ?_
  rw [show satAdd Config.maxCount16 (s.bay b).stray 1 = 20 from hyes.1]
  rfl

theorem holds_stray_iff (hs : Holds) : hs = { hs with stray := true } ↔ hs.stray = true :=
  ⟨fun e => (congrArg Holds.stray e).trans rfl, fun e => by rw [← e]⟩

/-- What the hold of a stray pulse tells. -/
theorem toldStateLast_strayed {u : BayUnit} {ns : List Notice} :
    toldStateLast b "HOLD" false u (strayed u) ns =
      (let n1 := if Holdable u ∧ u.holds.stray = false then putNotice ⟨.B b, .HOLD, holdFields (strayed u)⟩ ns else ns
       if u.state = .ASSIGNED then putNotice ⟨.B b, .STATE, stateFields (strayed u) "HOLD"⟩ n1 else n1) := by
  have hholds : u.holds = (strayed u).holds ↔ ¬(Holdable u ∧ u.holds.stray = false) := by
    by_cases hhold : Holdable u
    · rw [show (strayed u).holds = { u.holds with stray := true } from if_pos hhold, holds_stray_iff]
      simp [hhold]
    · rw [show (strayed u).holds = u.holds from if_neg hhold]
      exact iff_of_true rfl fun hh => hhold hh.1
  have hstate : u.state = (strayed u).state ↔ ¬u.state = .ASSIGNED := by
    by_cases ha : u.state = .ASSIGNED
    · simp [strayed, ha]
    · simp [strayed, ha]
  unfold toldStateLast
  simp only [hholds, hstate, ite_not, Bool.false_eq_true, if_false]

/-- The twentieth stray pulse. -/
theorem strayPulse_told (h : (s.bay b).stray = 19) (hstate : (s.bay b).state ≠ .LOADING) :
    (strayPulse b s).bay b = strayed (s.bay b) ∧
      (let n1 := if Holdable (s.bay b) ∧ (s.bay b).holds.stray = false then
          putNotice ⟨.B b, .HOLD, holdFields (strayed (s.bay b))⟩ s.dv.notices else s.dv.notices
       let n2 := if (s.bay b).state = .ASSIGNED then
          putNotice ⟨.B b, .STATE, stateFields (strayed (s.bay b)) "HOLD"⟩ n1 else n1
       (strayPulse b s).dv.notices = putNotice ⟨.B b, .STRAY, strayFields (strayed (s.bay b))⟩ n2) ∧
      BayAlone b s (strayPulse b s) := by
  have hbay : (s.modBay b fun u => { u with stray := 20 }).bay b = { s.bay b with stray := 20 } := State.bay_modBay_self ..
  obtain ⟨tbay, tnotices, talone⟩ := changeBay_last (b := b) (s := s.modBay b fun u => { u with stray := 20 })
    (f := strayHeld (Holdable (s.bay b))) (reason := "HOLD") (lines := false) (w := strayed (s.bay b))
    (by rw [hbay]; exact drive_strayHeld hstate) s.supv
  have halone := bayAlone_trans (bayAlone_modBay b _ s) talone
  rw [strayPulse_limit h]
  dsimp only
  refine ⟨tbay, ?_, bayAlone_trans halone (bayAlone_raise b ..)⟩
  rw [notices_raise, ← toldStateLast_strayed (b := b)]
  rw [hbay] at tnotices
  exact congrArg₂ (fun v ns => putNotice ⟨.B b, .STRAY, strayFields v⟩ ns) tbay tnotices

end

/-! ## Pulses of a line (R117, R118) -/

/-- A line after a pulse that brings its weight to the sampler where it crosses a step. -/
abbrev countedLine (factor w : Nat) (cross fault : Bool) (m : LineRec) : LineRec :=
  { m with
    pulses := min 16777215 (m.pulses + 1)
    vo := roundHalfUp (min 16777215 (m.pulses + 1) * factor) 1000
    pend := m.pend + (if cross && !fault then w else 0)
    faulted := if cross && fault then min 255 (m.faulted + 1) else m.faulted }

/-- A bay after a pulse of its active line, before the test of the preset. -/
abbrev countedBay (factor w : Nat) (cross fault : Bool) (c : Ctx) (u : BayUnit) : BayUnit :=
  { u with
    lines := u.lines.map fun m => if m.comp = c.comp then countedLine factor w cross fault m else m
    ctx := some { c with crossings := c.crossings + if cross then 1 else 0 } }

theorem modBay_modBay (b : Bay) (f g : BayUnit → BayUnit) (s : State) :
    (s.modBay b f).modBay b g = s.modBay b fun u => g (f u) := by
  have hbay := State.bay_modBay_self s b f
  unfold State.modBay at hbay ⊢
  rw [hbay]
  exact congrArg (fun v => { s with bays := v }) (Vector.set_set ..)

/-- A line is changed twice as by the two changes together. -/
theorem map_comp_twice {c : Nat} {f g k : LineRec → LineRec} (hf : ∀ m, (f m).comp = m.comp) (hk : ∀ m, g (f m) = k m)
    (ls : List LineRec) : (ls.map fun m => if m.comp = c then f m else m).map (fun m => if m.comp = c then g m else m) =
      ls.map fun m => if m.comp = c then k m else m := by
  rw [List.map_map]
  refine List.map_congr_left fun m _ => ?_
  by_cases hc : m.comp = c
  · simp only [Function.comp_apply, if_pos hc, (hf m).trans hc, if_true, hk]
  · simp only [Function.comp_apply, if_neg hc]

/-- What a crossing makes of the bay before its weight is posted. -/
def weightDue (c : Ctx) (w : Nat) (u : BayUnit) : BayUnit :=
  { u.modLine c.comp (fun l => { l with pend := l.pend + w }) with ctx := some { c with crossings := c.crossings + 1 } }

theorem counted_quiet {u : BayUnit} {c : Ctx} (hctx : u.ctx = some c) (factor w : Nat) (fault : Bool) :
    u.modLine c.comp (countPulse factor) = countedBay factor w false fault c u := by
  rw [modLine_lines]
  show ({ u with lines := _ } : BayUnit) = { u with lines := _, ctx := some c }
  rw [← hctx]
  rfl

theorem counted_posts (u : BayUnit) (c : Ctx) (factor w : Nat) :
    weightDue c w (u.modLine c.comp (countPulse factor)) = countedBay factor w true false c u := by
  rw [weightDue, modLine_lines, modLine_lines]
  exact congrArg (fun ls => ({ u with lines := ls, ctx := some { c with crossings := c.crossings + 1 } } : BayUnit))
    (map_comp_twice (f := countPulse factor) (g := fun m => { m with pend := m.pend + w })
      (k := countedLine factor w true false) (fun _ => rfl) (fun _ => rfl) u.lines)

theorem counted_faulted (u : BayUnit) (c : Ctx) (factor w : Nat) :
    (let v := weightDue c w (u.modLine c.comp (countPulse factor))
     { v with lines := v.lines.map fun m => if m.comp = c.comp then sampled none w false m else m }) =
      countedBay factor w true true c u := by
  rw [counted_posts]
  exact congrArg (fun ls => ({ u with lines := ls, ctx := some { c with crossings := c.crossings + 1 } } : BayUnit))
    (map_comp_twice (f := countedLine factor w true false) (g := sampled none w false)
      (k := countedLine factor w true true) (fun _ => rfl) (fun m => by simp [countedLine, sampled]) u.lines)

section
variable {b : Bay} {c : Ctx} {l : LineRec} {s : State} (hctx : (s.bay b).ctx = some c)
  (hl : (s.bay b).lineOf c.comp = some l)
include hctx hl

/-- The volume of the active line after the count. -/
theorem activeVo_counted : ((s.modBay b fun u => u.modLine c.comp (countPulse (s.entry b).factor)).bay b).activeVo =
    roundHalfUp (min 16777215 (l.pulses + 1) * s.st.applied.bays[b].factor) 1000 := by
  rw [State.bay_modBay_self,
    activeVo_eq (u := (s.bay b).modLine c.comp (countPulse (s.entry b).factor)) hctx,
    lineOf_modLine (f := countPulse (s.entry b).factor) fun _ => rfl, hl]
  rfl

/-- The count and the crossing test: the bay, and what stands at the sampler. -/
theorem crossingTest_counted {cross : Bool}
    (hcross : cross = decide (10 * s.st.applied.bays[b].step * (c.crossings + 1) ≤
      roundHalfUp (min 16777215 (l.pulses + 1) * s.st.applied.bays[b].factor) 1000)) :
    let s1 := s.modBay b fun u => u.modLine c.comp (countPulse (s.entry b).factor)
    let w := 10 * s.st.applied.bays[b].step
    let t := crossingTest b c s1
    t = { s.modBay b (countedBay s.st.applied.bays[b].factor w cross s.ts.fault c) with ts := t.ts } ∧
      ((cross && !s.ts.fault) = false → t.ts = s.ts) ∧
      ((cross && !s.ts.fault) = true →
        t.ts.reqs[b] = some ⟨((s.ts.reqs[b].map (·.weight)).getD 0) + w, (s.ts.reqs[b].map (·.final)).getD false⟩ ∧
        (∀ b' : Bay, b' ≠ b → t.ts.reqs[b'] = s.ts.reqs[b']) ∧
        t.ts = (chooseWork { s with ts := { s.ts with reqs := t.ts.reqs } }).ts) := by
  dsimp only
  rw [← activeVo_counted hctx hl] at hcross
  set s1 := s.modBay b fun u => u.modLine c.comp (countPulse (s.entry b).factor) with hs1
  set w := 10 * s.st.applied.bays[b].step with hw
  cases cross with
  | false =>
    have hno : ¬w * (c.crossings + 1) ≤ (s1.bay b).activeVo := of_decide_eq_false hcross.symm
    rw [show crossingTest b c s1 = s1 from if_neg hno]
    exact ⟨modBay_congr (counted_quiet hctx _ w _), fun _ => rfl, nofun⟩
  | true =>
    have hyes : w * (c.crossings + 1) ≤ (s1.bay b).activeVo := of_decide_eq_true hcross.symm
    rw [show crossingTest b c s1 = tsPost b w false (s1.modBay b (weightDue c w)) from if_pos hyes]
    have hdue : s1.modBay b (weightDue c w) =
        s.modBay b fun u => weightDue c w (u.modLine c.comp (countPulse (s.entry b).factor)) := modBay_modBay ..
    by_cases hfault : s.ts.fault = true
    · have hback : tsPost b w false (s1.modBay b (weightDue c w)) =
          s.modBay b (countedBay s.st.applied.bays[b].factor w true s.ts.fault c) := by
        rw [tsPost_faulted (by exact hfault), takeResult_open (c := { c with crossings := c.crossings + 1 })
          (by rw [State.bay_modBay_self]; rfl), hdue, modBay_modBay]
        refine modBay_congr ?_
        rw [hfault]
        exact counted_faulted _ c _ w
      rw [hback]
      exact ⟨rfl, fun _ => rfl, fun h => absurd h (by simp [hfault])⟩
    · have hok : s.ts.fault = false := Bool.not_eq_true _ ▸ hfault
      obtain ⟨hframe, hreq, hreqs, hts⟩ := tsPost_posts (s := s1.modBay b (weightDue c w)) hok b w false
      refine ⟨?_, fun h => absurd h (by simp [hok]), fun _ => ⟨hreq.trans ?_, hreqs, hts s rfl⟩⟩
      · refine hframe.trans (congrArg (fun v : State =>
          { v with ts := (tsPost b w false (s1.modBay b (weightDue c w))).ts }) (hdue.trans (modBay_congr ?_)))
        rw [hok]
        exact counted_posts _ c _ w
      · rw [Bool.or_false]
        rfl

/-- A pulse of the active line ends the compartment at its preset, and otherwise leaves it as the crossing test does. -/
theorem linePulse_eq
    (hstate : (s.bay b).state = .LOADING ∨ (s.bay b).state = .PAUSED ∨ (s.bay b).state = .FINISHING) :
    let s1 := s.modBay b fun u => u.modLine c.comp (countPulse (s.entry b).factor)
    linePulse b c s = if decide ((s.bay b).state ≠ .FINISHING ∧ 10 * c.preset ≤
        roundHalfUp (min 16777215 (l.pulses + 1) * s.st.applied.bays[b].factor) 1000) = true
      then enterFinishing b "PRESET" (crossingTest b c s1) else crossingTest b c s1 := by
  have hends : ((s.bay b).state = .LOADING ∨ (s.bay b).state = .PAUSED) ↔ (s.bay b).state ≠ .FINISHING := by
    rcases hstate with h | h | h <;> rw [h] <;> decide
  simp only [linePulse, activeVo_counted hctx hl, hends, decide_eq_true_eq]

end

theorem otherBaysKept_trans {b : Bay} {s t u : State} (h : OtherBaysKept b s t) (k : OtherBaysKept b t u) :
    OtherBaysKept b s u := by
  obtain ⟨hbays, hck, hst, hlink⟩ := h
  obtain ⟨kbays, kck, kst, klink⟩ := k
  exact ⟨fun b' hb => (kbays b' hb).trans (hbays b' hb), kck.trans hck, kst.trans hst, linkKept_trans hlink klink⟩

/-- The lines of a compartment that ends with this pulse. -/
theorem finishing_counted (u : BayUnit) (c : Ctx) (factor w : Nat) (cross fault : Bool) :
    finishing (countedBay factor w cross fault c u) { c with crossings := c.crossings + if cross then 1 else 0 } = { u with
      lines := u.lines.map fun m => if m.comp = c.comp then
        { countedLine factor w cross fault m with state := .FINISHING } else m
      ctx := some { c with
        crossings := c.crossings + if cross then 1 else 0
        settleMs := 0
        settled := false
        final := false }
      state := .FINISHING
      release := false } :=
  congrArg (fun ls => ({ u with
    lines := ls
    ctx := some { c with
      crossings := c.crossings + if cross then 1 else 0
      settleMs := 0
      settled := false
      final := false }
    state := .FINISHING
    release := false } : BayUnit))
    (map_comp_twice (f := countedLine factor w cross fault) (g := fun m => { m with state := .FINISHING })
      (k := fun m => { countedLine factor w cross fault m with state := .FINISHING }) (fun _ => rfl) (fun _ => rfl) u.lines)

/-- Settles O41: the pulse by the state of the bay. -/
theorem pulsesAreCounted : Obligations.PulsesAreCounted := by
  intro b s hsupply
  dsimp only
  have hexec : exec (.pulseEdge b) s = .next (pump (pulse b s)) := exec_event (c := .pulseEdge b) rfl rfl hsupply
  refine ⟨fun hstate => ?_, fun c l hstate hctx hl => ?_, fun hstate => ?_⟩
  · rw [hexec, pulse_closed hstate]
  · obtain ⟨hframe, hquiet, hposted⟩ := crossingTest_counted hctx hl rfl
    have hstates : (s.bay b).state = .LOADING ∨ (s.bay b).state = .PAUSED ∨ (s.bay b).state = .FINISHING :=
      hstate.imp_right (Or.imp_right And.left)
    have hline := linePulse_eq hctx hl hstates
    rw [pulse_line hstate hctx, hline] at hexec
    refine ⟨_, hexec, ?_⟩
    have hends (h : decide ((s.bay b).state ≠ .FINISHING ∧ 10 * c.preset ≤
        roundHalfUp (min 16777215 (l.pulses + 1) * s.st.applied.bays[b].factor) 1000) = true) :
        (s.bay b).state ≠ .FINISHING := (of_decide_eq_true h).1
    generalize decide ((s.bay b).state ≠ .FINISHING ∧ 10 * c.preset ≤
      roundHalfUp (min 16777215 (l.pulses + 1) * s.st.applied.bays[b].factor) 1000) = ends at hends ⊢
    generalize decide (10 * s.st.applied.bays[b].step * (c.crossings + 1) ≤
      roundHalfUp (min 16777215 (l.pulses + 1) * s.st.applied.bays[b].factor) 1000) = cross at hframe hquiet hposted ⊢
    generalize crossingTest b c (s.modBay b fun u => u.modLine c.comp (countPulse (s.entry b).factor)) = t
      at hframe hquiet hposted ⊢
    have hbay : t.bay b = countedBay s.st.applied.bays[b].factor (10 * s.st.applied.bays[b].step) cross s.ts.fault c
        (s.bay b) := by
      rw [hframe]
      exact State.bay_modBay_self ..
    have hkept : OtherBaysKept b s t ∧ t.dt = s.dt ∧ t.cp = s.cp ∧ t.dl = s.dl ∧ t.dv = s.dv := by
      obtain ⟨⟨kbays, kck, kst, klink⟩, kdt, kcp, -, kdl⟩ := bayAlone_modBay b
        (countedBay s.st.applied.bays[b].factor (10 * s.st.applied.bays[b].step) cross s.ts.fault c) s
      rw [hframe]
      exact ⟨⟨kbays, kck, kst, klink⟩, kdt, kcp, kdl, rfl⟩
    obtain ⟨kothers, kdt, kcp, kdl, kdv⟩ := hkept
    cases ends with
    | false => exact ⟨hbay, congrArg Dv.notices kdv, hquiet, hposted, kothers, kdt, kcp, kdl⟩
    | true =>
      obtain ⟨tbay, tnotices, ⟨tothers, tdt, tcp, tts, tdl⟩⟩ := enterFinishing_told (b := b) (s := t)
        (c := { c with crossings := c.crossings + if cross then 1 else 0 }) "PRESET" (by rw [hbay])
        (by rw [hbay]; exact hends rfl) t.supv
      rw [hbay, finishing_counted] at tbay
      have told := tnotices.trans (congrArg (fun d : Dv => putNotice _ (putNotice _ d.notices)) kdv)
      rw [← tts] at hquiet hposted
      exact ⟨tbay, told, hquiet, hposted, otherBaysKept_trans kothers tothers, tdt.trans kdt, tcp.trans kcp,
        tdl.trans kdl⟩
  · refine ⟨fun h => ?_, fun h => ⟨_, hexec, ?_⟩⟩
    · rw [hexec, pulse_stray hstate, strayPulse_counts h]
    · rw [pulse_stray hstate]
      have hloading : (s.bay b).state ≠ .LOADING := by
        rcases hstate with e | e | e | e | e | ⟨e, -⟩ <;> rw [e] <;> nofun
      obtain ⟨tbay, tnotices, talone⟩ := strayPulse_told h hloading
      exact ⟨tbay, by rw [tbay]; exact tnotices, talone⟩

end Sys2Proof.Proofs.Pulses

/-! PROOFS. The return of a bay to IDLE: CANCEL, CLEAR and RESET (R96, R58, R132 to R134). -/

namespace Sys2Proof.Proofs.BayLeaving

open Sys2Proof Sys2Proof.Machine Sys2Proof.Laws.Basic Sys2Proof.Laws.Tables Sys2Proof.Proofs.WriteCompletes
open Sys2Proof.Proofs.LinkRequests Sys2Proof.Proofs.BayChanges Sys2Proof.Proofs.Telling Sys2Proof.Proofs.Pulses

/-! ## The unbinds (R58, R96) -/

/-- The unbinds reach the documents and the drivers alone. -/
theorem unbindBay_frame (b : Bay) (s : State) : unbindBay b s = { s with
    cp := { s.cp with docs := (unbindBay b s).cp.docs }
    dt := { s.dt with drivers := (unbindBay b s).dt.drivers } } := by
  unfold unbindBay
  dsimp only
  rcases (s.bay b).doc with _ | d
  · rcases (s.bay b).driver with _ | n
    · rfl
    · rfl
  · rcases (s.bay b).driver with _ | n
    · rfl
    · rfl

theorem docOf_cpUnbind {s : State} {d e : String} {b : Bay} {x : Doc} (hx : s.docOf e = some x) :
    (cpUnbind d b s).docOf e =
      some (if d = e ∧ x.state = .BOUND b then { x with state := .DRAFT, stack := [] } else x) := by
  unfold cpUnbind
  rw [docOf_modDoc d e _ fun y => by split <;> rfl, hx]
  by_cases hd : d = e
  · simp [docOf_num hx, hd]
  · simp [docOf_num hx, Ne.symm hd, hd]

theorem driverOf_dtUnbind {s : State} {n m : Nat} {b : Bay} {y : Driver} (hy : s.driverOf m = some y) :
    (dtUnbind n b s).driverOf m =
      some (if n = m ∧ y.status = .AT_BAY b then { y with status := .ON_SITE, pend := false } else y) := by
  unfold dtUnbind
  rw [driverOf_modDriver n m _ fun z => by split <;> rfl, hy]
  by_cases hn : n = m
  · simp [driverOf_num hy, hn]
  · simp [driverOf_num hy, Ne.symm hn, hn]

theorem docOf_unbindBay {s : State} {d : String} {b : Bay} {x : Doc} (hx : s.docOf d = some x) :
    (unbindBay b s).docOf d =
      some (if (s.bay b).doc = some d ∧ x.state = .BOUND b then { x with state := .DRAFT, stack := [] } else x) := by
  have hdoc : (match (s.bay b).doc with | some e => cpUnbind e b s | none => s).docOf d =
      some (if (s.bay b).doc = some d ∧ x.state = .BOUND b then { x with state := .DRAFT, stack := [] } else x) := by
    rcases (s.bay b).doc with _ | e
    · simp [hx]
    · simp [docOf_cpUnbind hx]
  unfold unbindBay
  dsimp only
  rcases (s.bay b).driver with _ | n
  · exact hdoc
  · exact hdoc

theorem driverOf_unbindBay {s : State} {n : Nat} {b : Bay} {y : Driver} (hy : s.driverOf n = some y) :
    (unbindBay b s).driverOf n =
      some (if (s.bay b).driver = some n ∧ y.status = .AT_BAY b then { y with status := .ON_SITE, pend := false } else y) := by
  unfold unbindBay
  dsimp only
  rcases (s.bay b).driver with _ | m
  · rcases (s.bay b).doc with _ | e
    · simp [hy]
    · exact hy.trans (by simp)
  · rcases (s.bay b).doc with _ | e
    · simp [driverOf_dtUnbind hy]
    · exact (driverOf_dtUnbind (s := cpUnbind e b s) hy).trans (by simp)

/-! ## The bay leaves (R132) -/

theorem cancelRecord_toList {s : State} {b : Bay} {d : String} {n : Nat} (hd : (s.bay b).doc = some d)
    (hn : (s.bay b).driver = some n) (why : CancelReason) : (cancelRecord s b why).toList =
      if (s.bay b).anyLoaded then
        [⟨s.stamp, .CANCEL ⟨b, d, n, why, ((s.bay b).lines.filter (·.loaded)).map (cancelItem s b)⟩⟩] else [] := by
  simp only [cancelRecord, hd, hn]
  split <;> rfl

/-- What a bay that leaves becomes, but for RELEASE. -/
def leftBay (recs : List LogRec) (u : BayUnit) : BayUnit := { u.empty .IDLE with outbox := u.outbox ++ recs }

theorem drive_leftBay (recs : List LogRec) (u : BayUnit) :
    (leftBay recs u).drive = { freed u with outbox := u.outbox ++ recs } :=
  Apply.drive_of_not_loading (by simp [leftBay, BayUnit.empty])

theorem otherBaysKept_postFrom (b : Bay) (src : LogSource) (s : State) : OtherBaysKept b s (postFrom src s) := by
  rw [postFrom_frame]
  exact ⟨fun _ _ => rfl, rfl, rfl, rfl, rfl, rfl, rfl⟩

/-- What is told of a bay that goes to IDLE. -/
abbrev ToldIdle (b : Bay) (reason : String) (s t : State) : Prop :=
  let ns := putNotice ⟨.B b, .LINES, linesFields (t.bay b)⟩
    (putNotice ⟨.B b, .STATE, stateFields (t.bay b) reason⟩ s.dv.notices)
  t.dv.notices = if (s.bay b).holds = Holds.none then ns else putNotice ⟨.B b, .HOLD, holdFields (t.bay b)⟩ ns

/-- A bay that leaves: itself, what it tells and records, what it held, and what stands. -/
theorem leaveBay_parts (b : Bay) (reason : String) (why : CancelReason) {s : State} (hstate : (s.bay b).state ≠ .IDLE) :
    let u := s.bay b
    let t := leaveBay b reason why .IDLE s
    t.bay b = { freed u with outbox := (t.bay b).outbox } ∧ ToldIdle b reason s t ∧
      (∀ d n, u.doc = some d → u.driver = some n →
        (t.bay b).outbox = u.outbox ++ if u.anyLoaded then
          [⟨s.stamp, .CANCEL ⟨b, d, n, why, (u.lines.filter (·.loaded)).map (cancelItem s b)⟩⟩] else []) ∧
      (∀ d x, s.docOf d = some x → t.docOf d =
        some (if u.doc = some d ∧ x.state = .BOUND b then { x with state := .DRAFT, stack := [] } else x)) ∧
      (∀ n y, s.driverOf n = some y → t.driverOf n =
        some (if u.driver = some n ∧ y.status = .AT_BAY b then { y with status := .ON_SITE, pend := false } else y)) ∧
      t.cp.staging = s.cp.staging ∧ t.dt = { s.dt with drivers := t.dt.drivers } ∧
      Posted (.B b) s t ∧ OtherBaysKept b s t ∧ t.ts = s.ts := by
  dsimp only
  have hunbound := unbindBay_frame b s
  have hdocs (d : String) (x : Doc) (hx : s.docOf d = some x) := docOf_unbindBay (b := b) hx
  have hdrivers (n : Nat) (y : Driver) (hy : s.driverOf n = some y) := driverOf_unbindBay (b := b) hy
  have hrecs (d : String) (n : Nat) (hd : (s.bay b).doc = some d) (hn : (s.bay b).driver = some n) :=
    cancelRecord_toList hd hn why
  have hleave : leaveBay b reason why .IDLE s =
      postFrom (.B b) (changeBay b reason true .stateFirst (leftBay (cancelRecord s b why).toList) (unbindBay b s)) := rfl
  rw [hleave]
  generalize (cancelRecord s b why).toList = recs at hrecs ⊢
  generalize unbindBay b s = w at hunbound hdocs hdrivers ⊢
  have hbay : w.bay b = s.bay b := by
    rw [hunbound]
    rfl
  have hkept : OtherBaysKept b s w := by
    rw [hunbound]
    exact ⟨fun _ _ => rfl, rfl, rfl, rfl, rfl, rfl, rfl⟩
  obtain ⟨tbay, tnotices, ⟨tothers, tdt, tcp, tts, tdl⟩⟩ := changeBay_first (b := b) (s := w) (reason := reason) (lines := true)
    (f := leftBay recs) (drive_leftBay recs (w.bay b)) w.supv
  rw [show ({ w with supv := w.supv } : State) = w from rfl] at tbay tnotices tothers tdt tcp tts tdl
  rw [hbay] at tbay tnotices
  generalize changeBay b reason true .stateFirst (leftBay recs) w = t at tbay tnotices tothers tdt tcp tts tdl ⊢
  have hpost := postFrom_frame (.B b) t
  have pbay : (postFrom (.B b) t).bay b = t.bay b := by
    rw [hpost]
    rfl
  have pothers := otherBaysKept_trans (otherBaysKept_trans hkept tothers) (otherBaysKept_postFrom b (.B b) t)
  have pposted : Posted (.B b) s (postFrom (.B b) t) := posted_postFrom _ (by rw [tdl, hunbound])
  have pcp : (postFrom (.B b) t).cp = w.cp := by rw [hpost, ← tcp]
  have pdt : (postFrom (.B b) t).dt = w.dt := by rw [hpost, ← tdt]
  have pts : (postFrom (.B b) t).ts = w.ts := by rw [hpost, ← tts]
  have pdoc (d : String) : (postFrom (.B b) t).docOf d = w.docOf d := by rw [State.docOf, pcp, State.docOf]
  have pdriver (n : Nat) : (postFrom (.B b) t).driverOf n = w.driverOf n := by
    rw [State.driverOf, pdt, State.driverOf]
  refine ⟨?_, ?_, fun d n hd hn => ?_, fun d x hx => (pdoc d).trans (hdocs d x hx),
    fun n y hy => (pdriver n).trans (hdrivers n y hy), ?_, ?_, pposted, pothers, ?_⟩
  · rw [pbay, tbay]
  · unfold ToldIdle
    dsimp only
    rw [pbay, tbay, hpost]
    refine tnotices.trans ?_
    simp only [toldStateFirst, if_neg hstate, if_true]
    rw [hunbound]
  · rw [pbay, tbay, ← hrecs d n hd hn]
  · rw [pcp, hunbound]
  · rw [pdt, hunbound]
  · rw [pts, hunbound]

/-! ## CANCEL, CLEAR and RESET (R132 to R134) -/

section
variable {b : Bay} {s : State}

theorem bCancel_state (h1 : (s.bay b).state ≠ .ASSIGNED) (h2 : (s.bay b).state ≠ .HELD) :
    bCancel b (some ()) s = (s, er .STATE) := if_pos ⟨h1, h2⟩

theorem bCancel_noKey (h : (s.bay b).state = .ASSIGNED ∨ (s.bay b).state = .HELD) (hloaded : (s.bay b).anyLoaded = true)
    (hkey : s.supv = false) : bCancel b (some ()) s = (s, er .KEY_REQUIRED) :=
  (if_neg fun hno => h.elim hno.1 hno.2).trans (if_pos ⟨hloaded, hkey⟩)

theorem not_keyed (hkey : (s.bay b).anyLoaded = false ∨ s.supv = true) :
    ¬((s.bay b).anyLoaded = true ∧ s.supv = false) :=
  fun ⟨h1, h2⟩ => hkey.elim (fun e => by rw [e] at h1; nomatch h1) fun e => by rw [e] at h2; nomatch h2

theorem bCancel_taken (h : (s.bay b).state = .ASSIGNED ∨ (s.bay b).state = .HELD)
    (hkey : (s.bay b).anyLoaded = false ∨ s.supv = true) : bCancel b (some ()) s =
      (leaveBay b "CANCEL" .OPERATOR .IDLE s, ok [fld "LOADED" (dec (s.bay b).loadedCount)]) :=
  (if_neg fun hno => h.elim hno.1 hno.2).trans (if_neg (not_keyed hkey))

theorem bReset_noKey (h : (s.bay b).state ≠ .CLOSED) (hloaded : (s.bay b).anyLoaded = true) (hkey : s.supv = false) :
    bReset b (some ()) s = (s, er .KEY_REQUIRED) :=
  (if_neg h).trans (if_pos ⟨hloaded, hkey⟩)

variable (hkey : (s.bay b).anyLoaded = false ∨ s.supv = true)
include hkey

theorem bReset_idle (h : (s.bay b).state = .IDLE) : bReset b (some ()) s = (s, ok [fld "LOADED" "0"]) := by
  have hno := not_keyed hkey
  simp only [bReset, h, if_neg hno, reduceCtorEq, if_false]

theorem bReset_dispatched (h : (s.bay b).state = .DISPATCHED) :
    bReset b (some ()) s = (freeBay b "RESET" s, ok [fld "LOADED" "0"]) := by
  have hno := not_keyed hkey
  simp only [bReset, h, if_neg hno, reduceCtorEq, if_false]

theorem bReset_leaves (h : (s.bay b).state = .ASSIGNED ∨ (s.bay b).state = .HELD ∨ (s.bay b).state = .DISPATCHING) :
    bReset b (some ()) s =
      (leaveBay b "RESET" .RESET .IDLE s, ok [fld "LOADED" (dec (s.bay b).loadedCount)]) := by
  have hno := not_keyed hkey
  rcases h with h | h | h <;> simp only [bReset, h, if_neg hno, reduceCtorEq, if_false]

theorem bReset_withdraws (h : (s.bay b).state = .LOADING ∨ (s.bay b).state = .PAUSED ∨ (s.bay b).state = .FINISHING) :
    bReset b (some ()) s = (leaveBay b "RESET" .RESET .IDLE (tsWithdraw b s),
      ok [fld "LOADED" (dec (s.bay b).loadedCount)]) := by
  have hno := not_keyed hkey
  rcases h with h | h | h <;> simp only [bReset, h, if_neg hno, reduceCtorEq, if_false]

end

/-- The request of a bay that withdraws it is gone; a running sample is marked (R145). -/
theorem tsWithdraw_parts (b : Bay) (s : State) :
    (tsWithdraw b s).ts.reqs[b] = none ∧ (∀ b' : Bay, b' ≠ b → (tsWithdraw b s).ts.reqs[b'] = s.ts.reqs[b']) ∧
      (tsWithdraw b s).ts = { s.ts with reqs := (tsWithdraw b s).ts.reqs, conv := (tsWithdraw b s).ts.conv } ∧
      (s.ts.reqs[b] ≠ none ∧ s.ts.conv = .SAMPLE b false → (tsWithdraw b s).ts.conv = .SAMPLE b true) ∧
      (¬(s.ts.reqs[b] ≠ none ∧ s.ts.conv = .SAMPLE b false) → (tsWithdraw b s).ts.conv = s.ts.conv) := by
  unfold tsWithdraw
  rw [State.ts_modTs]
  by_cases hreq : s.ts.reqs[b] = none
  · rw [if_neg (by rw [hreq]; nofun)]
    exact ⟨hreq, fun _ _ => rfl, rfl, fun h => absurd hreq h.1, fun _ => rfl⟩
  · rw [if_pos (Option.isSome_iff_ne_none.2 hreq)]
    refine ⟨Sampler.reqs_dropReq_self s.ts, fun c hc => Sampler.reqs_dropReq_ne hc s.ts, rfl, fun h => if_pos h.2, fun h => ?_⟩
    exact if_neg fun hc => h ⟨hreq, hc⟩

theorem freeBay_emptied {b : Bay} {s : State} (reason : String) (hstate : (s.bay b).state = .DISPATCHED) (v : Bool) :
    let t := freeBay b reason { s with supv := v }
    t.bay b = { freed (s.bay b) with outbox := (t.bay b).outbox } ∧ (t.bay b).outbox = (s.bay b).outbox ∧
      ToldIdle b reason s t ∧ BayAlone b s t := by
  obtain ⟨tbay, told, talone⟩ := freeBay_told (b := b) (s := s) reason (by rw [hstate]; nofun) v
  have houtbox := congrArg BayUnit.outbox tbay
  exact ⟨tbay.trans (congrArg (fun o => ({ freed (s.bay b) with outbox := o } : BayUnit)) houtbox.symm), houtbox, told,
    talone⟩

/-- Settles O40: the tests of each request in their order, and the bay emptied. -/
theorem cancelClearAndReset : Obligations.CancelClearAndReset := by
  intro h b s hready
  dsimp only
  have hcancel {t : State} {r : Answer} (hact : bCancel b (some ()) (underKey h s) = (t, r)) :
      exec (.bCancel h b (some ())) s = Answers h (unitText (.B b)) r t :=
    exec_act (c := .bCancel h b (some ())) rfl hready hact
  have hclear {t : State} {r : Answer} (hact : bClear b (some ()) (underKey h s) = (t, r)) :
      exec (.bClear h b (some ())) s = Answers h (unitText (.B b)) r t :=
    exec_act (c := .bClear h b (some ())) rfl hready hact
  have hreset {t : State} {r : Answer} (hact : bReset b (some ()) (underKey h s) = (t, r)) :
      exec (.bReset h b (some ())) s = Answers h (unitText (.B b)) r t :=
    exec_act (c := .bReset h b (some ())) rfl hready hact
  have hkeyed (hkey : (s.bay b).anyLoaded = false ∨ h.supv = true) :
      ((underKey h s).bay b).anyLoaded = false ∨ (underKey h s).supv = true := hkey
  refine ⟨fun h1 h2 => hcancel (bCancel_state (s := underKey h s) h1 h2),
    fun hstate => ⟨fun hl hk => hcancel (bCancel_noKey (s := underKey h s) hstate hl hk), fun hkey => ?_⟩,
    fun hstate => hclear (if_pos hstate), fun hstate => ?_, fun hstate => hreset (if_pos hstate),
    fun hstate hl hk => hreset (bReset_noKey (s := underKey h s) hstate hl hk),
    fun hkey => ⟨fun hstate => hreset (bReset_idle (hkeyed hkey) hstate), fun hstate => ?_, fun hstate => ?_,
      fun hstate => ?_⟩⟩
  · refine ⟨_, hcancel (bCancel_taken (s := underKey h s) hstate hkey), ?_⟩
    obtain ⟨tbay, told, trecs, tdocs, tdrivers, tstaging, tdt, tposted, tothers, tts⟩ :=
      leaveBay_parts b "CANCEL" .OPERATOR (s := underKey h s) (by rcases hstate with e | e <;> exact e ▸ nofun)
    exact ⟨⟨tbay, told, trecs, tdocs, tdrivers, tstaging, tdt, tposted, tothers⟩, tts⟩
  · refine ⟨_, hclear (if_neg (not_not_intro hstate)), ?_⟩
    exact freeBay_emptied "CLEAR" hstate h.supv
  · refine ⟨_, hreset (bReset_dispatched (hkeyed hkey) hstate), ?_⟩
    exact freeBay_emptied "RESET" hstate h.supv
  · refine ⟨_, hreset (bReset_leaves (hkeyed hkey) hstate), ?_⟩
    obtain ⟨tbay, told, trecs, tdocs, tdrivers, tstaging, tdt, tposted, tothers, tts⟩ :=
      leaveBay_parts b "RESET" .RESET (s := underKey h s) (by rcases hstate with e | e | e <;> exact e ▸ nofun)
    exact ⟨⟨tbay, told, trecs, tdocs, tdrivers, tstaging, tdt, tposted, tothers⟩, tts⟩
  · refine ⟨_, hreset (bReset_withdraws (hkeyed hkey) hstate), ?_⟩
    obtain ⟨tbay, told, trecs, tdocs, tdrivers, tstaging, tdt, tposted, tothers, tts⟩ :=
      leaveBay_parts b "RESET" .RESET (s := tsWithdraw b (underKey h s))
        (by rcases hstate with e | e | e <;> exact fun hi => nomatch e.symm.trans hi)
    rw [tts]
    exact ⟨⟨tbay, told, trecs, tdocs, tdrivers, tstaging, tdt, tposted, tothers⟩, tsWithdraw_parts b (underKey h s)⟩

end Sys2Proof.Proofs.BayLeaving

/-! PROOFS. A document and a driver at a bay: ASSIGN, DRIVER and DISPATCH (R57, R59, R60, R95, R115, R127, R130). -/

namespace Sys2Proof.Proofs.BayBinding

open Sys2Proof Sys2Proof.Machine Sys2Proof.Laws.Basic Sys2Proof.Laws.Tables Sys2Proof.Proofs.WriteCompletes
open Sys2Proof.Proofs.LinkRequests Sys2Proof.Proofs.BayChanges Sys2Proof.Proofs.Telling Sys2Proof.Proofs.Pulses
open Sys2Proof.Proofs.BayLeaving

/-! ## The tables (R57, R95) -/

theorem docOf_cpBind {s : State} {d : String} {b : Bay} {x : Doc} (hx : s.docOf d = some x) :
    (cpBind d b s).docOf d = some { x with state := .BOUND b, stack := [] } ∧
      ∀ e, e ≠ d → (cpBind d b s).docOf e = s.docOf e :=
  ⟨docOf_modDoc_self d _ (fun _ => by rfl) s hx, fun e he => docOf_modDoc_ne d e _ (fun _ => by rfl) s he⟩

theorem cpBindRefusal_draft {s : State} {d : String} {n : Nat} {x : Doc} (hx : s.docOf d = some x) (hstate : x.state = .DRAFT)
    (hn : x.matchesDriver n = true) : cpBindRefusal s d n = none := by
  simp only [cpBindRefusal, hx, hstate, hn, if_true]

theorem dtBindRefusal_onSite {s : State} {n : Nat} {y : Driver} (hy : s.driverOf n = some y) (h : y.status = .ON_SITE) :
    dtBindRefusal s n = none := by
  simp only [dtBindRefusal, hy, h]

theorem driverVerdict_eq {s : State} {n : Nat} {y : Driver} (hy : s.driverOf n = some y) (p : Plan) :
    s.driverVerdict n p = s.verdict y.list p := by
  simp only [State.driverVerdict, State.dutyList, hy, Option.map_some, Option.getD_some]

theorem driverOf_dtBind {s : State} {n : Nat} {y : Driver} (hy : s.driverOf n = some y) (b : Bay) (p : Plan) :
    (dtBind n b p s).driverOf n = some { y with status := .AT_BAY b, last := some (s.verdict y.list p) } ∧
      ∀ m, m ≠ n → (dtBind n b p s).driverOf m = s.driverOf m := by
  rw [← driverVerdict_eq hy]
  exact ⟨driverOf_modDriver_self n _ (fun _ => by rfl) s hy, fun m hm => driverOf_modDriver_ne n m _ (fun _ => by rfl) s hm⟩

/-! ## ASSIGN (R115) -/

section
variable {b : Bay} {a : AssignArgs} {s : State}

theorem bAssign_noDriver (h : a.drv = 0) : bAssign b (some a) s = (s, er .RANGE) := if_pos h

variable (hn : a.drv ≠ 0)
include hn

theorem bAssign_state (h : (s.bay b).state ≠ .IDLE) : bAssign b (some a) s = (s, er .STATE) := (if_neg hn).trans (if_pos h)

variable (hstate : (s.bay b).state = .IDLE)
include hstate

theorem bAssign_busy (h : (s.bay b).outbox ≠ []) : bAssign b (some a) s = (s, er .BUSY) := by
  simp only [bAssign, if_neg hn, hstate, ne_eq, not_true_eq_false, if_false, h, not_false_eq_true, if_true]

variable (hbox : (s.bay b).outbox = [])
include hbox

theorem bAssign_clock (h : s.ck.isSet = false) : bAssign b (some a) s = (s, er .CLOCK_UNSET) := by
  simp only [bAssign, if_neg hn, hstate, ne_eq, not_true_eq_false, if_false, hbox, h, Bool.not_false, if_true]

variable (hset : s.ck.isSet = true)
include hset

theorem bAssign_refusedDoc {c : ReplyCode} (h : cpBindRefusal s a.doc a.drv = some c) :
    bAssign b (some a) s = (s, er c [fld "DOC" a.doc]) := by
  simp only [bAssign, if_neg hn, hstate, ne_eq, not_true_eq_false, if_false, hbox, hset, Bool.not_true, Bool.false_eq_true, h]

variable (hdoc : cpBindRefusal s a.doc a.drv = none) {x : Doc} (hx : s.docOf a.doc = some x)
include hdoc hx

theorem bAssign_refusedDriver {c : ReplyCode} (h : dtBindRefusal s a.drv = some c) :
    bAssign b (some a) s = (cpUnbind a.doc b (cpBind a.doc b s), er c [fld "DRV" (drvText a.drv)]) := by
  have hbound : dtBindRefusal (cpBind a.doc b s) a.drv = some c := h
  simp only [bAssign, if_neg hn, hstate, ne_eq, not_true_eq_false, if_false, hbox, hset, Bool.not_true, Bool.false_eq_true,
    hdoc, hx, hbound]

theorem bAssign_taken (h : dtBindRefusal s a.drv = none) : bAssign b (some a) s =
    let v := s.driverVerdict a.drv x.plan
    let t := changeBay b "ASSIGN" true .stateFirst (BayUnit.assigned x a.drv v) (dtBind a.drv b x.plan (cpBind a.doc b s))
    (t, ok (fld "STATE" (bayStateText (t.bay b).state) :: verdictReply v ++
      [fld "LINES" (commas (x.lines.map fun l => dec l.comp))])) := by
  have hbound : dtBindRefusal (cpBind a.doc b s) a.drv = none := h
  simp only [bAssign, if_neg hn, hstate, ne_eq, not_true_eq_false, if_false, hbox, hset, Bool.not_true, Bool.false_eq_true,
    hdoc, hx, hbound]
  rfl

end

/-- A bay that has been given a document and a driver. -/
abbrev assignedBay (x : Doc) (n : Nat) (v : VerdictRec) (u : BayUnit) : BayUnit :=
  { u with
    state := if decide (v.verdict = .LIMIT) then .HELD else .ASSIGNED
    holds := { Holds.none with hours := decide (v.verdict = .LIMIT) }
    doc := some x.num
    driver := some n
    plan := some x.plan
    verdict := some v
    lines := x.lines.map fun l => openLine l.comp
    ctx := none
    stray := 0
    release := false }

theorem drive_assigned (x : Doc) (n : Nat) (v : VerdictRec) (u : BayUnit) :
    (BayUnit.assigned x n v u).drive = assignedBay x n v u := by
  have hlimit : (v.verdict == .LIMIT) = decide (v.verdict = .LIMIT) := by
    cases v.verdict <;> rfl
  unfold BayUnit.assigned
  rw [BayLines.adjust_assigned rfl, hlimit]
  refine (Apply.drive_of_not_loading ?_).trans ?_
  · dsimp only
    split <;> nofun
  · unfold assignedBay
    cases decide (v.verdict = .LIMIT) <;> rfl

/-- Changes of the documents and drivers leave the bays and the link. -/
theorem otherBaysKept_tables {b : Bay} {s t : State} (h : t = { s with
    supv := t.supv, cp := { s.cp with docs := t.cp.docs }, dt := { s.dt with drivers := t.dt.drivers } }) :
    OtherBaysKept b s t ∧ t.bays = s.bays ∧ t.dv = s.dv ∧ t.cp.staging = s.cp.staging ∧
      t.dt = { s.dt with drivers := t.dt.drivers } ∧ t.ts = s.ts ∧ t.dl = s.dl := by
  generalize t.supv = v at h
  generalize t.cp.docs = docs at h
  generalize hd : t.dt.drivers = drivers at h
  subst h
  exact ⟨⟨fun _ _ => rfl, rfl, rfl, rfl, rfl, rfl, rfl⟩, rfl, rfl, rfl, rfl, rfl, rfl⟩

theorem docOf_congr {s t : State} (h : t.cp = s.cp) (d : String) : t.docOf d = s.docOf d := by
  rw [State.docOf, h, State.docOf]

theorem driverOf_congr {s t : State} (h : t.dt = s.dt) (n : Nat) : t.driverOf n = s.driverOf n := by
  rw [State.driverOf, h, State.driverOf]

theorem docOf_rebound {s : State} {d : String} {b : Bay} {x : Doc} (hx : s.docOf d = some x) (hstate : x.state = .DRAFT) :
    (cpUnbind d b (cpBind d b s)).docOf d = some { x with stack := [] } ∧
      ∀ e, e ≠ d → (cpUnbind d b (cpBind d b s)).docOf e = s.docOf e := by
  obtain ⟨hself, hothers⟩ := docOf_cpBind (b := b) hx
  refine ⟨(docOf_cpUnbind hself).trans ?_, fun e he => ?_⟩
  · rw [if_pos ⟨rfl, rfl⟩, ← hstate]
  · exact (docOf_modDoc_ne d e _ (fun y => by split <;> rfl) _ he).trans (hothers e he)

/-- What ASSIGN leaves of the tables before the bay changes. -/
theorem bound_frame (n : Nat) (b : Bay) (p : Plan) (d : String) (s : State) :
    dtBind n b p (cpBind d b s) = { s with
      cp := { s.cp with docs := (dtBind n b p (cpBind d b s)).cp.docs }
      dt := { s.dt with drivers := (dtBind n b p (cpBind d b s)).dt.drivers } } := rfl

/-- A change of a bay, STATE first, in a state of its own. -/
theorem changeBay_told {b : Bay} {reason : String} {lines : Bool} {f : BayUnit → BayUnit} {s : State} {w : BayUnit}
    (hw : (f (s.bay b)).drive = w) : (changeBay b reason lines .stateFirst f s).bay b = w ∧
      (changeBay b reason lines .stateFirst f s).dv.notices = toldStateFirst b reason lines (s.bay b) w s.dv.notices ∧
      BayAlone b s (changeBay b reason lines .stateFirst f s) :=
  changeBay_first hw s.supv

/-- Settles O35: the tests in their order, and what the bay, the document and the driver become. -/
theorem assignBindsDocumentAndDriver : Obligations.AssignBindsDocumentAndDriver := by
  intro h b d n s hready
  dsimp only
  have hout {t : State} {r : Answer} (hact : bAssign b (some ⟨d, n⟩) (underKey h s) = (t, r)) :
      exec (.bAssign h b (some ⟨d, n⟩)) s = Answers h (unitText (.B b)) r t :=
    exec_act (c := .bAssign h b (some ⟨d, n⟩)) rfl hready hact
  refine ⟨fun hn => hout (bAssign_noDriver hn), fun hn hstate => hout (bAssign_state (s := underKey h s) hn hstate),
    fun hn hstate hbox => hout (bAssign_busy (s := underKey h s) hn hstate hbox), fun hn hstate hbox => ⟨fun hset => ?_,
      fun hset => ⟨fun c hc => ?_, fun x hx hdraft hmatch => ⟨fun c hc => ?_, fun y hy hsite => ?_⟩⟩⟩⟩
  · exact hout (bAssign_clock (s := underKey h s) hn hstate hbox hset)
  · exact hout (bAssign_refusedDoc (s := underKey h s) hn hstate hbox hset hc)
  · have hdoc := cpBindRefusal_draft (s := underKey h s) hx hdraft hmatch
    refine ⟨_, hout (bAssign_refusedDriver (a := ⟨d, n⟩) (s := underKey h s) hn hstate hbox hset hdoc hx hc), ?_⟩
    obtain ⟨hself, hothers⟩ := docOf_rebound (s := underKey h s) (b := b) hx hdraft
    exact ⟨hself, hothers, rfl, rfl, rfl, rfl, rfl, rfl, rfl⟩
  · have hdoc := cpBindRefusal_draft (s := underKey h s) hx hdraft hmatch
    have hact := bAssign_taken (a := ⟨d, n⟩) (s := underKey h s) hn hstate hbox hset hdoc hx
      (dtBindRefusal_onSite (s := underKey h s) hy hsite)
    dsimp only at hact
    rw [driverVerdict_eq (s := underKey h s) hy] at hact
    have hv : (underKey h s).verdict y.list x.plan = s.verdict y.list x.plan := rfl
    rw [hv] at hact
    obtain ⟨wdoc, wdocs⟩ := docOf_cpBind (s := underKey h s) (b := b) hx
    obtain ⟨wdriver, wdrivers⟩ := driverOf_dtBind (s := cpBind d b (underKey h s)) hy b x.plan
    have wdriver : (dtBind n b x.plan (cpBind d b (underKey h s))).driverOf n =
      some { y with status := .AT_BAY b, last := some (s.verdict y.list x.plan) } := wdriver
    have wdocs' (e : String) : (dtBind n b x.plan (cpBind d b (underKey h s))).docOf e =
      (cpBind d b (underKey h s)).docOf e := rfl
    obtain ⟨wkept, wbays, wdv, wstaging, wdt, wts, wdl⟩ := otherBaysKept_tables (b := b) (s := s)
      (t := dtBind n b x.plan (cpBind d b (underKey h s))) rfl
    generalize s.verdict y.list x.plan = v at hact wdriver ⊢
    have wdocs := fun e he => (wdocs' e).trans (wdocs e he)
    have wdoc := (wdocs' d).trans wdoc
    generalize dtBind n b x.plan (cpBind d b (underKey h s)) = w at *
    have wbay : w.bay b = s.bay b := Amendments.bay_of_bays wbays b
    obtain ⟨tbay, tnotices, ⟨tothers, tdt, tcp, tts, tdl⟩⟩ := changeBay_told (b := b) (s := w) (reason := "ASSIGN")
      (lines := true) (drive_assigned x n v (w.bay b))
    rw [wbay] at tbay tnotices
    rw [wdv] at tnotices
    generalize changeBay b "ASSIGN" true .stateFirst (BayUnit.assigned x n v) w = t at *
    have hheld : bayStateText (t.bay b).state = if decide (v.verdict = .LIMIT) then "HELD" else "ASSIGNED" := by
      rw [tbay, assignedBay]
      cases decide (v.verdict = .LIMIT) <;> rfl
    rw [hheld] at hact
    refine ⟨t, hout hact, ?_⟩
    rw [assignedBay, docOf_num hx] at tbay
    refine ⟨tbay, by rw [tbay]; rw [assignedBay, docOf_num hx] at tnotices; exact tnotices, (docOf_congr tcp d).trans wdoc,
      fun e he => (docOf_congr tcp e).trans (wdocs e he), (driverOf_congr tdt n).trans wdriver,
      fun m hm => (driverOf_congr tdt m).trans (wdrivers m hm), by rw [tcp, wstaging], ?_, otherBaysKept_trans wkept tothers,
      tts.trans wts, tdl.trans wdl⟩
    rw [tdt]
    exact wdt

end Sys2Proof.Proofs.BayBinding

/-! PROOFS. The driver of a bay replaced, and its dispatch (R59, R60, R127, R130). -/

namespace Sys2Proof.Proofs.BayBinding

open Sys2Proof Sys2Proof.Machine Sys2Proof.Laws.Basic Sys2Proof.Laws.Tables Sys2Proof.Proofs.WriteCompletes
open Sys2Proof.Proofs.LinkRequests Sys2Proof.Proofs.BayChanges Sys2Proof.Proofs.Telling Sys2Proof.Proofs.Pulses
open Sys2Proof.Proofs.BayLeaving Sys2Proof.Proofs.BayHolds

/-- A change of a bay, STATE last, in a state of its own. -/
theorem changeBay_told_last {b : Bay} {reason : String} {lines : Bool} {f : BayUnit → BayUnit} {s : State} {w : BayUnit}
    (hw : (f (s.bay b)).drive = w) : (changeBay b reason lines .stateLast f s).bay b = w ∧
      (changeBay b reason lines .stateLast f s).dv.notices = toldStateLast b reason lines (s.bay b) w s.dv.notices ∧
      BayAlone b s (changeBay b reason lines .stateLast f s) :=
  changeBay_last hw s.supv

/-! ## DRIVER (R127) -/

theorem driverOf_dtSwap {s : State} {n old : Nat} {b : Bay} {p : Plan} {y z : Driver} (hy : s.driverOf n = some y)
    (hz : s.driverOf old = some z) (hsite : y.status = .ON_SITE) (hbay : z.status = .AT_BAY b) :
    (dtSwap old n b p s).driverOf n = some { y with status := .AT_BAY b, last := some (s.verdict y.list p) } ∧
      (dtSwap old n b p s).driverOf old = some { z with status := .ON_SITE } ∧
      ∀ m, m ≠ n → m ≠ old → (dtSwap old n b p s).driverOf m = s.driverOf m := by
  have hne : n ≠ old := by
    rintro rfl
    obtain rfl : y = z := Option.some.inj (hy.symm.trans hz)
    exact nomatch hsite.symm.trans hbay
  have hf (x : Driver) : (if x.status = .AT_BAY b then { x with status := .ON_SITE } else x).num = x.num := by
    split <;> rfl
  have hfree := driverOf_modDriver_ne old n _ hf s hne
  have hleft := driverOf_modDriver_self old _ hf s hz
  obtain ⟨hself, hothers⟩ := driverOf_dtBind (hfree.trans hy) b p
  refine ⟨hself, (hothers old hne.symm).trans (hleft.trans ?_), fun m hn ho => (hothers m hn).trans ?_⟩
  · rw [if_pos hbay]
  · exact driverOf_modDriver_ne old m _ hf s ho

section
variable {b : Bay} {n : Nat} {s : State}

theorem bDriver_state (hn : n ≠ 0) (h1 : (s.bay b).state ≠ .ASSIGNED) (h2 : (s.bay b).state ≠ .HELD) :
    bDriver b (some n) s = (s, er .STATE) := (if_neg hn).trans (if_pos ⟨h1, h2⟩)

variable (hn : n ≠ 0) (hstate : (s.bay b).state = .ASSIGNED ∨ (s.bay b).state = .HELD) {x : Doc} {old : Nat} {p : Plan}
  (hx : (s.bay b).doc.bind s.docOf = some x) (hold : (s.bay b).driver = some old) (hp : (s.bay b).plan = some p)
include hn hstate hx hold hp

theorem bDriver_mismatch (h : x.matchesDriver n = false) : bDriver b (some n) s = (s, er .DRIVER_MISMATCH) := by
  have hok : ¬((s.bay b).state ≠ .ASSIGNED ∧ (s.bay b).state ≠ .HELD) := fun hno => hstate.elim hno.1 hno.2
  simp only [bDriver, if_neg hn, if_neg hok, hx, hold, hp, h, Bool.not_false, if_true]

variable (hmatch : x.matchesDriver n = true)
include hmatch

theorem bDriver_refused {c : ReplyCode} (h : dtBindRefusal s n = some c) : bDriver b (some n) s = (s, er c) := by
  have hok : ¬((s.bay b).state ≠ .ASSIGNED ∧ (s.bay b).state ≠ .HELD) := fun hno => hstate.elim hno.1 hno.2
  simp only [bDriver, if_neg hn, if_neg hok, hx, hold, hp, hmatch, Bool.not_true, Bool.false_eq_true, if_false, h]

theorem bDriver_taken (h : dtBindRefusal s n = none) : bDriver b (some n) s =
    (tellHold b (changeBay b "HOLD" false .stateLast (BayUnit.swapped n (s.driverVerdict n p)) (dtSwap old n b p s)),
      ok (fld "DRV" (drvText n) :: verdictReply (s.driverVerdict n p))) := by
  have hok : ¬((s.bay b).state ≠ .ASSIGNED ∧ (s.bay b).state ≠ .HELD) := fun hno => hstate.elim hno.1 hno.2
  simp only [bDriver, if_neg hn, if_neg hok, hx, hold, hp, hmatch, Bool.not_true, Bool.false_eq_true, if_false, h]

end

/-- A bay with a new driver. -/
abbrev swappedBay (n : Nat) (v : VerdictRec) (u : BayUnit) : BayUnit :=
  { u with
    driver := some n
    verdict := some v
    holds := { u.holds with hours := decide (v.verdict = .LIMIT) }
    state := if ({ u.holds with hours := decide (v.verdict = .LIMIT) } : Holds) = Holds.none then .ASSIGNED else .HELD
    release := false }

theorem limit_eq (v : VerdictRec) : (v.verdict == .LIMIT) = decide (v.verdict = .LIMIT) := by
  cases v.verdict <;> rfl

theorem drive_swapped (n : Nat) (v : VerdictRec) {u : BayUnit} (h : u.state = .ASSIGNED ∨ u.state = .HELD) :
    (BayUnit.swapped n v u).drive = swappedBay n v u := by
  unfold BayUnit.swapped
  refine (Apply.drive_of_not_loading ?_).trans ?_
  · exact adjust_not_loading (by exact h)
  · rw [adjust_eq, limit_eq, swappedBay]
    dsimp only
    rcases h with h | h <;> rw [h]

/-- Settles O38: the tests in their order, the swap at DT, and what the bay makes of the verdict. -/
theorem driverSwapReplacesTheDriver : Obligations.DriverSwapReplacesTheDriver := by
  intro h b n old x p s hready
  dsimp only
  have hout {m : Nat} {t : State} {r : Answer} (hact : bDriver b (some m) (underKey h s) = (t, r)) :
      exec (.bDriver h b (some m)) s = Answers h (unitText (.B b)) r t :=
    exec_act (c := .bDriver h b (some m)) rfl hready hact
  refine ⟨hout rfl, fun hn h1 h2 => hout (bDriver_state (s := underKey h s) hn h1 h2), fun hn hstate hx hold hp =>
    ⟨fun hno => hout (bDriver_mismatch (s := underKey h s) hn hstate hx hold hp hno), fun hmatch => ⟨fun c hc =>
      hout (bDriver_refused (s := underKey h s) hn hstate hx hold hp hmatch hc), fun y z hy hsite hz hbay => ?_⟩⟩⟩
  have hact := bDriver_taken (s := underKey h s) hn hstate hx hold hp hmatch
    (dtBindRefusal_onSite (s := underKey h s) hy hsite)
  rw [driverVerdict_eq (s := underKey h s) hy, show (underKey h s).verdict y.list p = s.verdict y.list p from rfl] at hact
  obtain ⟨wnew, wold, wothers⟩ : (dtSwap old n b p (underKey h s)).driverOf n =
      some { y with status := .AT_BAY b, last := some (s.verdict y.list p) } ∧
      (dtSwap old n b p (underKey h s)).driverOf old = some { z with status := .ON_SITE } ∧
      ∀ m, m ≠ n → m ≠ old → (dtSwap old n b p (underKey h s)).driverOf m = s.driverOf m :=
    driverOf_dtSwap (s := underKey h s) hy hz hsite hbay
  obtain ⟨wkept, wbays, wdv, -, wdt, wts, wdl⟩ := otherBaysKept_tables (b := b) (s := s)
    (t := dtSwap old n b p (underKey h s)) rfl
  have wcp : (dtSwap old n b p (underKey h s)).cp = s.cp := rfl
  generalize s.verdict y.list p = v at hact wnew ⊢
  generalize dtSwap old n b p (underKey h s) = w at *
  have wbay : w.bay b = s.bay b := Amendments.bay_of_bays wbays b
  obtain ⟨tbay, tnotices, ⟨tothers, tdt, tcp, tts, tdl⟩⟩ := changeBay_told_last (b := b) (s := w) (reason := "HOLD")
    (lines := false) (drive_swapped n v (u := w.bay b) (by rw [wbay]; exact hstate))
  rw [wbay, wdv] at tnotices
  rw [wbay] at tbay
  rw [← tbay] at tnotices
  refine ⟨_, hout hact, ?_⟩
  generalize changeBay b "HOLD" false .stateLast (BayUnit.swapped n v) w = t at *
  have hkept : OtherBaysKept b s (tellHold b t) :=
    otherBaysKept_trans (otherBaysKept_trans wkept tothers) (bayAlone_raise b (.B b) .HOLD (holdFields (t.bay b)) t).1
  refine ⟨tbay, ?_, (driverOf_congr tdt n).trans wnew, (driverOf_congr tdt old).trans wold,
    fun m hm ho => (driverOf_congr tdt m).trans (wothers m hm ho), ?_, hkept, tcp.trans wcp, tts.trans wts, tdl.trans wdl⟩
  · exact congrArg (putNotice ⟨.B b, .HOLD, holdFields (t.bay b)⟩) tnotices
  · show t.dt = { s.dt with drivers := t.dt.drivers }
    rw [tdt]
    exact wdt

end Sys2Proof.Proofs.BayBinding

/-! PROOFS. The dispatch of a bay (R60, R130). -/

namespace Sys2Proof.Proofs.BayBinding

open Sys2Proof Sys2Proof.Machine Sys2Proof.Laws.Basic Sys2Proof.Laws.Tables Sys2Proof.Proofs.WriteCompletes
open Sys2Proof.Proofs.LinkRequests Sys2Proof.Proofs.BayChanges Sys2Proof.Proofs.Telling Sys2Proof.Proofs.Pulses
open Sys2Proof.Proofs.BayLeaving Sys2Proof.Proofs.BayHolds

/-! ## The dispatch check (R60) -/

section
variable {s : State} {n : Nat} {b : Bay} {p : Plan} {y : Driver} (hy : s.driverOf n = some y) (hbay : y.status = .AT_BAY b)
include hy hbay

theorem dispatchAnswer_eq : dispatchAnswer s n b p =
    if (s.verdict y.list p).verdict = .LIMIT then .limit (s.verdict y.list p)
    else if 32 < (s.departList y.list).length then .listFull (s.verdict y.list p)
    else .go (s.verdict y.list p) := by
  simp only [dispatchAnswer, hy, hbay, ne_eq, not_true_eq_false, if_false]
  rfl

/-- The driver's record after a check. -/
theorem dispatchCheck_limit {v : VerdictRec} (h : dispatchAnswer s n b p = .limit v) :
    dispatchCheck n b p s = modDriver n (fun x => { x with last := some v }) s ∧
      (dispatchCheck n b p s).driverOf n = some { y with last := some v } := by
  have heq : dispatchCheck n b p s = modDriver n (fun x => { x with last := some v }) s := by
    simp only [dispatchCheck, h]
  rw [heq]
  exact ⟨rfl, driverOf_modDriver_self n _ (fun _ => by rfl) s hy⟩

theorem dispatchCheck_full {v : VerdictRec} (h : dispatchAnswer s n b p = .listFull v) :
    dispatchCheck n b p s = modDriver n (fun x => { x with last := some v }) s ∧
      (dispatchCheck n b p s).driverOf n = some { y with last := some v } := by
  have heq : dispatchCheck n b p s = modDriver n (fun x => { x with last := some v }) s := by
    simp only [dispatchCheck, h]
  rw [heq]
  exact ⟨rfl, driverOf_modDriver_self n _ (fun _ => by rfl) s hy⟩

theorem dispatchCheck_go {v : VerdictRec} (h : dispatchAnswer s n b p = .go v) :
    dispatchCheck n b p s = modDriver n (fun x => { x with last := some v, pend := true }) s ∧
      (dispatchCheck n b p s).driverOf n = some { y with last := some v, pend := true } := by
  have heq : dispatchCheck n b p s = modDriver n (fun x => { x with last := some v, pend := true }) s := by
    simp only [dispatchCheck, h]
  rw [heq]
  exact ⟨rfl, driverOf_modDriver_self n _ (fun _ => by rfl) s hy⟩

end

/-! ## DISPATCH (R130) -/

section
variable {b : Bay} {s : State}

theorem bDispatch_state (h : (s.bay b).state ≠ .ASSIGNED) : bDispatch b (some ()) s = (s, stateRefusal (s.bay b)) := if_pos h

variable (hstate : (s.bay b).state = .ASSIGNED)
include hstate

theorem bDispatch_line {l : LineRec} (h : (s.bay b).lines.find? (fun m => m.state != .VERIFIED) = some l) :
    bDispatch b (some ()) s = (s, er .LINE_STATE [fld "C" (dec l.comp)]) := by
  simp only [bDispatch, hstate, ne_eq, not_true_eq_false, if_false, h]

variable (hlines : ∀ l ∈ (s.bay b).lines, l.state = .VERIFIED) {x : Doc} {n : Nat} {p : Plan}
  (hx : (s.bay b).doc.bind s.docOf = some x) (hn : (s.bay b).driver = some n) (hp : (s.bay b).plan = some p)
include hlines hx hn hp

theorem verified_find? : (s.bay b).lines.find? (fun m => m.state != .VERIFIED) = none :=
  List.find?_eq_none.2 fun l hl => by simp [hlines l hl]

theorem bDispatch_limit {v : VerdictRec} (h : dispatchAnswer s n b p = .limit v) : bDispatch b (some ()) s =
    (changeBay b "HOLD" false .stateFirst (BayUnit.limited v) (dispatchCheck n b p s),
      er .HOURS_LIMIT [fld "LEAST" (leastText v.least v.test), fld "MARKS" (commasOrNone (v.marks.map testText))]) := by
  simp only [bDispatch, hstate, ne_eq, not_true_eq_false, if_false, verified_find? hstate hlines hx hn hp, hx, hn, hp, h]

theorem bDispatch_full {v : VerdictRec} (h : dispatchAnswer s n b p = .listFull v) : bDispatch b (some ()) s =
    (dispatchCheck n b p s, er .LIST_FULL [fld "DRV" (drvText n)]) := by
  simp only [bDispatch, hstate, ne_eq, not_true_eq_false, if_false, verified_find? hstate hlines hx hn hp, hx, hn, hp, h]

/-- What DISPATCH makes of the bay, but for RELEASE. -/
def dispatchedBay (v : VerdictRec) (r : LogRec) (u : BayUnit) : BayUnit :=
  { u with state := .DISPATCHING, verdict := some v, outbox := u.outbox ++ [r] }

theorem bDispatch_go {v : VerdictRec} (h : dispatchAnswer s n b p = .go v) : bDispatch b (some ()) s =
    (postFrom (.B b) (changeBay b "DISPATCH" false .stateFirst
        (dispatchedBay v (dispatchRecord (dispatchCheck n b p s) b x n v)) (dispatchCheck n b p s)),
      ok (fld "STATE" "DISPATCHING" :: verdictReply v)) := by
  simp only [bDispatch, hstate, ne_eq, not_true_eq_false, if_false, verified_find? hstate hlines hx hn hp, hx, hn, hp, h]
  rfl

end

/-- The bay held on HOURS. -/
abbrev limitedBay (v : VerdictRec) (u : BayUnit) : BayUnit :=
  { u with verdict := some v, holds := { u.holds with hours := true }, state := .HELD, release := false }

theorem drive_limited (v : VerdictRec) {u : BayUnit} (h : u.state = .ASSIGNED) :
    (BayUnit.limited v u).drive = limitedBay v u := by
  have hheld : ({ u.holds with hours := true } : Holds) ≠ Holds.none :=
    fun e => absurd (congrArg Holds.hours e) Bool.true_eq_false.mp
  unfold BayUnit.limited
  rw [BayLines.adjust_assigned (by exact h), if_neg hheld]
  exact Apply.drive_of_not_loading nofun

theorem drive_dispatched (v : VerdictRec) (r : LogRec) (u : BayUnit) : (dispatchedBay v r u).drive =
    { u with state := .DISPATCHING, verdict := some v, outbox := u.outbox ++ [r], release := false } :=
  Apply.drive_of_not_loading (by simp [dispatchedBay])

/-- The driver's record alone differs after a check. -/
theorem driverChanged (b : Bay) (n : Nat) {f : Driver → Driver} (hf : ∀ x, (f x).num = x.num) (h : Hdr) (s : State) :
    (∀ m, m ≠ n → (modDriver n f (underKey h s)).driverOf m = s.driverOf m) ∧
      OtherBaysKept b s (modDriver n f (underKey h s)) ∧ (modDriver n f (underKey h s)).bays = s.bays ∧
      (modDriver n f (underKey h s)).dv = s.dv ∧
      (modDriver n f (underKey h s)).dt = { s.dt with drivers := (modDriver n f (underKey h s)).dt.drivers } ∧
      (modDriver n f (underKey h s)).cp = s.cp ∧ (modDriver n f (underKey h s)).ts = s.ts ∧
      (modDriver n f (underKey h s)).dl = s.dl :=
  ⟨fun m hm => driverOf_modDriver_ne n m f hf (underKey h s) hm, ⟨fun _ _ => rfl, rfl, rfl, rfl, rfl, rfl, rfl⟩, rfl, rfl, rfl,
    rfl, rfl, rfl⟩

/-- Settles O39: the tests in their order, and the three answers of DT. -/
theorem dispatchMakesTheRecord : Obligations.DispatchMakesTheRecord := by
  intro h b n x p y s hready
  dsimp only
  have hout {t : State} {r : Answer} (hact : bDispatch b (some ()) (underKey h s) = (t, r)) :
      exec (.bDispatch h b (some ())) s = Answers h (unitText (.B b)) r t :=
    exec_act (c := .bDispatch h b (some ())) rfl hready hact
  refine ⟨fun h1 h2 => ?_, fun hheld => ?_, fun l hstate hl => hout (bDispatch_line (s := underKey h s) hstate hl),
    fun hstate hlines hx hn hp hy hbay => ?_⟩
  · rw [hout (bDispatch_state (s := underKey h s) h1), stateRefusal, if_neg (by exact h2)]
  · rw [hout (bDispatch_state (s := underKey h s) (by exact hheld ▸ nofun)), stateRefusal, if_pos (by exact hheld)]
    rfl
  have hanswer := dispatchAnswer_eq (s := underKey h s) (p := p) hy hbay
  rw [show (underKey h s).verdict y.list p = s.verdict y.list p from rfl,
    show (underKey h s).departList y.list = s.pruned (openEntry s.nowMin .DRIVE (closeOpen s.nowMin y.list)) from rfl]
    at hanswer
  generalize s.verdict y.list p = v at hanswer ⊢
  refine ⟨fun hlimit => ?_, fun hlimit hfull => ?_, fun hlimit hroom => ?_⟩
  · rw [if_pos hlimit] at hanswer
    obtain ⟨heq, wdriver⟩ := dispatchCheck_limit (s := underKey h s) hy hbay hanswer
    have hact := bDispatch_limit (s := underKey h s) hstate hlines hx hn hp hanswer
    rw [heq] at wdriver hact
    obtain ⟨wothers, wkept, wbays, wdv, wdt, wcp, wts, wdl⟩ := driverChanged b n (f := fun x => { x with last := some v })
      (fun _ => by rfl) h s
    generalize modDriver n (fun x => { x with last := some v }) (underKey h s) = w at *
    have wbay : w.bay b = s.bay b := Amendments.bay_of_bays wbays b
    obtain ⟨tbay, tnotices, ⟨tothers, tdt, tcp, tts, tdl⟩⟩ := changeBay_told (b := b) (s := w) (reason := "HOLD")
      (lines := false) (drive_limited v (u := w.bay b) (by rw [wbay]; exact hstate))
    rw [wbay, wdv] at tnotices
    rw [wbay] at tbay
    rw [← tbay] at tnotices
    refine ⟨_, hout hact, tbay, tnotices, ⟨(driverOf_congr tdt n).trans wdriver,
      fun m hm => (driverOf_congr tdt m).trans (wothers m hm), ?_, otherBaysKept_trans wkept tothers, tcp.trans wcp,
      tts.trans wts⟩, tdl.trans wdl⟩
    rw [tdt]
    exact wdt
  · rw [if_neg hlimit, if_pos hfull] at hanswer
    obtain ⟨heq, wdriver⟩ := dispatchCheck_full (s := underKey h s) hy hbay hanswer
    have hact := bDispatch_full (s := underKey h s) hstate hlines hx hn hp hanswer
    rw [heq] at wdriver hact
    obtain ⟨wothers, wkept, wbays, wdv, wdt, wcp, wts, wdl⟩ := driverChanged b n (f := fun x => { x with last := some v })
      (fun _ => by rfl) h s
    exact ⟨_, hout hact, wbays, wdv, ⟨wdriver, wothers, wdt, wkept, wcp, wts⟩, wdl⟩
  · rw [if_neg hlimit, if_neg hroom] at hanswer
    obtain ⟨heq, wdriver⟩ := dispatchCheck_go (s := underKey h s) hy hbay hanswer
    have hact := bDispatch_go (s := underKey h s) hstate hlines hx hn hp hanswer
    rw [heq] at wdriver hact
    obtain ⟨wothers, wkept, wbays, wdv, wdt, wcp, wts, wdl⟩ := driverChanged b n
      (f := fun x => { x with last := some v, pend := true }) (fun _ => by rfl) h s
    have hrec : dispatchRecord (modDriver n (fun x => { x with last := some v, pend := true }) (underKey h s)) b x n v =
      dispatchRecord s b x n v := rfl
    rw [hrec] at hact
    generalize modDriver n (fun x => { x with last := some v, pend := true }) (underKey h s) = w at *
    have wbay : w.bay b = s.bay b := Amendments.bay_of_bays wbays b
    obtain ⟨tbay, tnotices, ⟨tothers, tdt, tcp, tts, tdl⟩⟩ := changeBay_told (b := b) (s := w) (reason := "DISPATCH")
      (lines := false) (drive_dispatched v (dispatchRecord s b x n v) (w.bay b))
    rw [wbay, wdv] at tnotices
    rw [wbay] at tbay
    rw [← tbay] at tnotices
    generalize changeBay b "DISPATCH" false .stateFirst (dispatchedBay v (dispatchRecord s b x n v)) w = t at *
    have hpost := postFrom_frame (.B b) t
    refine ⟨_, dispatchRecord s b x n v, hout hact, rfl, rfl, ?_⟩
    have pposted : Posted (.B b) s (postFrom (.B b) t) := posted_postFrom _ (tdl.trans wdl)
    have pothers := otherBaysKept_trans (otherBaysKept_trans wkept tothers) (otherBaysKept_postFrom b (.B b) t)
    generalize postFrom (.B b) t = q at *
    have qbay : q.bay b = t.bay b := by
      rw [hpost]
      rfl
    have qdt : q.dt = t.dt := by rw [hpost]
    have qdv : q.dv = t.dv := by rw [hpost]
    have qcp : q.cp = t.cp := by rw [hpost]
    have qts : q.ts = t.ts := by rw [hpost]
    refine ⟨qbay.trans tbay, ?_, ⟨(driverOf_congr (qdt.trans tdt) n).trans wdriver,
      fun m hm => (driverOf_congr (qdt.trans tdt) m).trans (wothers m hm), ?_, pothers, qcp.trans (tcp.trans wcp),
      qts.trans (tts.trans wts)⟩, pposted⟩
    · rw [qbay, qdv]
      exact tnotices
    · rw [qdt, tdt]
      exact wdt

end Sys2Proof.Proofs.BayBinding

/-! PROOFS. Bindings by what a number finds (R111): which document and driver stands bound to which bay, and what each bay
keeps of its own, each said for one bay. -/

namespace Sys2Proof.Proofs.Bindings

open Sys2Proof Sys2Proof.Machine Sys2Proof.Laws.Basic Sys2Proof.Laws.Tables Sys2Proof.Proofs.Keeping

/-! ## What the bindings see of a state -/

/-- What the bindings see of a driver. -/
structure Stand where
  status : DriverStatus
  pend : Bool
  trip : Option String

/-- What the bindings see of the two tables and of the log. -/
structure View where
  doc : String → Option DocState
  driver : Nat → Option Stand
  log : Bay → LogRec → Prop

/-- The append of the bay at the log is of this record. -/
def atLog (s : State) (b : Bay) (r : LogRec) : Prop :=
  ⟨.B b, r⟩ ∈ s.dl.queue ∨ ∃ w ∈ s.dl.writing, w.source = .B b ∧ w.record = r

def Stand.of (x : Driver) : Stand := ⟨x.status, x.pend, x.trip⟩

def view (s : State) : View := ⟨fun d => (s.docOf d).map (·.state), fun n => (s.driverOf n).map Stand.of, atLog s⟩

/-- One bay agrees with the two tables, and with the log (R111, R129 to R132). -/
structure BayBound (v : View) (b : Bay) (u : BayUnit) : Prop where
  doc : u.state.holdsLoad = true → ∃ d, u.doc = some d ∧ v.doc d = some (.BOUND b)
  driver : u.state.holdsLoad = true → ∃ n x, u.driver = some n ∧ v.driver n = some x ∧ x.status = .AT_BAY b
  docAlone : ∀ d, v.doc d = some (.BOUND b) → u.state.holdsLoad = true ∧ u.doc = some d
  driverAlone : ∀ n x, v.driver n = some x → x.status = .AT_BAY b → u.state.holdsLoad = true ∧ u.driver = some n
  ctx : u.ctx.isSome = true → u.state.flowing = true
  records : u.outbox.length ≤ 2 ∧ ∀ r ∈ u.outbox, bayBody r.body = true
  quiet : u.state.holdsLoad = true → u.state ≠ .DISPATCHING → u.outbox = []
  leaving : u.state = .DISPATCHING → ∃ r e x, u.outbox = [r] ∧ dispatchOf r.body = some e ∧ e.bay = b ∧
    u.doc = some e.doc ∧ u.driver = some e.drv ∧ v.driver e.drv = some x ∧ x.pend = true
  log : ∀ r, v.log b r → u.outbox.head? = some r

/-- A driver on a trip has the trip document, RELEASED and his alone. -/
structure TripsOwn (v : View) : Prop where
  released : ∀ n x, v.driver n = some x → x.status = .ON_TRIP → ∃ d, x.trip = some d ∧ v.doc d = some .RELEASED
  alone : ∀ m n x y, v.driver m = some x → v.driver n = some y → x.status = .ON_TRIP → y.status = .ON_TRIP →
    x.trip = y.trip → m = n

structure Bound (s : State) : Prop where
  sources : s.dl.sources.Nodup
  docNums : (s.cp.docs.map (·.num)).Nodup
  driverNums : (s.dt.drivers.map (·.num)).Nodup
  trips : TripsOwn (view s)
  bays : ∀ b : Bay, BayBound (view s) b (s.bay b)

/-! ## Found by its number -/

theorem view_doc_eq {s : State} (hnum : (s.cp.docs.map (·.num)).Nodup) {d : String} {q : DocState} :
    (view s).doc d = some q ↔ ∃ x ∈ s.cp.docs, x.num = d ∧ x.state = q := by
  unfold view
  dsimp only
  rw [Option.map_eq_some_iff]
  constructor
  · rintro ⟨x, hx, rfl⟩
    exact ⟨x, List.mem_of_find?_eq_some hx, docOf_num hx, rfl⟩
  · rintro ⟨x, hx, rfl, rfl⟩
    exact ⟨x, docOf_of_mem hnum hx, rfl⟩

theorem view_driver_eq {s : State} (hnum : (s.dt.drivers.map (·.num)).Nodup) {n : Nat} {z : Stand} :
    (view s).driver n = some z ↔ ∃ x ∈ s.dt.drivers, x.num = n ∧ Stand.of x = z := by
  unfold view
  dsimp only
  rw [Option.map_eq_some_iff]
  constructor
  · rintro ⟨x, hx, rfl⟩
    exact ⟨x, List.mem_of_find?_eq_some hx, driverOf_num hx, rfl⟩
  · rintro ⟨x, hx, rfl, rfl⟩
    exact ⟨x, driverOf_of_mem hnum hx, rfl⟩

theorem view_doc_of_mem {s : State} (hnum : (s.cp.docs.map (·.num)).Nodup) {x : Doc} (hx : x ∈ s.cp.docs) :
    (view s).doc x.num = some x.state := (view_doc_eq hnum).2 ⟨x, hx, rfl, rfl⟩

theorem view_driver_of_mem {s : State} (hnum : (s.dt.drivers.map (·.num)).Nodup) {x : Driver} (hx : x ∈ s.dt.drivers) :
    (view s).driver x.num = some (Stand.of x) := (view_driver_eq hnum).2 ⟨x, hx, rfl, rfl⟩

theorem tripsOwn_iff {s : State} (hdocs : (s.cp.docs.map (·.num)).Nodup) (hdrivers : (s.dt.drivers.map (·.num)).Nodup) :
    TripsApart s ↔ TripsOwn (view s) := by
  constructor
  · rintro ⟨hreleased, halone⟩
    refine ⟨fun n z hz htrip => ?_, fun m n y z hy hz htrip htrip' hsame => ?_⟩
    · obtain ⟨x, hx, rfl, rfl⟩ := (view_driver_eq hdrivers).1 hz
      obtain ⟨d, hd, hdoc, hstate⟩ := hreleased x hx htrip
      exact ⟨d.num, hdoc, (view_doc_eq hdocs).2 ⟨d, hd, rfl, hstate⟩⟩
    · obtain ⟨x, hx, rfl, rfl⟩ := (view_driver_eq hdrivers).1 hy
      obtain ⟨x', hx', rfl, rfl⟩ := (view_driver_eq hdrivers).1 hz
      exact halone x hx x' hx' htrip htrip' hsame
  · intro h
    refine ⟨fun x hx htrip => ?_, fun x hx y hy htrip htrip' hsame => ?_⟩
    · obtain ⟨d, hd, hstate⟩ := h.released _ _ (view_driver_of_mem hdrivers hx) htrip
      obtain ⟨y, hy, rfl, hrel⟩ := (view_doc_eq hdocs).1 hstate
      exact ⟨y, hy, hd, hrel⟩
    · exact h.alone _ _ _ _ (view_driver_of_mem hdrivers hx) (view_driver_of_mem hdrivers hy) htrip htrip' hsame

/-- The bindings, said bay by bay of what a number finds. -/
theorem bindings_iff (s : State) : Machine.Bindings s ↔ Bound s := by
  constructor
  · rintro ⟨hsources, ⟨hdocs, hdrivers, hbays, hdocAlone, hdriverAlone⟩, htrips, hctx, hrecords, hquiet, hleaving, hqueue,
      hwriting⟩
    refine ⟨hsources, hdocs, hdrivers, (tripsOwn_iff hdocs hdrivers).1 htrips, fun b => ?_⟩
    refine ⟨fun h => ?_, fun h => ?_, fun d hd => ?_, fun n z hz hat => ?_, hctx b, hrecords b, hquiet b, fun h => ?_, ?_⟩
    · obtain ⟨⟨x, hx, hdoc, hstate⟩, -⟩ := hbays b h
      exact ⟨x.num, hdoc, (view_doc_eq hdocs).2 ⟨x, hx, rfl, hstate⟩⟩
    · obtain ⟨-, x, hx, hdriver, hstatus⟩ := hbays b h
      exact ⟨x.num, _, hdriver, view_driver_of_mem hdrivers hx, hstatus⟩
    · obtain ⟨x, hx, rfl, hstate⟩ := (view_doc_eq hdocs).1 hd
      exact hdocAlone x hx b hstate
    · obtain ⟨x, hx, rfl, rfl⟩ := (view_driver_eq hdrivers).1 hz
      exact hdriverAlone x hx b hat
    · obtain ⟨r, -, hr, x, hx, hpend, hdriver, e, he, hbay, hdoc, hdrv⟩ := hleaving b h
      exact ⟨r, e, _, hr, he, hbay, hdoc, hdrv ▸ hdriver, hdrv ▸ view_driver_of_mem hdrivers hx, hpend⟩
    · rintro r (hr | ⟨w, hw, hsource, rfl⟩)
      · exact hqueue _ hr b rfl
      · exact hwriting w hw b hsource
  · rintro ⟨hsources, hdocs, hdrivers, htrips, hbays⟩
    refine ⟨hsources, ⟨hdocs, hdrivers, fun b h => ⟨?_, ?_⟩, fun x hx b hb => ?_, fun x hx b hb => ?_⟩,
      (tripsOwn_iff hdocs hdrivers).2 htrips, fun b => (hbays b).ctx, fun b => (hbays b).records, fun b => (hbays b).quiet,
      fun b h => ?_, fun a ha b hb => (hbays b).log _ (.inl (hb ▸ ha)), fun w hw b hb => (hbays b).log _ (.inr ⟨w, hw, hb, rfl⟩)⟩
    · obtain ⟨d, hdoc, hd⟩ := (hbays b).doc h
      obtain ⟨x, hx, rfl, hstate⟩ := (view_doc_eq hdocs).1 hd
      exact ⟨x, hx, hdoc, hstate⟩
    · obtain ⟨n, z, hdriver, hz, hat⟩ := (hbays b).driver h
      obtain ⟨x, hx, rfl, rfl⟩ := (view_driver_eq hdrivers).1 hz
      exact ⟨x, hx, hdriver, hat⟩
    · exact (hbays b).docAlone _ (hb ▸ view_doc_of_mem hdocs hx)
    · exact (hbays b).driverAlone _ _ (view_driver_of_mem hdrivers hx) hb
    · obtain ⟨r, e, z, hr, he, hbay, hdoc, hdriver, hz, hpend⟩ := (hbays b).leaving h
      obtain ⟨x, hx, hnum, rfl⟩ := (view_driver_eq hdrivers).1 hz
      exact ⟨r, hr ▸ List.mem_singleton_self r, hr, x, hx, hpend, hnum ▸ hdriver, e, he, hbay, hdoc, hnum.symm⟩

/-! ## What leaves a bay's bindings as they are -/

/-- The bay is bound to the same in both views, and has no new append at the log. -/
structure SeenAlike (c : Bay) (v w : View) : Prop where
  doc : ∀ d, w.doc d = some (.BOUND c) ↔ v.doc d = some (.BOUND c)
  driver : ∀ n x, x.status = .AT_BAY c → (w.driver n = some x ↔ v.driver n = some x)
  log : ∀ r, w.log c r → v.log c r

theorem BayBound.seen {c : Bay} {v w : View} {u : BayUnit} (h : BayBound v c u) (k : SeenAlike c v w) : BayBound w c u where
  doc hload := by
    obtain ⟨d, hdoc, hd⟩ := h.doc hload
    exact ⟨d, hdoc, (k.doc d).2 hd⟩
  driver hload := by
    obtain ⟨n, x, hdriver, hx, hat⟩ := h.driver hload
    exact ⟨n, x, hdriver, (k.driver n x hat).2 hx, hat⟩
  docAlone d hd := h.docAlone d ((k.doc d).1 hd)
  driverAlone n x hx hat := h.driverAlone n x ((k.driver n x hat).1 hx) hat
  ctx := h.ctx
  records := h.records
  quiet := h.quiet
  leaving hstate := by
    obtain ⟨r, e, x, hr, he, hbay, hdoc, hdriver, hx, hpend⟩ := h.leaving hstate
    obtain ⟨n, y, hn, hy, hat⟩ := h.driver (by rw [hstate]; rfl)
    obtain rfl : e.drv = n := Option.some.inj (hdriver.symm.trans hn)
    obtain rfl : x = y := Option.some.inj (hx.symm.trans hy)
    exact ⟨r, e, x, hr, he, hbay, hdoc, hdriver, (k.driver _ x hat).2 hx, hpend⟩
  log r hr := h.log r (k.log r hr)

/-- A change of a bay that leaves its bindings as they are. -/
structure BayFlow (u w : BayUnit) : Prop where
  load : w.state.holdsLoad = u.state.holdsLoad
  leaving : w.state = .DISPATCHING ↔ u.state = .DISPATCHING
  doc : u.state.holdsLoad = true → w.doc = u.doc
  driver : u.state.holdsLoad = true → w.driver = u.driver
  ctx : (u.ctx.isSome = true → u.state.flowing = true) → w.ctx.isSome = true → w.state.flowing = true
  outbox : w.outbox = u.outbox

theorem BayFlow.refl (u : BayUnit) : BayFlow u u := ⟨rfl, .rfl, fun _ => rfl, fun _ => rfl, id, rfl⟩

theorem BayFlow.trans {u w x : BayUnit} (h : BayFlow u w) (k : BayFlow w x) : BayFlow u x where
  load := k.load.trans h.load
  leaving := k.leaving.trans h.leaving
  doc hu := (k.doc (h.load.trans hu)).trans (h.doc hu)
  driver hu := (k.driver (h.load.trans hu)).trans (h.driver hu)
  ctx hu := k.ctx (h.ctx hu)
  outbox := k.outbox.trans h.outbox

/-- A change that leaves the state and what is bound. -/
theorem BayFlow.of_same {u w : BayUnit} (hstate : w.state = u.state) (hdoc : w.doc = u.doc) (hdriver : w.driver = u.driver)
    (hctx : w.ctx.isSome = u.ctx.isSome) (houtbox : w.outbox = u.outbox) : BayFlow u w :=
  ⟨by rw [hstate], by rw [hstate], fun _ => hdoc, fun _ => hdriver, by rw [hstate, hctx]; exact id, houtbox⟩

theorem BayBound.flow {v : View} {b : Bay} {u w : BayUnit} (h : BayBound v b u) (k : BayFlow u w) : BayBound v b w where
  doc hload := by
    have hu := k.load.symm.trans hload
    rw [k.doc hu]
    exact h.doc hu
  driver hload := by
    have hu := k.load.symm.trans hload
    rw [k.driver hu]
    exact h.driver hu
  docAlone d hd := by
    obtain ⟨hu, hdoc⟩ := h.docAlone d hd
    exact ⟨k.load.trans hu, (k.doc hu).trans hdoc⟩
  driverAlone n x hx hat := by
    obtain ⟨hu, hdriver⟩ := h.driverAlone n x hx hat
    exact ⟨k.load.trans hu, (k.driver hu).trans hdriver⟩
  ctx := k.ctx h.ctx
  records := by rw [k.outbox]; exact h.records
  quiet hload hstate := by
    rw [k.outbox]
    exact h.quiet (k.load.symm.trans hload) (mt k.leaving.2 hstate)
  leaving hstate := by
    have hu := k.leaving.1 hstate
    have hload : u.state.holdsLoad = true := by rw [hu]; rfl
    rw [k.outbox, k.doc hload, k.driver hload]
    exact h.leaving hu
  log := by rw [k.outbox]; exact h.log

/-! ## What leaves every binding as it is -/

/-- From one state to the next no binding changes, and the log has the same appends. -/
structure Alike (s t : State) : Prop where
  docNums : t.cp.docs.map (·.num) = s.cp.docs.map (·.num)
  driverNums : t.dt.drivers.map (·.num) = s.dt.drivers.map (·.num)
  docs : ∀ d, (view t).doc d = (view s).doc d
  drivers : ∀ n, (view t).driver n = (view s).driver n
  bays : ∀ b : Bay, BayFlow (s.bay b) (t.bay b)
  queue : t.dl.queue = s.dl.queue
  writing : t.dl.writing = s.dl.writing

theorem Alike.refl (s : State) : Alike s s := ⟨rfl, rfl, fun _ => rfl, fun _ => rfl, fun _ => .refl _, rfl, rfl⟩

theorem Alike.trans {s t u : State} (h : Alike s t) (k : Alike t u) : Alike s u :=
  ⟨k.docNums.trans h.docNums, k.driverNums.trans h.driverNums, fun d => (k.docs d).trans (h.docs d),
    fun n => (k.drivers n).trans (h.drivers n), fun b => (h.bays b).trans (k.bays b), k.queue.trans h.queue,
    k.writing.trans h.writing⟩

theorem Alike.view_eq {s t : State} (h : Alike s t) : view t = view s := by
  have hlog : atLog t = atLog s := by
    funext b r
    unfold atLog
    rw [h.queue, h.writing]
  have hdoc : (view t).doc = (view s).doc := funext h.docs
  have hdriver : (view t).driver = (view s).driver := funext h.drivers
  unfold view at *
  rw [hlog]
  dsimp only at hdoc hdriver
  rw [hdoc, hdriver]

/-- What no step undoes: the bindings that hold before hold after. -/
def BoundKept (s t : State) : Prop := Bound s → Bound t

theorem Alike.kept {s t : State} (h : Alike s t) : BoundKept s t := fun hs => by
  refine ⟨?_, h.docNums ▸ hs.docNums, h.driverNums ▸ hs.driverNums, h.view_eq ▸ hs.trips, fun b => ?_⟩
  · unfold Dl.sources
    rw [h.queue, h.writing]
    exact hs.sources
  · rw [h.view_eq]
    exact (hs.bays b).flow (h.bays b)

theorem BoundKept.refl (s : State) : BoundKept s s := id

theorem BoundKept.trans {s t u : State} (h : BoundKept s t) (k : BoundKept t u) : BoundKept s u := k ∘ h

/-! ## Updates of one unit -/

/-- An update of the bays that leaves their bindings as they are. -/
theorem Alike.of_bays {s t : State} (hcp : t.cp.docs = s.cp.docs) (hdt : t.dt.drivers = s.dt.drivers)
    (hqueue : t.dl.queue = s.dl.queue) (hwriting : t.dl.writing = s.dl.writing)
    (hbays : ∀ b : Bay, BayFlow (s.bay b) (t.bay b)) : Alike s t where
  docNums := by rw [hcp]
  driverNums := by rw [hdt]
  docs d := by unfold view; dsimp only; rw [State.docOf, hcp]; rfl
  drivers n := by unfold view; dsimp only; rw [State.driverOf, hdt]; rfl
  bays := hbays
  queue := hqueue
  writing := hwriting

/-- An update of the units that bind nothing. -/
theorem Alike.of_frame {s t : State} (hcp : t.cp.docs = s.cp.docs) (hdt : t.dt.drivers = s.dt.drivers)
    (hbays : t.bays = s.bays) (hqueue : t.dl.queue = s.dl.queue) (hwriting : t.dl.writing = s.dl.writing) : Alike s t :=
  .of_bays hcp hdt hqueue hwriting fun b => by rw [State.bay, State.bay, hbays]; exact .refl _

theorem Alike.modDv (f : Dv → Dv) (s : State) : Alike s (s.modDv f) := .of_frame rfl rfl rfl rfl rfl
theorem Alike.modCk (f : Ck → Ck) (s : State) : Alike s (s.modCk f) := .of_frame rfl rfl rfl rfl rfl
theorem Alike.modTs (f : Ts → Ts) (s : State) : Alike s (s.modTs f) := .of_frame rfl rfl rfl rfl rfl
theorem Alike.modSt (f : St → St) (s : State) : Alike s (s.modSt f) := .of_frame rfl rfl rfl rfl rfl

theorem Alike.modDl {f : Dl → Dl} {s : State} (hqueue : (f s.dl).queue = s.dl.queue)
    (hwriting : (f s.dl).writing = s.dl.writing) : Alike s (s.modDl f) := .of_frame rfl rfl rfl hqueue hwriting

theorem Alike.modDt {f : Dt → Dt} {s : State} (h : (f s.dt).drivers = s.dt.drivers) : Alike s (s.modDt f) :=
  .of_frame rfl h rfl rfl rfl

theorem Alike.modCp {f : Cp → Cp} {s : State} (h : (f s.cp).docs = s.cp.docs) : Alike s (s.modCp f) :=
  .of_frame h rfl rfl rfl rfl

theorem Alike.setBay {b : Bay} {u : BayUnit} {s : State} (h : BayFlow (s.bay b) u) : Alike s (s.setBay b u) :=
  .of_bays rfl rfl rfl rfl (bay_setBay_cases (P := fun c w => BayFlow (s.bay c) w) h fun _ _ => .refl _)

theorem Alike.modBay {b : Bay} {f : BayUnit → BayUnit} {s : State} (h : BayFlow (s.bay b) (f (s.bay b))) :
    Alike s (s.modBay b f) := .setBay h

/-- An update of one driver that the bindings do not see. -/
theorem Alike.modDriver {n : Nat} {f : Driver → Driver} {s : State} (hf : ∀ x, (f x).num = x.num)
    (h : ∀ x, s.driverOf n = some x → Stand.of (f x) = Stand.of x) : Alike s (modDriver n f s) where
  docNums := rfl
  driverNums := map_num_ite Driver.num (p := fun x => (x.num == n) = true) hf s.dt.drivers
  docs _ := rfl
  drivers m := by
    show ((Machine.modDriver n f s).driverOf m).map Stand.of = (s.driverOf m).map Stand.of
    by_cases e : m = n
    · subst e
      rcases hx : s.driverOf m with _ | x
      · rw [driverOf_modDriver m m f hf, hx]; rfl
      · rw [driverOf_modDriver_self m f hf s hx]; exact congrArg some (h x hx)
    · rw [driverOf_modDriver_ne n m f hf s e]
  bays _ := .refl _
  queue := rfl
  writing := rfl

/-- An update of one document that leaves its state. -/
theorem Alike.modDoc {d : String} {f : Doc → Doc} {s : State} (hf : ∀ x, (f x).num = x.num)
    (h : ∀ x, s.docOf d = some x → (f x).state = x.state) : Alike s (modDoc d f s) where
  docNums := map_num_ite Doc.num (p := fun x => (x.num == d) = true) hf s.cp.docs
  driverNums := rfl
  docs e := by
    show ((Machine.modDoc d f s).docOf e).map Doc.state = (s.docOf e).map Doc.state
    by_cases he : e = d
    · subst he
      rcases hx : s.docOf e with _ | x
      · rw [docOf_modDoc e e f hf, hx]; rfl
      · rw [docOf_modDoc_self e f hf s hx]; exact congrArg some (h x hx)
    · rw [docOf_modDoc_ne d e f hf s he]
  drivers _ := rfl
  bays _ := .refl _
  queue := rfl
  writing := rfl

/-! ## The shared operations -/

theorem Alike.raise (u : UnitName) (k : NKind) (fs : List Fld) (s : State) : Alike s (raise u k fs s) := .modDv _ s

theorem Alike.raiseIf (c : Bool) (u : UnitName) (k : NKind) (fs : List Fld) (s : State) : Alike s (raiseIf c u k fs s) := by
  unfold Machine.raiseIf
  split
  · exact .raise u k fs s
  · exact .refl s

theorem Alike.setComponents (g : Dv → Dv) (s : State) : Alike s (setComponents g s) := by
  unfold Machine.setComponents
  exact .trans (.modDv g s) (.raiseIf _ _ _ _ _)

/-- Driving RELEASE binds nothing. -/
theorem BayFlow.drive {u w : BayUnit} (h : BayFlow u w) : BayFlow u w.drive := h.trans (.of_same rfl rfl rfl rfl rfl)

theorem Alike.changeBay {b : Bay} {reason : String} {lines : Bool} {o : NoticeOrder} {f : BayUnit → BayUnit} {s : State}
    (h : BayFlow (s.bay b) (f (s.bay b))) : Alike s (changeBay b reason lines o f s) := by
  refine .of_bays (by simp) (by simp) (by simp) (by simp) fun c => ?_
  by_cases e : b = c
  · subst e
    rw [bay_changeBay_self]
    exact h.drive
  · rw [bay_changeBay_ne _ _ _ _ _ _ _ e]
    exact .refl _

theorem Alike.foldl {α : Type} {f : State → α → State} (h : ∀ t a, Alike t (f t a)) (l : List α) (s : State) :
    Alike s (l.foldl f s) := by
  induction l generalizing s with
  | nil => exact .refl s
  | cons a l ih => exact (h s a).trans (ih _)

theorem Alike.forBays {f : Bay → State → State} (h : ∀ b t, Alike t (f b t)) (s : State) : Alike s (forBays f s) :=
  .foldl (fun t b => h b t) _ s

end Sys2Proof.Proofs.Bindings

/-! PROOFS. The changes of a bay, the sampler's results and the posts leave the bindings as they are (R111). -/

namespace Sys2Proof.Proofs.Bindings

open Sys2Proof Sys2Proof.Machine Sys2Proof.Laws.Basic Sys2Proof.Laws.Tables Sys2Proof.Proofs.Keeping

/-! ## Changes of a bay -/

/-- A bay with a load keeps it: what is bound stays, and no DISPATCH record is made or taken back. -/
theorem BayFlow.of_loaded {u w : BayUnit} (hu : u.state.holdsLoad = true) (hud : u.state ≠ .DISPATCHING)
    (hw : w.state.holdsLoad = true) (hwd : w.state ≠ .DISPATCHING) (hdoc : w.doc = u.doc) (hdriver : w.driver = u.driver)
    (hctx : (u.ctx.isSome = true → u.state.flowing = true) → w.ctx.isSome = true → w.state.flowing = true)
    (houtbox : w.outbox = u.outbox) : BayFlow u w :=
  ⟨hw.trans hu.symm, iff_of_false hwd hud, fun _ => hdoc, fun _ => hdriver, hctx, houtbox⟩

/-- A bay without a load gets none. -/
theorem BayFlow.of_empty {u w : BayUnit} (hu : u.state.holdsLoad = false) (hw : w.state.holdsLoad = false)
    (hctx : (u.ctx.isSome = true → u.state.flowing = true) → w.ctx = none) (houtbox : w.outbox = u.outbox) : BayFlow u w where
  load := hw.trans hu.symm
  leaving := by constructor <;> intro h <;> simp [h, BayState.holdsLoad] at hw hu
  doc h := absurd h (by rw [hu]; exact Bool.false_ne_true)
  driver h := absurd h (by rw [hu]; exact Bool.false_ne_true)
  ctx h hsome := absurd hsome (by rw [hctx h]; exact Bool.false_ne_true)
  outbox := houtbox

theorem BayFlow.modLine (c : Nat) (f : LineRec → LineRec) (u : BayUnit) : BayFlow u (u.modLine c f) :=
  .of_same rfl rfl rfl rfl rfl

theorem BayFlow.matchHolds (u : BayUnit) : BayFlow u u.matchHolds := .of_same rfl rfl rfl rfl rfl

/-- A change between ASSIGNED and HELD (R110). -/
theorem BayFlow.adjust (u : BayUnit) : BayFlow u u.adjust := by
  have hloaded {st : BayState} (hst : st = .ASSIGNED ∨ st = .HELD) (hu : u.state = .ASSIGNED ∨ u.state = .HELD) :
      BayFlow u { u with state := st } := by
    refine .of_loaded ?_ ?_ ?_ ?_ rfl rfl (fun h hsome => ?_) rfl
    · rcases hu with hu | hu <;> rw [hu] <;> rfl
    · rcases hu with hu | hu <;> rw [hu] <;> nofun
    · rcases hst with rfl | rfl <;> rfl
    · rcases hst with rfl | rfl <;> nofun
    · have hflow := h hsome
      rcases hu with hu | hu <;> rw [hu] at hflow <;> exact nomatch hflow
  rw [adjust_eq]
  split
  · split
    · exact hloaded (.inl rfl) (.inr ‹_›)
    · exact hloaded (.inr rfl) (.inr ‹_›)
  · split
    · exact hloaded (.inl rfl) (.inl ‹_›)
    · exact hloaded (.inr rfl) (.inl ‹_›)
  · exact .of_same rfl rfl rfl rfl rfl

/-- The three states with an active compartment hold a load. -/
theorem flowing_iff (st : BayState) : st.flowing = true ↔ st = .LOADING ∨ st = .PAUSED ∨ st = .FINISHING := by
  cases st <;> simp [BayState.flowing]

theorem flowing_holdsLoad {st : BayState} (h : st.flowing = true) : st.holdsLoad = true ∧ st ≠ .DISPATCHING := by
  rcases (flowing_iff st).1 h with rfl | rfl | rfl <;> exact ⟨rfl, nofun⟩

/-- A change between the states with an active compartment. -/
theorem BayFlow.of_flowing {u w : BayUnit} (hu : u.state.flowing = true) (hw : w.state.flowing = true) (hdoc : w.doc = u.doc)
    (hdriver : w.driver = u.driver) (houtbox : w.outbox = u.outbox) : BayFlow u w :=
  .of_loaded (flowing_holdsLoad hu).1 (flowing_holdsLoad hu).2 (flowing_holdsLoad hw).1 (flowing_holdsLoad hw).2 hdoc hdriver
    (fun _ _ => hw) houtbox

theorem BayFlow.finish {u : BayUnit} (h : u.state.flowing = true) : BayFlow u u.finish := by
  unfold BayUnit.finish
  split
  · exact .of_flowing h rfl rfl rfl rfl
  · exact .of_flowing h rfl rfl rfl rfl

theorem BayFlow.pauseFor {u : BayUnit} (h : u.state.flowing = true) (halt : Bool) : BayFlow u (u.pauseFor halt) :=
  .of_flowing h rfl rfl rfl rfl

/-- A compartment ends: the bay has its load, and no line is active. -/
theorem BayFlow.ended {u w : BayUnit} (hu : u.state.flowing = true) (hw : w.state = .ASSIGNED ∨ w.state = .HELD)
    (hctx : w.ctx = none) (hdoc : w.doc = u.doc) (hdriver : w.driver = u.driver) (houtbox : w.outbox = u.outbox) :
    BayFlow u w := by
  refine .of_loaded (flowing_holdsLoad hu).1 (flowing_holdsLoad hu).2 ?_ ?_ hdoc hdriver (fun _ hsome => ?_) houtbox
  · rcases hw with hw | hw <;> rw [hw] <;> rfl
  · rcases hw with hw | hw <;> rw [hw] <;> nofun
  · rw [hctx] at hsome; exact nomatch hsome

/-- Emptying a bay that holds no load. -/
theorem BayFlow.empty {u : BayUnit} {st : BayState} (hu : u.state.holdsLoad = false) (hst : st.holdsLoad = false) :
    BayFlow u (u.empty st) := .of_empty hu hst (fun _ => rfl) rfl

/-! ## The bays' operations -/

theorem Alike.enterFinishing {b : Bay} {s : State} (h : (s.bay b).state.flowing = true) (reason : String) :
    Alike s (enterFinishing b reason s) := .changeBay (.finish h)

theorem Alike.freeBay {b : Bay} {s : State} (h : (s.bay b).state = .DISPATCHED) (reason : String) :
    Alike s (freeBay b reason s) := .changeBay (.empty (by rw [h]; rfl) rfl)

theorem Alike.tellState (b : Bay) (reason : String) (s : State) : Alike s (tellState b reason s) := .raise _ _ _ s
theorem Alike.tellHold (b : Bay) (s : State) : Alike s (tellHold b s) := .raise _ _ _ s
theorem Alike.tellLate (b : Bay) (doc : String) (s : State) : Alike s (tellLate b doc s) := .raise _ _ _ s

/-- The bay's change on an amendment leaves what is bound (R135). -/
theorem Alike.noteAmendment (b : Bay) (n : AmendNote) (s : State) : Alike s (noteAmendment b n s) := by
  rcases n with c | c | c | ⟨c, pos⟩ <;> unfold Machine.noteAmendment
  · dsimp only
    split
    · split
      · exact .changeBay (((BayFlow.modLine _ _ _).trans (.matchHolds _)).trans (.adjust _))
      · exact .refl s
    · exact .refl s
  · exact .refl s
  · exact .changeBay (.of_same rfl rfl rfl rfl rfl)
  · exact .changeBay (.of_same rfl rfl rfl rfl rfl)

/-! ## The sampler -/

/-- A result is for a compartment that is active, and the last one ends it (R118, R123). -/
theorem BoundKept.takeResult (b : Bay) (temp : Option Int) (w : Nat) (final : Bool) (s : State) :
    BoundKept s (takeResult b temp w final s) := fun hs => by
  unfold Machine.takeResult
  split
  · exact hs
  · rename_i c hc
    have hflow := (hs.bays b).ctx (by rw [hc]; rfl)
    split
    · have hended (v : BayUnit) (hv : BayFlow (s.bay b) v) (hstate : v.state = (s.bay b).state) :
          BayFlow (s.bay b) (BayUnit.adjust { v.matchHolds with state := .ASSIGNED, ctx := none }) := by
        refine .trans ?_ (.adjust _)
        exact hv.trans (.ended (hstate ▸ hflow) (.inl rfl) rfl rfl rfl rfl)
      exact (Alike.changeBay (hended _ (.modLine _ _ _) rfl)).kept hs
    · exact (Alike.modBay (.modLine _ _ _)).kept hs

theorem Alike.chooseWork (s : State) : Alike s (chooseWork s) := by
  unfold Machine.chooseWork
  split
  · split
    · exact .modTs _ s
    · split
      · exact .refl s
      · split
        · exact .modTs _ s
        · exact .refl s
  · exact .refl s

theorem BoundKept.tsPost (b : Bay) (w : Nat) (final : Bool) (s : State) : BoundKept s (tsPost b w final s) := by
  unfold Machine.tsPost
  split
  · exact .takeResult b none w final s
  · exact ((Alike.modTs _ s).trans (.chooseWork _)).kept

theorem Alike.tsWithdraw (b : Bay) (s : State) : Alike s (tsWithdraw b s) := .modTs _ s

theorem BoundKept.faultReq (b : Bay) (s : State) : BoundKept s (faultReq b s) := by
  unfold Machine.faultReq
  split
  · exact .trans (Alike.modTs _ s).kept (.takeResult b none _ _ _)
  · exact .refl s

theorem BoundKept.foldl {α : Type} {f : State → α → State} (h : ∀ t a, BoundKept t (f t a)) (l : List α) (s : State) :
    BoundKept s (l.foldl f s) := by
  induction l generalizing s with
  | nil => exact .refl s
  | cons a l ih => exact (h s a).trans (ih _)

theorem BoundKept.forBays {f : Bay → State → State} (h : ∀ b t, BoundKept t (f b t)) (s : State) :
    BoundKept s (forBays f s) := .foldl (fun t b => h b t) _ s

theorem BoundKept.faultAll (s : State) : BoundKept s (faultAll s) := .foldl (fun t b => .faultReq b t) _ s

theorem Alike.tellHealth (lo hi : Nat) (s : State) : Alike s (tellHealth lo hi s) := .raise _ _ _ s

theorem BoundKept.calOutcome (lo hi : Nat) (s : State) : BoundKept s (calOutcome lo hi s) := by
  unfold Machine.calOutcome
  dsimp only
  split
  · split
    · exact (((Alike.modTs _ s).trans (.tellHealth lo hi _)).trans (.setComponents _ _)).kept
    · exact (Alike.modTs _ s).kept
  · split
    · exact (Alike.tellHealth lo hi s).kept
    · exact (BoundKept.trans (Alike.modTs _ s).kept (.faultAll _)).trans
        ((Alike.tellHealth lo hi _).trans (.setComponents _ _)).kept

theorem Alike.calDue (s : State) : Alike s (calDue s) := .trans (.modTs _ s) (.chooseWork _)

theorem BoundKept.deliver (b : Bay) (code : Nat) (s : State) : BoundKept s (deliver b code s) := by
  unfold Machine.deliver
  split
  · exact .trans (Alike.modTs _ s).kept (.takeResult b _ _ _ _)
  · exact .refl s

theorem Alike.freeConverter (s : State) : Alike s (freeConverter s) := .modTs _ s

theorem BoundKept.sampleDone (c1 c2 : Adc) (s : State) : BoundKept s (sampleDone c1 c2 s) := by
  unfold Machine.sampleDone
  split
  · refine .trans ?_ ((Alike.freeConverter _).trans (.chooseWork _)).kept
    split
    · exact .refl s
    · exact .deliver _ _ s
  · exact .refl s

theorem BoundKept.calibrationDone (l1 l2 h1 h2 : Adc) (s : State) : BoundKept s (calibrationDone l1 l2 h1 h2 s) := by
  unfold Machine.calibrationDone
  dsimp only
  split
  · exact (BoundKept.trans (Alike.modTs _ s).kept (.calOutcome _ _ _)).trans
      ((Alike.freeConverter _).trans (.chooseWork _)).kept
  · exact .refl s

/-! ## Posts (R174) -/

/-- A post is of the oldest record of a source that has no append at the log. -/
theorem BoundKept.postFrom (src : LogSource) (s : State) : BoundKept s (postFrom src s) := fun hs => by
  rcases postFrom_cases src s with h | ⟨r, rs, hno, houtbox, h⟩ <;> rw [h]
  · exact hs
  have hnew : src ∉ s.dl.sources := by rw [← hasAppend_iff, hno]; exact Bool.false_ne_true
  refine ⟨?_, hs.docNums, hs.driverNums, ⟨hs.trips.released, hs.trips.alone⟩, fun b => ?_⟩
  · have happ : ((s.modDl fun d => { d with queue := d.queue ++ [⟨src, r⟩] }).dl).sources = s.dl.sources ++ [src] := by
      simp [Dl.sources]
    rw [happ]
    exact List.nodup_append.2
      ⟨hs.sources, by simp, by rintro a ha b hb rfl; exact hnew (List.mem_singleton.1 hb ▸ ha)⟩
  · have hb := hs.bays b
    refine { hb with log := fun x hx => ?_ }
    rcases hx with hx | hx
    · rcases List.mem_append.1 hx with hx | hx
      · exact hb.log x (.inl hx)
      · obtain ⟨hsrc, rfl⟩ := Append.mk.inj (List.mem_singleton.1 hx)
        rw [← hsrc] at houtbox
        exact (congrArg List.head? houtbox).trans rfl
    · exact hb.log x (.inr hx)

end Sys2Proof.Proofs.Bindings

/-! PROOFS. What a bind, an unbind and a dispatch do to the bindings of the one bay (R111, R115, R127, R132). -/

namespace Sys2Proof.Proofs.Bindings

open Sys2Proof Sys2Proof.Machine Sys2Proof.Laws.Basic Sys2Proof.Laws.Tables Sys2Proof.Proofs.Keeping

/-! ## One entry of a table -/

def View.setDoc (d : String) (q : DocState) (v : View) : View :=
  { v with doc := fun e => if e = d then some q else v.doc e }

def View.setDriver (n : Nat) (z : Stand) (v : View) : View :=
  { v with driver := fun m => if m = n then some z else v.driver m }

section
variable (v : View) (d : String) (q : DocState) (n : Nat) (z : Stand)
@[simp] theorem doc_setDoc_self : (v.setDoc d q).doc d = some q := if_pos rfl
@[simp] theorem driver_setDriver_self : (v.setDriver n z).driver n = some z := if_pos rfl
@[simp] theorem doc_setDriver : (v.setDriver n z).doc = v.doc := rfl
@[simp] theorem driver_setDoc : (v.setDoc d q).driver = v.driver := rfl
@[simp] theorem log_setDriver : (v.setDriver n z).log = v.log := rfl
@[simp] theorem log_setDoc : (v.setDoc d q).log = v.log := rfl
end

theorem doc_setDoc_ne {v : View} {d e : String} {q : DocState} (h : e ≠ d) : (v.setDoc d q).doc e = v.doc e := if_neg h
theorem driver_setDriver_ne {v : View} {m n : Nat} {z : Stand} (h : m ≠ n) : (v.setDriver n z).driver m = v.driver m :=
  if_neg h

theorem SeenAlike.refl (c : Bay) (v : View) : SeenAlike c v v := ⟨fun _ => .rfl, fun _ _ _ => .rfl, fun _ => id⟩

theorem SeenAlike.trans {c : Bay} {v w x : View} (h : SeenAlike c v w) (k : SeenAlike c w x) : SeenAlike c v x :=
  ⟨fun d => (k.doc d).trans (h.doc d), fun n z hz => (k.driver n z hz).trans (h.driver n z hz),
    fun r hr => h.log r (k.log r hr)⟩

/-- A document that is bound to the bay neither before nor after. -/
theorem SeenAlike.setDoc {c : Bay} {v : View} {d : String} {q : DocState} (hold : v.doc d ≠ some (.BOUND c))
    (hq : q ≠ .BOUND c) : SeenAlike c v (v.setDoc d q) where
  doc e := by
    by_cases he : e = d
    · subst he
      rw [doc_setDoc_self]
      exact iff_of_false (fun h => hq (Option.some.inj h)) hold
    · rw [doc_setDoc_ne he]
  driver _ _ _ := .rfl
  log _ := id

/-- A driver who is at the bay neither before nor after. -/
theorem SeenAlike.setDriver {c : Bay} {v : View} {n : Nat} {z : Stand} (hold : ∀ x, v.driver n = some x → x.status ≠ .AT_BAY c)
    (hz : z.status ≠ .AT_BAY c) : SeenAlike c v (v.setDriver n z) where
  doc _ := .rfl
  driver m x hx := by
    by_cases hm : m = n
    · subst hm
      rw [driver_setDriver_self]
      exact iff_of_false (fun h => hz (Option.some.inj h ▸ hx)) fun h => hold x h hx
    · rw [driver_setDriver_ne hm]
  log _ := id

/-- A document that was not RELEASED is of no trip. -/
theorem TripsOwn.setDoc {v : View} (h : TripsOwn v) {d : String} (hold : v.doc d ≠ some .RELEASED) (q : DocState) :
    TripsOwn (v.setDoc d q) where
  released n x hx htrip := by
    obtain ⟨e, he, hrel⟩ := h.released n x hx htrip
    have hne : e ≠ d := fun hed => hold (hed ▸ hrel)
    exact ⟨e, he, (doc_setDoc_ne hne).trans hrel⟩
  alone := h.alone

/-- A driver who comes off a trip, or is on none. -/
theorem TripsOwn.setDriver {v : View} (h : TripsOwn v) {n : Nat} {z : Stand} (hz : z.status ≠ .ON_TRIP) :
    TripsOwn (v.setDriver n z) where
  released m x hx htrip := by
    by_cases hm : m = n
    · subst hm
      exact absurd (Option.some.inj ((driver_setDriver_self ..).symm.trans hx) ▸ htrip) hz
    · exact h.released m x ((driver_setDriver_ne hm).symm.trans hx) htrip
  alone m k x y hx hy hxt hyt hsame := by
    by_cases hm : m = n
    · subst hm
      exact absurd (Option.some.inj ((driver_setDriver_self ..).symm.trans hx) ▸ hxt) hz
    · by_cases hk : k = n
      · subst hk
        exact absurd (Option.some.inj ((driver_setDriver_self ..).symm.trans hy) ▸ hyt) hz
      · exact h.alone m k x y ((driver_setDriver_ne hm).symm.trans hx) ((driver_setDriver_ne hk).symm.trans hy) hxt hyt hsame

/-! ## A change of one bay and of what is bound to it -/

/-- From one state to the next bay b alone may differ, the tables keep their numbers and read as the view says, and the log
has the same appends. -/
structure Turned (b : Bay) (s t : State) (v : View) : Prop where
  docNums : t.cp.docs.map (·.num) = s.cp.docs.map (·.num)
  driverNums : t.dt.drivers.map (·.num) = s.dt.drivers.map (·.num)
  view : view t = v
  others : ∀ c : Bay, c ≠ b → t.bay c = s.bay c
  sources : t.dl.sources = s.dl.sources

theorem Turned.refl (b : Bay) (s : State) : Turned b s s (Bindings.view s) := ⟨rfl, rfl, rfl, fun _ _ => rfl, rfl⟩

theorem Turned.trans {b : Bay} {s t u : State} {v w : View} (h : Turned b s t v) (k : Turned b t u w) : Turned b s u w :=
  ⟨k.docNums.trans h.docNums, k.driverNums.trans h.driverNums, k.view, fun c hc => (k.others c hc).trans (h.others c hc),
    k.sources.trans h.sources⟩

/-- An act that leaves the other bays bound as they were keeps every binding, when it does so of the bay itself. -/
theorem Bound.turned {b : Bay} {s t : State} {v : View} (hs : Bound s) (h : Turned b s t v) (htrips : TripsOwn v)
    (hseen : ∀ c, c ≠ b → SeenAlike c (Bindings.view s) v) (hb : BayBound v b (t.bay b)) : Bound t := by
  refine ⟨h.sources ▸ hs.sources, h.docNums ▸ hs.docNums, h.driverNums ▸ hs.driverNums, h.view ▸ htrips, fun c => ?_⟩
  rw [h.view]
  by_cases hc : c = b
  · rw [hc]
    exact hb
  · rw [h.others c hc]
    exact (hs.bays c).seen (hseen c hc)

/-- Where the tables and the log's appends are the same, so is the view. -/
theorem view_congr {s t : State} (hcp : t.cp.docs = s.cp.docs) (hdt : t.dt.drivers = s.dt.drivers)
    (hqueue : t.dl.queue = s.dl.queue) (hwriting : t.dl.writing = s.dl.writing) : view t = view s := by
  have hlog : atLog t = atLog s := by
    funext b r
    unfold atLog
    rw [hqueue, hwriting]
  unfold view State.docOf State.driverOf
  rw [hlog, hcp, hdt]

theorem Turned.of_bay {b : Bay} {s t : State} (hcp : t.cp.docs = s.cp.docs) (hdt : t.dt.drivers = s.dt.drivers)
    (hdl : t.dl = s.dl) (hothers : ∀ c : Bay, c ≠ b → t.bay c = s.bay c) : Turned b s t (Bindings.view s) :=
  ⟨by rw [hcp], by rw [hdt], view_congr hcp hdt (by rw [hdl]) (by rw [hdl]), hothers, by rw [hdl]⟩

theorem Turned.changeBay (b : Bay) (r : String) (l : Bool) (o : NoticeOrder) (f : BayUnit → BayUnit) (s : State) :
    Turned b s (changeBay b r l o f s) (Bindings.view s) :=
  .of_bay (by simp) (by simp) (by simp) fun _ hc => bay_changeBay_ne _ _ _ _ _ _ _ hc.symm

theorem Turned.modBay (b : Bay) (f : BayUnit → BayUnit) (s : State) : Turned b s (s.modBay b f) (Bindings.view s) :=
  .of_bay rfl rfl rfl fun _ hc => State.bay_modBay_ne _ _ _ _ hc.symm

theorem Turned.raise (b : Bay) (u : UnitName) (k : NKind) (fs : List Fld) (s : State) :
    Turned b s (raise u k fs s) (Bindings.view s) := .of_bay rfl rfl rfl fun _ _ => rfl

theorem view_modDoc {d : String} {f : Doc → Doc} {s : State} (hf : ∀ x, (f x).num = x.num) {x : Doc} (hx : s.docOf d = some x) :
    view (modDoc d f s) = (view s).setDoc d (f x).state := by
  have hdoc : (view (modDoc d f s)).doc = ((view s).setDoc d (f x).state).doc := by
    funext e
    by_cases he : e = d
    · subst he
      rw [doc_setDoc_self]
      exact congrArg (Option.map Doc.state) (docOf_modDoc_self e f hf s hx)
    · rw [doc_setDoc_ne he]
      exact congrArg (Option.map Doc.state) (docOf_modDoc_ne d e f hf s he)
  exact congrArg (fun g => View.mk g (view s).driver (view s).log) hdoc

theorem view_modDriver {n : Nat} {f : Driver → Driver} {s : State} (hf : ∀ x, (f x).num = x.num) {x : Driver}
    (hx : s.driverOf n = some x) : view (modDriver n f s) = (view s).setDriver n (Stand.of (f x)) := by
  have hdriver : (view (modDriver n f s)).driver = ((view s).setDriver n (Stand.of (f x))).driver := by
    funext m
    by_cases hm : m = n
    · subst hm
      rw [driver_setDriver_self]
      exact congrArg (Option.map Stand.of) (driverOf_modDriver_self m f hf s hx)
    · rw [driver_setDriver_ne hm]
      exact congrArg (Option.map Stand.of) (driverOf_modDriver_ne n m f hf s hm)
  exact congrArg (fun g => View.mk (view s).doc g (view s).log) hdriver

theorem Turned.modDoc {b : Bay} {d : String} {f : Doc → Doc} {s : State} (hf : ∀ x, (f x).num = x.num) {x : Doc}
    (hx : s.docOf d = some x) : Turned b s (modDoc d f s) ((Bindings.view s).setDoc d (f x).state) :=
  ⟨map_num_ite Doc.num (p := fun x => (x.num == d) = true) hf s.cp.docs, rfl, view_modDoc hf hx, fun _ _ => rfl, rfl⟩

theorem Turned.modDriver {b : Bay} {n : Nat} {f : Driver → Driver} {s : State} (hf : ∀ x, (f x).num = x.num) {x : Driver}
    (hx : s.driverOf n = some x) : Turned b s (modDriver n f s) ((Bindings.view s).setDriver n (Stand.of (f x))) :=
  ⟨rfl, map_num_ite Driver.num (p := fun x => (x.num == n) = true) hf s.dt.drivers, view_modDriver hf hx, fun _ _ => rfl,
    rfl⟩

/-- The record behind what the bindings see of a document, and of a driver. -/
theorem docOf_of_view {s : State} {d : String} {q : DocState} (h : (view s).doc d = some q) :
    ∃ x, s.docOf d = some x ∧ x.state = q := Option.map_eq_some_iff.1 h

theorem driverOf_of_view {s : State} {n : Nat} {z : Stand} (h : (view s).driver n = some z) :
    ∃ x, s.driverOf n = some x ∧ Stand.of x = z := Option.map_eq_some_iff.1 h

theorem view_doc_of {s : State} {d : String} {x : Doc} (h : s.docOf d = some x) : (view s).doc d = some x.state :=
  congrArg (Option.map Doc.state) h

theorem view_driver_of {s : State} {n : Nat} {x : Driver} (h : s.driverOf n = some x) :
    (view s).driver n = some (Stand.of x) := congrArg (Option.map Stand.of) h

/-! ## Unbinding (R132) -/

/-- What a bay's unbinds leave of the tables. -/
def View.unbound (d : String) (n : Nat) (z : Stand) (v : View) : View :=
  (v.setDoc d .DRAFT).setDriver n { z with status := .ON_SITE, pend := false }

theorem Turned.unbindBay {b : Bay} {s : State} {d : String} {n : Nat} {z : Stand} (hdoc : (s.bay b).doc = some d)
    (hdriver : (s.bay b).driver = some n) (hd : (Bindings.view s).doc d = some (.BOUND b))
    (hz : (Bindings.view s).driver n = some z) (hat : z.status = .AT_BAY b) :
    Turned b s (unbindBay b s) ((Bindings.view s).unbound d n z) := by
  obtain ⟨x, hx, hstate⟩ := docOf_of_view hd
  obtain ⟨y, hy, rfl⟩ := driverOf_of_view hz
  have hunbind : Machine.unbindBay b s = dtUnbind n b (cpUnbind d b s) := by
    unfold Machine.unbindBay
    dsimp only
    rw [hdoc, hdriver]
  have hdoc' : Turned b s (cpUnbind d b s) ((Bindings.view s).setDoc d .DRAFT) := by
    have h := Turned.modDoc (b := b) (f := fun x => if x.state = .BOUND b then { x with state := .DRAFT, stack := [] } else x)
      (fun y => by split <;> rfl) hx
    rwa [if_pos hstate] at h
  have hdriver' := Turned.modDriver (b := b) (s := cpUnbind d b s)
    (f := fun x => if x.status = .AT_BAY b then { x with status := .ON_SITE, pend := false } else x)
    (fun y => by split <;> rfl) hy
  have hat' : y.status = .AT_BAY b := hat
  rw [if_pos hat', hdoc'.view] at hdriver'
  rw [hunbind]
  exact hdoc'.trans hdriver'

/-- A bay that gives up its load agrees with the tables after the unbinds. -/
theorem BayBound.emptied {v : View} {b : Bay} {u : BayUnit} {d : String} {n : Nat} {z : Stand} {st : BayState}
    (h : BayBound v b u) (hload : u.state.holdsLoad = true) (hdoc : u.doc = some d) (hdriver : u.driver = some n)
    (hst : st.holdsLoad = false) {recs : List LogRec} (hlen : recs.length ≤ 1) (hrecs : ∀ r ∈ recs, bayBody r.body = true) :
    BayBound (v.unbound d n z) b { u.empty st with outbox := u.outbox ++ recs } := by
  have hone : u.outbox.length ≤ 1 := by
    by_cases hleave : u.state = .DISPATCHING
    · obtain ⟨r, e, x, hr, -⟩ := h.leaving hleave
      rw [hr]
      exact Nat.le_refl 1
    · rw [h.quiet hload hleave]
      exact Nat.zero_le 1
  have hnot : ¬(u.empty st).state.holdsLoad = true := by
    show ¬st.holdsLoad = true
    rw [hst]
    exact Bool.false_ne_true
  refine ⟨fun hl => absurd hl hnot, fun hl => absurd hl hnot, fun e he => ?_, fun m x hx hat => ?_, nofun,
    ⟨?_, fun r hr => ?_⟩, fun hl => absurd hl hnot, fun hl => absurd hl ?_, fun r hr => ?_⟩
  · by_cases hed : e = d
    · subst hed
      exact absurd (Option.some.inj ((doc_setDoc_self ..).symm.trans he)) nofun
    · exact absurd (Option.some.inj (hdoc.symm.trans (h.docAlone e ((doc_setDoc_ne hed).symm.trans he)).2)).symm hed
  · by_cases hmn : m = n
    · subst hmn
      have hsite := Option.some.inj ((driver_setDriver_self ..).symm.trans hx)
      rw [← hsite] at hat
      exact nomatch hat
    · have hold := h.driverAlone m x ((driver_setDriver_ne hmn).symm.trans hx) hat
      exact absurd (Option.some.inj (hdriver.symm.trans hold.2)).symm hmn
  · show (u.outbox ++ recs).length ≤ 2
    rw [List.length_append]
    omega
  · exact (List.mem_append.1 hr).elim (h.records.2 r) (hrecs r)
  · show ¬st = .DISPATCHING
    rintro rfl
    exact nomatch hst
  · show (u.outbox ++ recs).head? = some r
    rw [List.head?_append, h.log r hr]
    rfl

/-- The unbinds of one bay leave the other bays bound as they were, and touch no trip. -/
theorem seenAlike_unbound {v : View} {b : Bay} {d : String} {n : Nat} {z : Stand} (hd : v.doc d = some (.BOUND b))
    (hz : v.driver n = some z) (hat : z.status = .AT_BAY b) {c : Bay} (hc : c ≠ b) : SeenAlike c v (v.unbound d n z) := by
  have hdoc : SeenAlike c v (v.setDoc d .DRAFT) := by
    refine .setDoc ?_ nofun
    rw [hd]
    exact fun h => hc (DocState.BOUND.inj (Option.some.inj h)).symm
  refine hdoc.trans (.setDriver ?_ nofun)
  rintro x hx hx'
  obtain rfl := Option.some.inj (hz.symm.trans hx)
  exact hc (DriverStatus.AT_BAY.inj (hx'.symm.trans hat))

theorem TripsOwn.unbound {v : View} (h : TripsOwn v) {b : Bay} {d : String} (hd : v.doc d = some (.BOUND b)) (n : Nat)
    (z : Stand) : TripsOwn (v.unbound d n z) := by
  refine (h.setDoc ?_ _).setDriver nofun
  rw [hd]
  exact nofun

theorem cancelRecord_body {s : State} {b : Bay} {why : CancelReason} {r : LogRec} (h : cancelRecord s b why = some r) :
    bayBody r.body = true := by
  unfold cancelRecord at h
  dsimp only at h
  split at h
  · split at h
    · rw [← Option.some.inj h]; rfl
    · exact nomatch h
  · exact nomatch h

/-- A bay that gives up its load. -/
theorem Bound.vacateBay {s : State} (hs : Bound s) {b : Bay} (hload : (s.bay b).state.holdsLoad = true) (reason : String)
    (why : CancelReason) {st : BayState} (hst : st.holdsLoad = false) : Bound (vacateBay b reason why st s) := by
  have hb := hs.bays b
  obtain ⟨d, hdoc, hd⟩ := hb.doc hload
  obtain ⟨n, z, hdriver, hz, hat⟩ := hb.driver hload
  have hunbound := Turned.unbindBay hdoc hdriver hd hz hat
  have hturned := Turned.changeBay b reason true .stateFirst
    (fun u => { u.empty st with outbox := u.outbox ++ (cancelRecord s b why).toList }) (unbindBay b s)
  rw [hunbound.view] at hturned
  refine hs.turned (hunbound.trans hturned) (hs.trips.unbound hd n z) (fun c hc => seenAlike_unbound hd hz hat hc) ?_
  unfold Machine.vacateBay
  dsimp only
  rw [bay_changeBay_self, Valves.bay_unbindBay]
  refine BayBound.flow (hb.emptied hload hdoc hdriver hst ?_ ?_) (BayFlow.refl _).drive
  · cases cancelRecord s b why <;> simp
  · exact fun r hr => cancelRecord_body (Option.mem_toList.1 hr)

theorem Bound.leaveBay {s : State} (hs : Bound s) {b : Bay} (hload : (s.bay b).state.holdsLoad = true) (reason : String)
    (why : CancelReason) {st : BayState} (hst : st.holdsLoad = false) : Bound (leaveBay b reason why st s) :=
  BoundKept.postFrom _ _ (hs.vacateBay hload reason why hst)

end Sys2Proof.Proofs.Bindings

/-! PROOFS. ASSIGN, the driver swap and DISPATCH keep the bindings (R115, R127, R130). -/

namespace Sys2Proof.Proofs.Bindings

open Sys2Proof Sys2Proof.Machine Sys2Proof.Laws.Basic Sys2Proof.Laws.Tables Sys2Proof.Proofs.Keeping
open Sys2Proof.Proofs.BayBinding

/-! ## What is not refused -/

/-- A bind that CP does not refuse is of a DRAFT (R95). -/
theorem draft_of_cpBindRefusal {s : State} {d : String} {n : Nat} {x : Doc} (h : cpBindRefusal s d n = none)
    (hx : s.docOf d = some x) : x.state = .DRAFT := by
  unfold cpBindRefusal at h
  rw [hx] at h
  dsimp only at h
  split at h
  · exact nomatch h
  · exact nomatch h
  · assumption

/-- A bind that DT does not refuse is of a driver on site (R57). -/
theorem onSite_of_dtBindRefusal {s : State} {n : Nat} (h : dtBindRefusal s n = none) :
    ∃ y, s.driverOf n = some y ∧ y.status = .ON_SITE := by
  unfold dtBindRefusal at h
  split at h
  · exact nomatch h
  · rename_i y hy
    split at h
    · exact nomatch h
    · exact nomatch h
    · exact nomatch h
    · exact ⟨y, hy, ‹_›⟩

/-- A dispatch check that finds its driver finds him at the bay (R60). -/
theorem atBay_of_dispatchAnswer {s : State} {n : Nat} {b : Bay} {p : Plan} (h : dispatchAnswer s n b p ≠ .notBound) :
    ∃ y, s.driverOf n = some y ∧ y.status = .AT_BAY b := by
  unfold dispatchAnswer at h
  split at h
  · exact absurd rfl h
  · rename_i y hy
    split at h
    · exact absurd rfl h
    · exact ⟨y, hy, not_not.1 ‹_›⟩

/-! ## ASSIGN (R115) -/

/-- What a bay's binds leave of the tables. -/
def View.bound (b : Bay) (d : String) (n : Nat) (z : Stand) (v : View) : View :=
  (v.setDoc d (.BOUND b)).setDriver n { z with status := .AT_BAY b }

/-- An IDLE bay agrees with the tables after the binds. -/
theorem BayBound.assigned {v : View} {b : Bay} {u w : BayUnit} (h : BayBound v b u) (hu : u.state = .IDLE)
    (hempty : u.outbox = []) {d : String} {n : Nat} (z : Stand) (hstate : w.state = .ASSIGNED) (hdoc : w.doc = some d)
    (hdriver : w.driver = some n) (hctx : w.ctx = none) (houtbox : w.outbox = u.outbox) : BayBound (v.bound b d n z) b w := by
  have hnot : u.state.holdsLoad ≠ true := by rw [hu]; exact Bool.false_ne_true
  have hload : w.state.holdsLoad = true := by rw [hstate]; rfl
  refine ⟨fun _ => ⟨d, hdoc, doc_setDoc_self ..⟩, fun _ => ⟨n, _, hdriver, driver_setDriver_self .., rfl⟩, fun e he => ?_,
    fun m x hx hat => ?_, fun hc => ?_, houtbox ▸ h.records, fun _ _ => houtbox.trans hempty, fun hl => ?_,
    fun r hr => houtbox ▸ h.log r hr⟩
  · by_cases hed : e = d
    · exact ⟨hload, hed ▸ hdoc⟩
    · exact absurd (h.docAlone e ((doc_setDoc_ne hed).symm.trans he)).1 hnot
  · by_cases hmn : m = n
    · exact ⟨hload, hmn ▸ hdriver⟩
    · exact absurd (h.driverAlone m x ((driver_setDriver_ne hmn).symm.trans hx) hat).1 hnot
  · rw [hctx] at hc
    exact nomatch hc
  · rw [hstate] at hl
    exact nomatch hl

/-- A DRAFT and a driver on site are bound to no other bay. -/
theorem seenAlike_bound {v : View} {b : Bay} {d : String} {n : Nat} {z : Stand} (hd : v.doc d = some .DRAFT)
    (hz : v.driver n = some z) (hsite : z.status = .ON_SITE) {c : Bay} (hc : c ≠ b) : SeenAlike c v (v.bound b d n z) := by
  have hdoc : SeenAlike c v (v.setDoc d (.BOUND b)) := by
    refine .setDoc ?_ fun h => hc (DocState.BOUND.inj h).symm
    rw [hd]
    exact nofun
  refine hdoc.trans (.setDriver (fun x hx => ?_) fun h => hc (DriverStatus.AT_BAY.inj h).symm)
  rw [← Option.some.inj (hz.symm.trans hx), hsite]
  exact nofun

theorem Bound.bAssign {s : State} (hs : Bound s) (b : Bay) (a : Parsed AssignArgs) : Bound (bAssign b a s).1 := by
  rcases a with _ | a
  · exact hs
  unfold Machine.bAssign
  dsimp only
  split
  · exact hs
  · split
    · exact hs
    · rename_i hidle
      split
      · exact hs
      · rename_i hempty
        split
        · exact hs
        · split
          · exact hs
          · exact hs
          · rename_i x hrefused hx
            have hdraft := draft_of_cpBindRefusal hrefused hx
            split
            · dsimp only
              obtain ⟨hself, hothers⟩ := docOf_rebound (b := b) hx hdraft
              have hnum (d : String) (t : State) : (cpUnbind d b t).cp.docs.map (·.num) = t.cp.docs.map (·.num) :=
                map_num_ite Doc.num (p := fun x => (x.num == d) = true) (fun y => by split <;> rfl) t.cp.docs
              refine Alike.kept ⟨(hnum _ _).trans (Turned.modDoc (b := b) (fun _ => by rfl) hx).docNums, rfl, fun e => ?_,
                fun _ => rfl, fun _ => .refl _, rfl, rfl⟩ hs
              by_cases he : e = a.doc
              · subst he
                exact (view_doc_of hself).trans (view_doc_of hx).symm
              · exact congrArg (Option.map Doc.state) (hothers e he)
            · rename_i hfree
              obtain ⟨y, hy, hsite⟩ := onSite_of_dtBindRefusal hfree
              dsimp only
              have hbind : Turned b s (cpBind a.doc b s) ((view s).setDoc a.doc (.BOUND b)) := .modDoc (fun _ => by rfl) hx
              have hbinds := hbind.trans (.modDriver (b := b) (s := cpBind a.doc b s)
                (f := fun z => { z with status := .AT_BAY b,
                                        last := some ((cpBind a.doc b s).driverVerdict a.drv x.plan) }) (fun _ => by rfl) hy)
              rw [hbind.view] at hbinds
              have hturned := hbinds.trans (.changeBay b "ASSIGN" true .stateFirst
                (BayUnit.assigned x a.drv ((cpBind a.doc b s).driverVerdict a.drv x.plan)) _)
              rw [hbinds.view] at hturned
              have hdoc : (view s).doc a.doc = some .DRAFT := (view_doc_of hx).trans (congrArg some hdraft)
              refine hs.turned hturned ((hs.trips.setDoc ?_ _).setDriver nofun)
                (fun c hc => seenAlike_bound hdoc (view_driver_of hy) hsite hc) ?_
              · rw [hdoc]
                exact nofun
              · rw [bay_changeBay_self]
                refine BayBound.flow ?_ (BayFlow.adjust _).drive
                exact (hs.bays b).assigned (not_not.1 hidle) (not_not.1 hempty) (Stand.of y) rfl
                  (congrArg some (docOf_num hx)) rfl rfl rfl

/-! ## The driver swap (R127) -/

/-- What a swap leaves of the tables. -/
def View.swapped (b : Bay) (old n : Nat) (z z' : Stand) (v : View) : View :=
  (v.setDriver old { z with status := .ON_SITE }).setDriver n { z' with status := .AT_BAY b }

/-- The bay agrees with the tables after the swap. -/
theorem BayBound.swapped {v : View} {b : Bay} {u w : BayUnit} (h : BayBound v b u)
    (hu : u.state = .ASSIGNED ∨ u.state = .HELD) {old n : Nat} {z z' : Stand} (hold : u.driver = some old)
    (hstate : w.state = u.state) (hdoc : w.doc = u.doc) (hdriver : w.driver = some n)
    (hctx : w.ctx = u.ctx) (houtbox : w.outbox = u.outbox) : BayBound (v.swapped b old n z z') b w := by
  have hload : u.state.holdsLoad = true := by rcases hu with hu | hu <;> rw [hu] <;> rfl
  have hnot : u.state ≠ .DISPATCHING := by rcases hu with hu | hu <;> rw [hu] <;> nofun
  refine ⟨fun _ => hdoc ▸ h.doc hload, fun _ => ⟨n, _, hdriver, driver_setDriver_self .., rfl⟩,
    fun e he => hstate ▸ hdoc ▸ h.docAlone e he, fun m x hx hat => ?_, hctx ▸ hstate ▸ h.ctx, houtbox ▸ h.records,
    fun _ _ => houtbox.trans (h.quiet hload hnot), fun hl => absurd (hstate ▸ hl) hnot, fun r hr => houtbox ▸ h.log r hr⟩
  by_cases hmn : m = n
  · exact ⟨hstate ▸ hload, hmn ▸ hdriver⟩
  · have hx' := (driver_setDriver_ne hmn).symm.trans hx
    by_cases hmo : m = old
    · subst hmo
      have hsite := Option.some.inj ((driver_setDriver_self ..).symm.trans hx')
      rw [← hsite] at hat
      exact nomatch hat
    · have hat' := (h.driverAlone m x ((driver_setDriver_ne hmo).symm.trans hx') hat).2
      exact absurd (Option.some.inj (hold.symm.trans hat')).symm hmo

theorem seenAlike_swapped {v : View} {b : Bay} {old n : Nat} {z z' : Stand} (hz : v.driver old = some z)
    (hat : z.status = .AT_BAY b) (hz' : v.driver n = some z') (hsite : z'.status = .ON_SITE) {c : Bay} (hc : c ≠ b) :
    SeenAlike c v (v.swapped b old n z z') := by
  have hold : SeenAlike c v (v.setDriver old { z with status := .ON_SITE }) := by
    refine .setDriver (fun x hx hx' => ?_) nofun
    obtain rfl := Option.some.inj (hz.symm.trans hx)
    exact hc (DriverStatus.AT_BAY.inj (hx'.symm.trans hat))
  refine hold.trans (.setDriver (fun x hx => ?_) fun h => hc (DriverStatus.AT_BAY.inj h).symm)
  by_cases hno : n = old
  · subst hno
    rw [← Option.some.inj ((driver_setDriver_self ..).symm.trans hx)]
    exact nofun
  · rw [← Option.some.inj (hz'.symm.trans ((driver_setDriver_ne hno).symm.trans hx)), hsite]
    exact nofun

theorem TripsOwn.swapped {v : View} (h : TripsOwn v) (b : Bay) (old n : Nat) (z z' : Stand) :
    TripsOwn (v.swapped b old n z z') :=
  (h.setDriver (z := { z with status := .ON_SITE }) nofun).setDriver (z := { z' with status := .AT_BAY b }) nofun

/-- A swap of the tables. -/
theorem Turned.dtSwap {b : Bay} {s : State} {old n : Nat} {y z : Driver} (hz : s.driverOf old = some z)
    (hat : z.status = .AT_BAY b) (hy : s.driverOf n = some y) (hsite : y.status = .ON_SITE) (p : Plan) :
    Turned b s (dtSwap old n b p s) ((Bindings.view s).swapped b old n (Stand.of z) (Stand.of y)) := by
  have hne : n ≠ old := by
    rintro rfl
    obtain rfl := Option.some.inj (hz.symm.trans hy)
    exact nomatch hat.symm.trans hsite
  have hleave := Turned.modDriver (b := b) (f := fun x => if x.status = .AT_BAY b then { x with status := .ON_SITE } else x)
    (fun y => by split <;> rfl) hz
  rw [if_pos hat] at hleave
  unfold Machine.dtSwap
  generalize hleft : Machine.modDriver old (fun x => if x.status = .AT_BAY b then { x with status := .ON_SITE } else x) s = t at *
  have hy' : t.driverOf n = some y := by
    rw [← hleft, driverOf_modDriver_ne old n _ (fun y => by split <;> rfl) s hne]
    exact hy
  have henter := hleave.trans (.modDriver (b := b)
    (f := fun x => { x with status := .AT_BAY b, last := some (t.driverVerdict n p) }) (fun _ => by rfl) hy')
  rw [hleave.view] at henter
  exact henter

theorem Bound.bDriver {s : State} (hs : Bound s) (b : Bay) (a : Parsed Nat) : Bound (bDriver b a s).1 := by
  rcases a with _ | n
  · exact hs
  unfold Machine.bDriver
  dsimp only
  split
  · exact hs
  · split
    · exact hs
    · rename_i hstate
      have hstate : (s.bay b).state = .ASSIGNED ∨ (s.bay b).state = .HELD := by
        by_contra hno
        exact hstate (not_or.1 hno)
      split
      · rename_i x old p hx hold hp
        split
        · exact hs
        · split
          · exact hs
          · rename_i hfree
            dsimp only
            obtain ⟨y, hy, hsite⟩ := onSite_of_dtBindRefusal hfree
            have hload : (s.bay b).state.holdsLoad = true := by rcases hstate with h | h <;> rw [h] <;> rfl
            obtain ⟨m, w, hm, hw, hat⟩ := (hs.bays b).driver hload
            obtain rfl : old = m := Option.some.inj (hold.symm.trans hm)
            obtain ⟨z, hz, rfl⟩ := driverOf_of_view hw
            have hswap := Turned.dtSwap hz hat hy hsite p
            have hturned := hswap.trans (.changeBay b "HOLD" false .stateLast
              (BayUnit.swapped n (s.driverVerdict n p)) _)
            rw [hswap.view] at hturned
            refine (Alike.tellHold b _).kept (hs.turned hturned (hs.trips.swapped ..)
              (fun c hc => seenAlike_swapped hw hat (view_driver_of hy) hsite hc) ?_)
            rw [bay_changeBay_self]
            refine BayBound.flow ?_ (BayFlow.adjust _).drive
            exact (hs.bays b).swapped hstate hold rfl rfl rfl rfl rfl
      · exact hs

/-! ## DISPATCH (R130) -/

/-- A bay whose dispatch is on its way to the log agrees with the tables, its driver's departure pending. -/
theorem BayBound.dispatching {v : View} {b : Bay} {u w : BayUnit} (h : BayBound v b u) (hu : u.state = .ASSIGNED) {n : Nat}
    {z : Stand} (hz : v.driver n = some z) (hn : u.driver = some n) (hstate : w.state = .DISPATCHING) (hdoc : w.doc = u.doc)
    (hdriver : w.driver = u.driver) (hctx : w.ctx = u.ctx) {r : LogRec} {e : DispatchBody} (houtbox : w.outbox = u.outbox ++ [r])
    (he : r.body = .DISPATCH e) (hbay : e.bay = b) (hed : u.doc = some e.doc) (hen : e.drv = n) :
    BayBound (v.setDriver n { z with pend := true }) b w := by
  have hload : u.state.holdsLoad = true := by rw [hu]; rfl
  have hload' : w.state.holdsLoad = true := by rw [hstate]; rfl
  have hempty : u.outbox = [] := h.quiet hload (by rw [hu]; nofun)
  have hone : w.outbox = [r] := houtbox.trans (by rw [hempty]; rfl)
  refine ⟨fun _ => hdoc ▸ h.doc hload, fun _ => ?_, fun d hd => ⟨hload', hdoc ▸ (h.docAlone d hd).2⟩, fun m x hx hat => ?_,
    fun hc => ?_, ?_, fun _ hno => absurd hstate hno, fun _ => ?_, fun x hx => ?_⟩
  · obtain ⟨m, y, hm, hy, hat⟩ := h.driver hload
    obtain rfl : n = m := Option.some.inj (hn.symm.trans hm)
    obtain rfl : z = y := Option.some.inj (hz.symm.trans hy)
    exact ⟨n, _, hdriver.trans hn, driver_setDriver_self .., hat⟩
  · by_cases hmn : m = n
    · exact ⟨hload', hmn ▸ hdriver.trans hn⟩
    · exact ⟨hload', hdriver ▸ (h.driverAlone m x ((driver_setDriver_ne hmn).symm.trans hx) hat).2⟩
  · rw [hctx] at hc
    have hflow := h.ctx hc
    rw [hu] at hflow
    exact nomatch hflow
  · rw [hone]
    refine ⟨Nat.le_succ 1, fun x hx => ?_⟩
    rw [List.mem_singleton.1 hx, he]
    rfl
  · refine ⟨r, e, { z with pend := true }, hone, by rw [he]; rfl, hbay, hdoc.trans hed, hen ▸ hdriver.trans hn, ?_, rfl⟩
    rw [hen]
    exact driver_setDriver_self ..
  · have hold := h.log x hx
    rw [hempty] at hold
    exact nomatch hold

theorem Bound.bDispatch {s : State} (hs : Bound s) (b : Bay) (f : NoFields) : Bound (bDispatch b f s).1 := by
  rcases f with _ | f
  · exact hs
  unfold Machine.bDispatch
  dsimp only
  split
  · exact hs
  · rename_i hstate
    have hstate : (s.bay b).state = .ASSIGNED := not_not.1 hstate
    split
    · exact hs
    · split
      · rename_i x n p hx hn hp
        have hlast (v : VerdictRec) : Alike s (modDriver n (fun x => { x with last := some v }) s) :=
          .modDriver (fun _ => by rfl) fun _ _ => rfl
        split
        · exact hs
        · rename_i v hv
          obtain ⟨y, hy, hat⟩ := atBay_of_dispatchAnswer (by rw [hv]; exact nofun)
          dsimp only
          rw [(dispatchCheck_limit hy hat hv).1]
          refine ((hlast v).trans (.changeBay ?_)).kept hs
          unfold BayUnit.limited
          refine .trans ?_ (.adjust _)
          exact .of_same rfl rfl rfl rfl rfl
        · rename_i v hv
          obtain ⟨y, hy, hat⟩ := atBay_of_dispatchAnswer (by rw [hv]; exact nofun)
          rw [(dispatchCheck_full hy hat hv).1]
          exact (hlast v).kept hs
        · rename_i v hv
          obtain ⟨y, hy, hat⟩ := atBay_of_dispatchAnswer (by rw [hv]; exact nofun)
          dsimp only
          rw [(dispatchCheck_go hy hat hv).1]
          refine BoundKept.postFrom _ _ ?_
          have hcheck := Turned.modDriver (b := b) (s := s) (f := fun x => { x with last := some v, pend := true })
            (fun _ => by rfl) hy
          have hturned := hcheck.trans (.changeBay b "DISPATCH" false .stateFirst (dispatchedBay v
            (dispatchRecord (modDriver n (fun x => { x with last := some v, pend := true }) s) b x n v)) _)
          rw [hcheck.view] at hturned
          refine hs.turned hturned (hs.trips.setDriver ?_) (fun c hc => .setDriver (fun z hz hz' => ?_) ?_) ?_
          · show y.status ≠ .ON_TRIP
            rw [hat]
            exact nofun
          · obtain rfl := Option.some.inj ((view_driver_of hy).symm.trans hz)
            exact hc (DriverStatus.AT_BAY.inj (hz'.symm.trans hat))
          · exact fun h => hc (DriverStatus.AT_BAY.inj (h.symm.trans hat))
          · rw [bay_changeBay_self]
            refine BayBound.flow ?_ (BayFlow.refl _).drive
            obtain ⟨d, hd, hdoc⟩ := Option.bind_eq_some_iff.1 hx
            exact (hs.bays b).dispatching hstate (view_driver_of hy) hn rfl rfl rfl rfl rfl rfl rfl
              (hd.trans (congrArg some (docOf_num hdoc).symm)) rfl
      · exact hs

end Sys2Proof.Proofs.Bindings

/-! PROOFS. The comings and goings of drivers and documents keep the bindings (R44 to R56, R87, R91, R99). -/

namespace Sys2Proof.Proofs.Bindings

open Sys2Proof Sys2Proof.Machine Sys2Proof.Laws.Basic Sys2Proof.Laws.Tables Sys2Proof.Proofs.Keeping

/-! ## Changes of the tables alone -/

theorem view_doc_congr {s t : State} (h : t.cp.docs = s.cp.docs) : (view t).doc = (view s).doc := by
  unfold view State.docOf
  rw [h]

theorem view_driver_congr {s t : State} (h : t.dt.drivers = s.dt.drivers) : (view t).driver = (view s).driver := by
  unfold view State.driverOf
  rw [h]

/-- A change of the tables that leaves every bay bound as it was. -/
theorem Bound.of_tables {s t : State} (hs : Bound s) (hsources : t.dl.sources = s.dl.sources)
    (hdocs : (t.cp.docs.map (·.num)).Nodup) (hdrivers : (t.dt.drivers.map (·.num)).Nodup) (htrips : TripsOwn (view t))
    (hseen : ∀ c, SeenAlike c (view s) (view t)) (hbays : ∀ c : Bay, t.bay c = s.bay c) : Bound t :=
  ⟨hsources ▸ hs.sources, hdocs, hdrivers, htrips, fun c => by rw [hbays c]; exact (hs.bays c).seen (hseen c)⟩

def View.dropDoc (d : String) (v : View) : View := { v with doc := fun e => if e = d then none else v.doc e }
def View.dropDriver (n : Nat) (v : View) : View := { v with driver := fun m => if m = n then none else v.driver m }

theorem doc_dropDoc_ne {v : View} {d e : String} (h : e ≠ d) : (v.dropDoc d).doc e = v.doc e := if_neg h
theorem doc_dropDoc_self (v : View) (d : String) : (v.dropDoc d).doc d = none := if_pos rfl
theorem driver_dropDriver_some {v : View} {m n : Nat} {x : Stand} (h : (v.dropDriver n).driver m = some x) :
    v.driver m = some x := by
  unfold View.dropDriver at h
  dsimp only at h
  split at h
  · exact nomatch h
  · exact h

theorem SeenAlike.dropDoc {c : Bay} {v : View} {d : String} (hold : v.doc d ≠ some (.BOUND c)) :
    SeenAlike c v (v.dropDoc d) where
  doc e := by
    by_cases he : e = d
    · subst he
      rw [doc_dropDoc_self]
      exact iff_of_false nofun hold
    · rw [doc_dropDoc_ne he]
  driver _ _ _ := .rfl
  log _ := id

theorem SeenAlike.dropDriver {c : Bay} {v : View} {n : Nat} (hold : ∀ x, v.driver n = some x → x.status ≠ .AT_BAY c) :
    SeenAlike c v (v.dropDriver n) where
  doc _ := .rfl
  driver m x hx := by
    refine ⟨driver_dropDriver_some, fun h => (if_neg ?_).trans h⟩
    rintro rfl
    exact hold x h hx
  log _ := id

/-- A document that is of no trip. -/
theorem TripsOwn.dropDoc {v : View} (h : TripsOwn v) {d : String}
    (hold : ∀ n x, v.driver n = some x → x.status = .ON_TRIP → x.trip ≠ some d) : TripsOwn (v.dropDoc d) where
  released n x hx htrip := by
    obtain ⟨e, he, hrel⟩ := h.released n x hx htrip
    have hne : e ≠ d := fun hed => hold n x hx htrip (hed ▸ he)
    exact ⟨e, he, (doc_dropDoc_ne hne).trans hrel⟩
  alone := h.alone

theorem TripsOwn.dropDriver {v : View} (h : TripsOwn v) (n : Nat) : TripsOwn (v.dropDriver n) where
  released m x hx := h.released m x (driver_dropDriver_some hx)
  alone m k x y hx hy := h.alone m k x y (driver_dropDriver_some hx) (driver_dropDriver_some hy)

/-- One driver's record, away from the bays before and after, and on no trip after. -/
theorem Bound.awayDriver {s : State} (hs : Bound s) {n : Nat} {x : Driver} (hx : s.driverOf n = some x)
    (hold : ∀ c : Bay, x.status ≠ .AT_BAY c) {f : Driver → Driver} (hf : ∀ y, (f y).num = y.num)
    (hnew : ∀ c : Bay, (f x).status ≠ .AT_BAY c) (htrip : (f x).status ≠ .ON_TRIP) : Bound (modDriver n f s) := by
  have hview := view_modDriver hf hx
  refine hs.of_tables rfl hs.docNums ((Turned.modDriver (b := 0) hf hx).driverNums ▸ hs.driverNums)
    (hview ▸ hs.trips.setDriver htrip) (fun c => hview ▸ .setDriver (fun y hy => ?_) (hnew c)) fun _ => rfl
  rw [← Option.some.inj ((view_driver_of hx).symm.trans hy)]
  exact hold c

/-! ## The duty table (R44 to R56) -/

theorem find?_append_fresh {α β : Type} [DecidableEq β] (key : α → β) (l : List α) (x : α) (k : β)
    (hnew : key x ∉ l.map key) : (l ++ [x]).find? (fun y => key y == k) =
      if k = key x then some x else l.find? fun y => key y == k := by
  rw [List.find?_append]
  split
  · rename_i hk
    subst hk
    have hnone : (l.find? fun y => key y == key x) = none := by
      refine List.find?_eq_none.2 fun y hy => ?_
      have hne : key y ≠ key x := fun h => hnew (h ▸ List.mem_map_of_mem hy)
      simpa using hne
    rw [hnone]
    simp
  · rename_i hk
    have hne : ¬(key x == k) = true := by simpa using fun h => hk h.symm
    simp [List.find?_singleton, hne]

theorem find?_filter_ne {α β : Type} [DecidableEq β] (key : α → β) (l : List α) (j k : β) :
    (l.filter fun y => key y != j).find? (fun y => key y == k) = if k = j then none else l.find? fun y => key y == k := by
  rw [List.find?_filter]
  split
  · rename_i hkj
    refine List.find?_eq_none.2 fun y _ => ?_
    simp [hkj]
  · rename_i hkj
    congr 1
    funext y
    by_cases hy : key y = k
    · simp [hy, hkj]
    · simp [hy]

theorem Bound.dtEnrol {s : State} (hs : Bound s) (a : Parsed Nat) : Bound (dtEnrol a s).1 := by
  rcases a with _ | n
  · exact hs
  unfold Machine.dtEnrol
  dsimp only
  split
  · exact hs
  · split
    · exact hs
    · rename_i hnew
      split
      · exact hs
      · dsimp only
        have hperm := insertDriver_perm ⟨n, .ABSENT, [], none, none, false⟩ s.dt.drivers
        have hfresh : n ∉ s.dt.drivers.map (·.num) := fun h => hnew ((driverOf_isSome_iff s n).2 h)
        have hnums := (hperm.map Driver.num).nodup_iff.2 (List.nodup_cons.2 ⟨hfresh, hs.driverNums⟩)
        have hview : (view (s.modDt fun d => { d with drivers := insertDriver ⟨n, .ABSENT, [], none, none, false⟩ d.drivers })) =
            (view s).setDriver n ⟨.ABSENT, false, none⟩ := by
          refine congrArg (fun g => View.mk (view s).doc g (view s).log) (funext fun m => Option.ext fun z => ?_)
          refine (view_driver_eq hnums).trans ?_
          by_cases hm : m = n
          · subst hm
            rw [if_pos rfl]
            constructor
            · rintro ⟨x, hx, hxn, rfl⟩
              rcases List.mem_cons.1 (hperm.mem_iff.1 hx) with rfl | hx
              · rfl
              · exact absurd (hxn ▸ List.mem_map_of_mem hx) hfresh
            · intro h
              exact ⟨_, hperm.mem_iff.2 List.mem_cons_self, rfl, Option.some.inj h⟩
          · rw [if_neg hm]
            refine Iff.trans ?_ (view_driver_eq hs.driverNums).symm
            constructor
            · rintro ⟨x, hx, hxm, hz⟩
              rcases List.mem_cons.1 (hperm.mem_iff.1 hx) with rfl | hx
              · exact absurd hxm.symm hm
              · exact ⟨x, hx, hxm, hz⟩
            · rintro ⟨x, hx, h⟩
              exact ⟨x, hperm.mem_iff.2 (List.mem_cons_of_mem _ hx), h⟩
        refine hs.of_tables rfl hs.docNums hnums (hview ▸ hs.trips.setDriver nofun)
          (fun c => hview ▸ .setDriver (fun x hx => ?_) nofun) fun _ => rfl
        obtain ⟨y, hy, hyn, -⟩ := (view_driver_eq hs.driverNums).1 hx
        exact absurd (hyn ▸ List.mem_map_of_mem hy) hfresh

theorem Bound.dtRemove {s : State} (hs : Bound s) (a : Parsed Nat) : Bound (dtRemove a s).1 := by
  rcases a with _ | n
  · exact hs
  unfold Machine.dtRemove
  dsimp only
  split
  · exact hs
  · split
    · exact hs
    · rename_i x hx
      split
      · exact hs
      · rename_i habsent
        dsimp only
        have hview : view (s.modDt fun d => { d with drivers := d.drivers.filter fun y => y.num != n }) =
            (view s).dropDriver n := by
          refine congrArg (fun g => View.mk (view s).doc g (view s).log) (funext fun m => ?_)
          refine (congrArg (Option.map Stand.of) (find?_filter_ne Driver.num s.dt.drivers n m)).trans ?_
          split <;> rfl
        refine hs.of_tables rfl hs.docNums (hs.driverNums.sublist (List.filter_sublist.map _))
          (hview ▸ hs.trips.dropDriver n) (fun c => hview ▸ .dropDriver fun y hy => ?_) fun _ => rfl
        rw [← Option.some.inj ((view_driver_of hx).symm.trans hy)]
        show x.status ≠ _
        rw [not_not.1 habsent]
        exact nofun

theorem Bound.dtArrive {s : State} (hs : Bound s) (a : Parsed Nat) : Bound (dtArrive a s).1 := by
  rcases a with _ | n
  · exact hs
  unfold Machine.dtArrive
  dsimp only
  repeat' split
  any_goals exact hs
  rename_i x hx _ habsent _
  exact hs.awayDriver hx (fun c => by rw [habsent]; exact nofun) (fun _ => by rfl) nofun nofun

theorem Bound.dtDepart {s : State} (hs : Bound s) (a : Parsed Nat) : Bound (dtDepart a s).1 := by
  rcases a with _ | n
  · exact hs
  unfold Machine.dtDepart
  dsimp only
  repeat' split
  any_goals exact hs
  rename_i x hx _ hsite
  exact hs.awayDriver hx (fun c => by rw [hsite]; exact nofun) (fun _ => by rfl) nofun nofun

theorem Alike.dtImport (a : Parsed ImportArgs) (s : State) : Alike s (dtImport a s).1 := by
  rcases a with _ | a
  · exact .refl s
  unfold Machine.dtImport
  dsimp only
  repeat' split
  any_goals exact .refl s
  exact .modDriver (fun _ => by rfl) fun _ _ => rfl

/-- A document bound to no bay and of no trip leaves the table. -/
theorem Bound.dropDoc {s : State} (hs : Bound s) {d : String} (hfree : ∀ c : Bay, (view s).doc d ≠ some (.BOUND c))
    (htrip : ∀ n x, (view s).driver n = some x → x.status = .ON_TRIP → x.trip ≠ some d) : Bound (dropDoc d s) := by
  have hview : view (Machine.dropDoc d s) = (view s).dropDoc d := by
    refine congrArg (fun g => View.mk g (view s).driver (view s).log) (funext fun e => ?_)
    refine (congrArg (Option.map Doc.state) (find?_filter_ne Doc.num s.cp.docs d e)).trans ?_
    split <;> rfl
  exact hs.of_tables rfl (hs.docNums.sublist (List.filter_sublist.map _)) hs.driverNums (hview ▸ hs.trips.dropDoc htrip)
    (fun c => hview ▸ .dropDoc (hfree c)) fun _ => rfl

/-- The trip's document leaves the table with the trip, which was the only one of it (R99). -/
theorem Bound.dtClosetrip {s : State} (hs : Bound s) (a : Parsed ClosetripArgs) : Bound (dtClosetrip a s).1 := by
  rcases a with _ | a
  · exact hs
  unfold Machine.dtClosetrip
  dsimp only
  repeat' split
  any_goals exact hs
  rename_i items _ _ _ _ x hx htrip _ _ _ _ _ _ _
  have htrip : x.status = .ON_TRIP := not_not.1 htrip
  obtain ⟨d, hd, hrel⟩ := hs.trips.released _ _ (view_driver_of hx) htrip
  have hd : x.trip = some d := hd
  dsimp only [cpRemove]
  rw [hd, Option.getD_some]
  refine (Alike.raise _ _ _ _).kept ((Alike.modDt rfl).kept ?_)
  have hdriver := hs.awayDriver (f := fun y => { y with
      list := s.pruned (closeTrip (dateMinutes a.stop).toNat items x.list), status := .ABSENT, trip := none }) hx
    (fun c => by rw [htrip]; exact nofun) (fun _ => by rfl) nofun nofun
  have hview := view_modDriver (f := fun y => { y with
      list := s.pruned (closeTrip (dateMinutes a.stop).toNat items x.list), status := .ABSENT, trip := none })
    (fun _ => by rfl) hx
  have hpost (r : LogRec) := BoundKept.postFrom .DT _
    ((Alike.modDt (f := fun d => { d with outbox := d.outbox ++ [r] }) rfl).kept hdriver)
  refine (hpost _).dropDoc (fun c => ?_) fun m y hy hyt hyd => ?_
  · rw [view_doc_congr (s := s) (by simp; rfl), hrel]
    exact nofun
  · rw [view_driver_congr (s := Machine.modDriver a.drv _ s) (by simp; rfl), hview] at hy
    by_cases hm : m = a.drv
    · subst hm
      rw [← Option.some.inj ((driver_setDriver_self ..).symm.trans hy)] at hyt
      exact nomatch hyt
    · exact hm (hs.trips.alone m a.drv y _ ((driver_setDriver_ne hm).symm.trans hy) (view_driver_of hx) hyt htrip
        (hyd.trans hd.symm))

theorem BoundKept.dtRecordLeaves (s : State) : BoundKept s (dtRecordLeaves s) :=
  .trans (Alike.modDt (f := fun d => { d with outbox := d.outbox.drop 1 }) rfl).kept (.postFrom _ _)

theorem BoundKept.dtRefused (s : State) : BoundKept s (dtRefused s) :=
  .trans ((Alike.modDt (f := fun d => { d with logfull := satAdd Config.maxCount16 d.logfull 1 }) rfl).trans
    (.raise _ _ _ _)).kept (.dtRecordLeaves _)

/-! ## The papers (R84 to R106) -/

theorem Alike.discardStaging (reason : String) (s : State) : Alike s (discardStaging reason s) := by
  unfold Machine.discardStaging
  split
  · exact .refl s
  · exact .trans (.modCp rfl) (.raise _ _ _ _)

theorem Alike.interrupted (s : State) : Alike s (interrupted s) := .discardStaging _ s

theorem Alike.cpOpen (a : Parsed OpenArgs) (s : State) : Alike s (cpOpen a s).1 := by
  rcases a with _ | a
  · exact .refl s
  unfold Machine.cpOpen
  dsimp only
  split
  · exact .refl s
  · dsimp only
    exact .trans (.discardStaging _ s) (.modCp rfl)

theorem Alike.cpLine (a : Parsed LineArgs) (s : State) : Alike s (cpLine a s).1 := by
  rcases a with _ | a
  · exact .refl s
  unfold Machine.cpLine
  dsimp only
  split
  · exact .refl s
  · split
    · exact .refl s
    · split
      · exact .discardStaging _ s
      · dsimp only
        exact .modCp rfl

/-- A new document is a DRAFT (R87). -/
theorem Bound.cpConfirm {s : State} (hs : Bound s) (f : NoFields) : Bound (cpConfirm f s).1 := by
  rcases f with _ | f
  · exact hs
  unfold Machine.cpConfirm
  dsimp only
  split
  · exact hs
  · rename_i g _
    split
    · exact (Alike.discardStaging _ s).kept hs
    · have hout : Bound (s.modCp fun c => { c with staging := none }) := (Alike.modCp rfl).kept hs
      split
      · exact hout
      · rename_i hvalid
        obtain ⟨hnew, -⟩ := validation_none hvalid
        dsimp only
        generalize ht : (s.modCp fun c => { c with staging := none }) = t at hout ⊢
        have hnew : g.document.num ∉ t.cp.docs.map (·.num) := ht ▸ hnew
        have hview : view (t.modCp fun c => { c with docs := c.docs ++ [g.document] }) =
            (view t).setDoc g.document.num .DRAFT := by
          refine congrArg (fun h => View.mk h (view t).driver (view t).log) (funext fun e => ?_)
          refine (congrArg (Option.map Doc.state) (find?_append_fresh Doc.num t.cp.docs g.document e hnew)).trans ?_
          split <;> rfl
        have hnone : (view t).doc g.document.num = none := by
          rcases hv : (view t).doc g.document.num with _ | q
          · rfl
          · obtain ⟨y, hy, hyn, -⟩ := (view_doc_eq hout.docNums).1 hv
            exact absurd (hyn ▸ List.mem_map_of_mem hy) hnew
        refine hout.of_tables rfl ?_ hout.driverNums (hview ▸ hout.trips.setDoc (by rw [hnone]; exact nofun) _)
          (fun c => hview ▸ .setDoc (by rw [hnone]; exact nofun) nofun) fun _ => rfl
        rw [State.cp_modCp, List.map_append]
        exact List.nodup_append.2 ⟨hout.docNums, by simp, by
          rintro a ha b hb rfl; exact hnew ((List.mem_singleton.1 hb : a = g.document.num) ▸ ha)⟩

theorem Alike.cpAbort (f : NoFields) (s : State) : Alike s (cpAbort f s).1 := by
  cases f
  · exact .refl s
  · exact .discardStaging _ s

/-- A voided document is a DRAFT, so of no bay and no trip (R91). -/
theorem Bound.cpVoid {s : State} (hs : Bound s) (d : Parsed String) : Bound (cpVoid d s).1 := by
  have hinterrupted := (Alike.interrupted s).kept hs
  unfold Machine.cpVoid
  dsimp only
  repeat' split
  any_goals exact hinterrupted
  rename_i x hx hdraft
  have hdoc := (view_doc_of hx).trans (congrArg some (not_not.1 hdraft))
  refine hinterrupted.dropDoc (fun c => by rw [hdoc]; exact nofun) fun n y hy htrip hyd => ?_
  obtain ⟨e, he, hrel⟩ := hinterrupted.trips.released n y hy htrip
  obtain rfl := Option.some.inj (hyd.symm.trans he)
  rw [hdoc] at hrel
  exact nomatch hrel

theorem Alike.cpShow (d : Parsed String) (s : State) : Alike s (cpShow d s).1 := by
  unfold Machine.cpShow
  dsimp only
  repeat' split
  all_goals exact .interrupted s

theorem Alike.cpShowLine (a : Parsed ShowLineArgs) (s : State) : Alike s (cpShowLine a s).1 := by
  unfold Machine.cpShowLine
  dsimp only
  repeat' split
  all_goals exact .interrupted s

theorem Alike.cpList (n : Parsed Nat) (s : State) : Alike s (cpList n s).1 := by
  unfold Machine.cpList
  dsimp only
  repeat' split
  all_goals exact .interrupted s

theorem Alike.takeAmendment (d : String) (g : AmendTarget) (k : AmendKind) (ls : List DocLine) (n : AmendNote) (s : State) :
    Alike s (takeAmendment d g k ls n s).1 := by
  unfold Machine.takeAmendment
  dsimp only
  refine .trans (.modDoc ?_ ?_) (.noteAmendment g.bay n _)
  · exact fun _ => rfl
  · exact fun _ _ => rfl

theorem Alike.cpAmendQty (a : Parsed AmendQtyArgs) (s : State) : Alike s (cpAmendQty a s).1 := by
  unfold Machine.cpAmendQty
  dsimp only
  repeat' split
  any_goals exact .interrupted s
  exact .trans (.interrupted s) (.takeAmendment ..)

theorem Alike.cpAmendProd (a : Parsed AmendProdArgs) (s : State) : Alike s (cpAmendProd a s).1 := by
  unfold Machine.cpAmendProd
  dsimp only
  repeat' split
  any_goals exact .interrupted s
  exact .trans (.interrupted s) (.takeAmendment ..)

theorem Alike.cpAmendRemove (a : Parsed AmendRemoveArgs) (s : State) : Alike s (cpAmendRemove a s).1 := by
  unfold Machine.cpAmendRemove
  dsimp only
  repeat' split
  any_goals exact .interrupted s
  exact .trans (.interrupted s) (.takeAmendment ..)

theorem Alike.cpWithdraw (d : Parsed String) (s : State) : Alike s (cpWithdraw d s).1 := by
  unfold Machine.cpWithdraw
  dsimp only
  repeat' split
  any_goals exact .interrupted s
  dsimp only
  refine .trans (.trans (.interrupted s) (.modDoc ?_ ?_)) (.noteAmendment _ _ _)
  · exact fun _ => rfl
  · exact fun _ _ => rfl

end Sys2Proof.Proofs.Bindings

/-! PROOFS. What the log reports to its sources keeps the bindings (R129, R131, R174 to R177). -/

namespace Sys2Proof.Proofs.Bindings

open Sys2Proof Sys2Proof.Machine Sys2Proof.Laws.Basic Sys2Proof.Laws.Tables Sys2Proof.Laws.Log Sys2Proof.Proofs.Keeping

/-! ## The oldest record leaves a bay (R129) -/

theorem mem_sources_of_atLog {s : State} {b : Bay} {r : LogRec} (h : atLog s b r) : .B b ∈ s.dl.sources := by
  unfold Dl.sources
  rcases h with h | ⟨w, hw, hsource, -⟩
  · exact List.mem_append_right _ (List.mem_map_of_mem h)
  · exact List.mem_append_left _ (hsource ▸ List.mem_map_of_mem (Option.mem_toList.2 hw))

/-- A bay that dispatches nothing, and has no append at the log, gives up its oldest record. -/
theorem BayBound.recordLeaves {v : View} {b : Bay} {u : BayUnit} (h : BayBound v b u) (hlog : ∀ r, ¬v.log b r)
    (hstate : u.state ≠ .DISPATCHING) : BayBound v b { u with outbox := u.outbox.drop 1 } :=
  { h with
    records := ⟨Nat.le_trans (by rw [List.length_drop]; omega) h.records.1,
      fun r hr => h.records.2 r (List.mem_of_mem_drop hr)⟩
    quiet := fun hload _ => by dsimp only; rw [h.quiet hload hstate]; rfl
    leaving := fun hl => absurd hl hstate
    log := fun r hr => absurd hr (hlog r) }

theorem Bound.bayRecordLeaves {s : State} (hs : Bound s) {b : Bay} (hfree : .B b ∉ s.dl.sources)
    (hstate : (s.bay b).state ≠ .DISPATCHING) : Bound (bayRecordLeaves b s) := by
  refine BoundKept.postFrom _ _ (hs.turned (.modBay b _ s) hs.trips (fun c _ => .refl c _) ?_)
  rw [State.bay_modBay_self]
  exact (hs.bays b).recordLeaves (fun r hr => hfree (mem_sources_of_atLog hr)) hstate

/-- A bay with a record at the log holds a load only while its dispatch is on its way. -/
theorem BayBound.unloaded {v : View} {b : Bay} {u : BayUnit} (h : BayBound v b u) {r : LogRec} (hr : u.outbox.head? = some r)
    (hstate : u.state ≠ .DISPATCHING) : u.state.holdsLoad ≠ true := fun hload => by
  rw [h.quiet hload hstate] at hr
  exact nomatch hr

/-- The record of a DISPATCHING bay is its DISPATCH, of its document and its driver. -/
theorem BayBound.departing {v : View} {b : Bay} {u : BayUnit} (h : BayBound v b u) {r : LogRec}
    (hr : u.outbox.head? = some r) (hstate : u.state = .DISPATCHING) : ∃ e z, r.body = .DISPATCH e ∧ u.outbox = [r] ∧
      u.doc = some e.doc ∧ u.driver = some e.drv ∧ v.doc e.doc = some (.BOUND b) ∧ v.driver e.drv = some z ∧
      z.status = .AT_BAY b ∧ z.pend = true := by
  obtain ⟨x, e, z, hout, he, -, hdoc, hdriver, hz, hpend⟩ := h.leaving hstate
  have hload : u.state.holdsLoad = true := by rw [hstate]; rfl
  obtain ⟨d, hd, hbound⟩ := h.doc hload
  obtain ⟨n, y, hn, hy, hat⟩ := h.driver hload
  obtain rfl : e.doc = d := Option.some.inj (hdoc.symm.trans hd)
  obtain rfl : e.drv = n := Option.some.inj (hdriver.symm.trans hn)
  obtain rfl : z = y := Option.some.inj (hz.symm.trans hy)
  rw [hout] at hr
  obtain rfl : x = r := Option.some.inj hr
  refine ⟨e, z, ?_, hout, hdoc, hdriver, hbound, hz, hat, hpend⟩
  unfold dispatchOf at he
  split at he
  · rename_i e' hbody
    rw [hbody, Option.some.inj he]
  · exact nomatch he

/-! ## A bay's record is written (R131) -/

/-- What a departure leaves of the tables. -/
def View.departed (d : String) (n : Nat) (v : View) : View :=
  (v.setDoc d .RELEASED).setDriver n ⟨.ON_TRIP, false, some d⟩

theorem seenAlike_departed {v : View} {b : Bay} {d : String} {n : Nat} {z : Stand} (hd : v.doc d = some (.BOUND b))
    (hz : v.driver n = some z) (hat : z.status = .AT_BAY b) {c : Bay} (hc : c ≠ b) : SeenAlike c v (v.departed d n) := by
  have hdoc : SeenAlike c v (v.setDoc d .RELEASED) := by
    refine .setDoc ?_ nofun
    rw [hd]
    exact fun h => hc (DocState.BOUND.inj (Option.some.inj h)).symm
  refine hdoc.trans (.setDriver ?_ nofun)
  rintro x hx hx'
  obtain rfl := Option.some.inj (hz.symm.trans hx)
  exact hc (DriverStatus.AT_BAY.inj (hx'.symm.trans hat))

/-- The document was at the bay, so no other driver was on a trip with it. -/
theorem TripsOwn.departed {v : View} (h : TripsOwn v) {b : Bay} {d : String} (hd : v.doc d = some (.BOUND b)) (n : Nat) :
    TripsOwn (v.departed d n) := by
  have hdoc := h.setDoc (d := d) (q := .RELEASED) (by rw [hd]; exact nofun)
  have hother (m : Nat) (x : Stand) (hx : v.driver m = some x) (htrip : x.status = .ON_TRIP) : x.trip ≠ some d := by
    intro hxd
    obtain ⟨e, he, hrel⟩ := h.released m x hx htrip
    obtain rfl := Option.some.inj (hxd.symm.trans he)
    rw [hd] at hrel
    exact nomatch hrel
  refine ⟨fun m x hx htrip => ?_, fun m k x y hx hy hxt hyt hsame => ?_⟩
  · by_cases hm : m = n
    · subst hm
      rw [← Option.some.inj ((driver_setDriver_self ..).symm.trans hx)]
      exact ⟨d, rfl, doc_setDoc_self ..⟩
    · exact hdoc.released m x ((driver_setDriver_ne hm).symm.trans hx) htrip
  · by_cases hm : m = n
    · by_cases hk : k = n
      · exact hm.trans hk.symm
      · subst hm
        rw [← Option.some.inj ((driver_setDriver_self ..).symm.trans hx)] at hsame
        exact absurd hsame.symm (hother k y ((driver_setDriver_ne hk).symm.trans hy) hyt)
    · by_cases hk : k = n
      · subst hk
        rw [← Option.some.inj ((driver_setDriver_self ..).symm.trans hy)] at hsame
        exact absurd hsame (hother m x ((driver_setDriver_ne hm).symm.trans hx) hxt)
      · exact h.alone m k x y ((driver_setDriver_ne hm).symm.trans hx) ((driver_setDriver_ne hk).symm.trans hy) hxt hyt hsame

/-- A bay whose dispatch is written agrees with the tables after the departure. -/
theorem BayBound.departed {v : View} {b : Bay} {u w : BayUnit} (h : BayBound v b u) {d : String} {n : Nat}
    (hdoc : u.doc = some d) (hdriver : u.driver = some n) (hstate : w.state = .DISPATCHED) (hctx : w.ctx = u.ctx)
    (hu : u.state = .DISPATCHING) (hempty : w.outbox = []) (hlog : ∀ r, ¬v.log b r) : BayBound (v.departed d n) b w := by
  have hnot : w.state.holdsLoad ≠ true := by rw [hstate]; exact Bool.false_ne_true
  refine ⟨fun hl => absurd hl hnot, fun hl => absurd hl hnot, fun e he => ?_, fun m x hx hat => ?_, fun hc => ?_, ?_,
    fun hl => absurd hl hnot, fun hl => ?_, fun r hr => absurd hr (hlog r)⟩
  · by_cases hed : e = d
    · subst hed
      exact absurd (Option.some.inj ((doc_setDoc_self ..).symm.trans he)) nofun
    · exact absurd (Option.some.inj (hdoc.symm.trans (h.docAlone e ((doc_setDoc_ne hed).symm.trans he)).2)).symm hed
  · by_cases hmn : m = n
    · subst hmn
      rw [← Option.some.inj ((driver_setDriver_self ..).symm.trans hx)] at hat
      exact nomatch hat
    · have hold := h.driverAlone m x ((driver_setDriver_ne hmn).symm.trans hx) hat
      exact absurd (Option.some.inj (hdriver.symm.trans hold.2)).symm hmn
  · rw [hctx] at hc
    have hflow := h.ctx hc
    rw [hu] at hflow
    exact nomatch hflow
  · rw [hempty]
    exact ⟨Nat.zero_le _, fun _ hr => nomatch hr⟩
  · rw [hstate] at hl
    exact nomatch hl

/-- CP and DT follow the bay's departure (R61, R98). -/
theorem Turned.depart {b : Bay} {s : State} {d : String} {n : Nat} {z : Stand} (hd : (Bindings.view s).doc d = some (.BOUND b))
    (hz : (Bindings.view s).driver n = some z) (hat : z.status = .AT_BAY b) (hpend : z.pend = true) :
    Turned b s (dtComplete n b d (cpRelease d b s)) ((Bindings.view s).departed d n) := by
  obtain ⟨x, hx, hstate⟩ := docOf_of_view hd
  obtain ⟨y, hy, rfl⟩ := driverOf_of_view hz
  have hdoc : Turned b s (cpRelease d b s) ((Bindings.view s).setDoc d .RELEASED) := by
    have h := Turned.modDoc (b := b) (f := fun x => if x.state = .BOUND b then { x with state := .RELEASED, stack := [] } else x)
      (fun y => by split <;> rfl) hx
    rwa [if_pos hstate] at h
  have hdriver := hdoc.trans (.modDriver (b := b) (s := cpRelease d b s)
    (f := fun x => if x.status = .AT_BAY b ∧ x.pend = true then
      { x with list := (cpRelease d b s).departList x.list, trip := some d, status := .ON_TRIP, pend := false } else x)
    (fun y => by split <;> rfl) hy)
  rw [if_pos ⟨hat, hpend⟩, hdoc.view] at hdriver
  exact hdriver

/-- No document is at a bay without a load, and no driver: a late DISPATCH record changes neither (R61, R98). -/
theorem Alike.departLate {s : State} (hs : Bound s) {b : Bay} (hload : (s.bay b).state.holdsLoad ≠ true) (d : String) (n : Nat) :
    Alike s (dtComplete n b d (cpRelease d b s)) := by
  have hdoc : Alike s (cpRelease d b s) := by
    refine .modDoc (fun y => by split <;> rfl) fun x hx => ?_
    rw [if_neg fun hstate => hload ((hs.bays b).docAlone d ((view_doc_of hx).trans (congrArg some hstate))).1]
  refine hdoc.trans (.modDriver (fun y => by split <;> rfl) fun x hx => ?_)
  rw [if_neg fun h => hload ((hs.bays b).driverAlone n _ (view_driver_of (s := s) hx) h.1).1]

theorem Bound.bayWritten {s : State} (hs : Bound s) {b : Bay} {r : LogRec} (hr : (s.bay b).outbox.head? = some r)
    (hfree : .B b ∉ s.dl.sources) : Bound (bayWritten b r s) := by
  unfold Machine.bayWritten
  split
  · rename_i e he
    dsimp only
    split
    · rename_i hstate
      obtain ⟨e', z, he', hout, hdoc, hdriver, hd, hz, hat, hpend⟩ := (hs.bays b).departing hr hstate
      obtain rfl : e = e' := Body.DISPATCH.inj (he.symm.trans he')
      refine BoundKept.postFrom _ _ ?_
      have hdepart := Turned.depart hd hz hat hpend
      have hbay := (Turned.changeBay b "DEPARTED" false .stateFirst (fun u => { u with state := .DISPATCHED })
        (dtComplete e.drv b e.doc (cpRelease e.doc b s))).trans (.modBay b (fun u => { u with outbox := u.outbox.drop 1 }) _)
      rw [(Turned.changeBay ..).view, hdepart.view] at hbay
      refine hs.turned (hdepart.trans hbay) (hs.trips.departed hd _) (fun c hc => seenAlike_departed hd hz hat hc) ?_
      rw [State.bay_modBay_self, bay_changeBay_self]
      refine (hs.bays b).departed hdoc hdriver rfl rfl hstate ?_ fun r hr => hfree (mem_sources_of_atLog hr)
      show (s.bay b).outbox.drop 1 = []
      rw [hout]
      rfl
    · rename_i hstate
      have hlate := (Alike.departLate hs ((hs.bays b).unloaded hr hstate) e.doc e.drv).trans (.tellLate b e.doc _)
      refine (hlate.kept hs).bayRecordLeaves ?_ (mt (hlate.bays b).leaving.1 hstate)
      unfold Dl.sources
      rw [hlate.queue, hlate.writing]
      exact hfree
  · rename_i hbody
    refine hs.bayRecordLeaves hfree fun hstate => ?_
    obtain ⟨e, -, he, -⟩ := (hs.bays b).departing hr hstate
    exact hbody e he

/-! ## A bay's record is refused (R131) -/

/-- A refused dispatch brings its bay back to ASSIGNED. -/
theorem BayBound.abandoned {v : View} {b : Bay} {u w : BayUnit} (h : BayBound v b u) (hu : u.state = .DISPATCHING) {n : Nat}
    {z : Stand} (hz : v.driver n = some z) (hn : u.driver = some n) (hstate : w.state = .ASSIGNED) (hdoc : w.doc = u.doc)
    (hdriver : w.driver = u.driver) (hctx : w.ctx = u.ctx) (hempty : w.outbox = []) (hlog : ∀ r, ¬v.log b r) :
    BayBound (v.setDriver n { z with pend := false }) b w := by
  have hload : u.state.holdsLoad = true := by rw [hu]; rfl
  have hload' : w.state.holdsLoad = true := by rw [hstate]; rfl
  refine ⟨fun _ => hdoc ▸ h.doc hload, fun _ => ?_, fun d hd => ⟨hload', hdoc ▸ (h.docAlone d hd).2⟩, fun m x hx hat => ?_,
    fun hc => ?_, ?_, fun _ _ => hempty, fun hl => ?_, fun r hr => absurd hr (hlog r)⟩
  · obtain ⟨m, y, hm, hy, hat⟩ := h.driver hload
    obtain rfl : n = m := Option.some.inj (hn.symm.trans hm)
    obtain rfl : z = y := Option.some.inj (hz.symm.trans hy)
    exact ⟨n, _, hdriver.trans hn, driver_setDriver_self .., hat⟩
  · by_cases hmn : m = n
    · exact ⟨hload', hmn ▸ hdriver.trans hn⟩
    · exact ⟨hload', hdriver ▸ (h.driverAlone m x ((driver_setDriver_ne hmn).symm.trans hx) hat).2⟩
  · rw [hctx] at hc
    have hflow := h.ctx hc
    rw [hu] at hflow
    exact nomatch hflow
  · rw [hempty]
    exact ⟨Nat.zero_le _, fun _ hr => nomatch hr⟩
  · rw [hstate] at hl
    exact nomatch hl

theorem Turned.dtAbandon {b : Bay} {s : State} {n : Nat} {z : Stand} (hz : (Bindings.view s).driver n = some z)
    (hat : z.status = .AT_BAY b) : Turned b s (dtAbandon n b s) ((Bindings.view s).setDriver n { z with pend := false }) := by
  obtain ⟨y, hy, rfl⟩ := driverOf_of_view hz
  have h := Turned.modDriver (b := b) (f := fun x => if x.status = .AT_BAY b then { x with pend := false } else x)
    (fun y => by split <;> rfl) hy
  have hat' : y.status = .AT_BAY b := hat
  rwa [if_pos hat'] at h

/-- What a refusal makes of the bay, its record still in the outbox. -/
def refusedBay (r : LogRec) (u : BayUnit) : BayUnit :=
  { u.countRefusal with state := if isDispatch r ∧ u.state = .DISPATCHING then .ASSIGNED else u.state }

theorem Bound.bayRefused {s : State} (hs : Bound s) {b : Bay} {r : LogRec} (hr : (s.bay b).outbox.head? = some r)
    (hfree : .B b ∉ s.dl.sources) : Bound (bayRefused b r s) := by
  by_cases hstate : (s.bay b).state = .DISPATCHING
  · obtain ⟨e, z, he, hout, -, hdriver, -, hz, hat, -⟩ := (hs.bays b).departing hr hstate
    have hdispatch : isDispatch r = true := by unfold isDispatch; rw [he]
    have habandon := Turned.dtAbandon hz hat
    have hbay := ((Turned.modBay b (refusedBay r) (dtAbandon e.drv b s)).trans (.raise b (.B b) .STATE
      (stateFields (((dtAbandon e.drv b s).modBay b (refusedBay r)).bay b) "LOG_FULL") _)).trans
      (.modBay b (fun u => { u with outbox := u.outbox.drop 1 }) _)
    replace hbay : Turned b _ _ (view (dtAbandon e.drv b s)) := hbay
    rw [habandon.view] at hbay
    have hpost : Machine.bayRefused b r s = postFrom (.B b) ((tellState b "LOG_FULL" ((dtAbandon e.drv b s).modBay b
        (refusedBay r))).modBay b fun u => { u with outbox := u.outbox.drop 1 }) := by
      unfold Machine.bayRefused
      simp only [he]
      rfl
    rw [hpost]
    refine BoundKept.postFrom _ _ (hs.turned (habandon.trans hbay) (hs.trips.setDriver ?_)
      (fun c hc => .setDriver (fun x hx hx' => ?_) ?_) ?_)
    · show z.status ≠ .ON_TRIP
      rw [hat]
      exact nofun
    · obtain rfl := Option.some.inj (hz.symm.trans hx)
      exact hc (DriverStatus.AT_BAY.inj (hx'.symm.trans hat))
    · exact fun h => hc (DriverStatus.AT_BAY.inj (h.symm.trans hat))
    · have hraised (u : UnitName) (k : NKind) (fs : List Fld) (t : State) : (raise u k fs t).bay b = t.bay b := rfl
      unfold Machine.tellState
      rw [State.bay_modBay_self, hraised, State.bay_modBay_self]
      refine (hs.bays b).abandoned hstate hz hdriver (if_pos ⟨hdispatch, hstate⟩) rfl rfl rfl ?_
        fun r hr => hfree (mem_sources_of_atLog hr)
      show (s.bay b).outbox.drop 1 = []
      rw [hout]
      rfl
  · have hload := (hs.bays b).unloaded hr hstate
    have habandon : Alike s (match r.body with | .DISPATCH d => dtAbandon d.drv b s | _ => s) := by
      split
      · refine .modDriver (fun y => by split <;> rfl) fun x hx => ?_
        have hnot : ¬x.status = .AT_BAY b := fun h => hload ((hs.bays b).driverAlone _ _ (view_driver_of hx) h).1
        rw [if_neg hnot]
      · exact .refl s
    have hbay {t : State} (ht : t.bay b = s.bay b) : Alike t (t.modBay b (refusedBay r)) :=
      .modBay (.of_same (if_neg fun h => hstate (ht ▸ h.2)) rfl rfl rfl rfl)
    have hrefused := (habandon.trans (hbay (by split <;> rfl))).trans (.tellState b "LOG_FULL" _)
    refine (hrefused.kept hs).bayRecordLeaves ?_ (mt (hrefused.bays b).leaving.1 hstate)
    unfold Dl.sources
    rw [hrefused.queue, hrefused.writing]
    exact hfree

end Sys2Proof.Proofs.Bindings

/-! PROOFS. Appends, writes and starts keep the bindings (R137, R138, R174 to R177, R192). -/

namespace Sys2Proof.Proofs.Bindings

open Sys2Proof Sys2Proof.Machine Sys2Proof.Laws.Basic Sys2Proof.Laws.Tables Sys2Proof.Laws.Log Sys2Proof.Proofs.Keeping
open Sys2Proof.Proofs.Valves

/-! ## Appends and writes (R174 to R177) -/

theorem BoundKept.ckRecordLeaves (s : State) : BoundKept s (ckRecordLeaves s) :=
  .trans (Alike.modCk (fun c => { c with outbox := c.outbox.drop 1 }) s).kept (.postFrom _ _)

theorem Alike.stOutcome (r : LogRec) (seq : Option Nat) (s : State) : Alike s (stOutcome r seq s) :=
  .trans (.modSt (fun t => { t with outbox := none }) s) (.raise _ _ _ _)

/-- The append that the log gave up was the source's own, and of a bay its oldest record. -/
structure GivenUp (src : LogSource) (r : LogRec) (s : State) : Prop where
  bound : Bound s
  free : src ∉ s.dl.sources
  head : ∀ b : Bay, src = .B b → (s.bay b).outbox.head? = some r

theorem GivenUp.reportRefused {src : LogSource} {r : LogRec} {s : State} (h : GivenUp src r s) :
    Bound (reportRefused src r s) := by
  cases src
  case B b => exact h.bound.bayRefused (h.head b rfl) h.free
  case DT => exact BoundKept.dtRefused s h.bound
  case CK => exact BoundKept.ckRecordLeaves s h.bound
  case ST => exact (Alike.stOutcome r none s).kept h.bound
  case DV => exact h.bound

theorem GivenUp.reportWritten {src : LogSource} {r : LogRec} {s : State} (h : GivenUp src r s) (seq : Nat) :
    Bound (reportWritten src r seq s) := by
  cases src
  case B b => exact h.bound.bayWritten (h.head b rfl) h.free
  case DT => exact BoundKept.dtRecordLeaves s h.bound
  case CK => exact BoundKept.ckRecordLeaves s h.bound
  case ST => exact (Alike.stOutcome r (some seq) s).kept h.bound
  case DV => exact h.bound

/-- The log may give up appends: what it still has was there before. -/
theorem Bound.fewerAppends {s t : State} (hs : Bound s) (hcp : t.cp = s.cp) (hdt : t.dt = s.dt) (hbays : t.bays = s.bays)
    (hsources : t.dl.sources.Nodup) (hlog : ∀ b r, atLog t b r → (s.bay b).outbox.head? = some r) : Bound t := by
  have hdoc : (view t).doc = (view s).doc := view_doc_congr (by rw [hcp])
  have hdriver : (view t).driver = (view s).driver := view_driver_congr (by rw [hdt])
  refine ⟨hsources, hcp ▸ hs.docNums, hdt ▸ hs.driverNums, ⟨?_, ?_⟩, fun b => ?_⟩
  · rw [hdoc, hdriver]; exact hs.trips.released
  · rw [hdriver]; exact hs.trips.alone
  · have hbay : t.bay b = s.bay b := by rw [State.bay, hbays]; rfl
    have hb := hs.bays b
    rw [hbay]
    exact { hb with
      doc := by rw [hdoc]; exact hb.doc
      driver := by rw [hdriver]; exact hb.driver
      docAlone := by rw [hdoc]; exact hb.docAlone
      driverAlone := by rw [hdriver]; exact hb.driverAlone
      leaving := by rw [hdriver]; exact hb.leaving
      log := hlog b }

/-- The head append leaves the queue. -/
theorem GivenUp.headAppend {s : State} (hs : Bound s) {a : Append} {rest : List Append} (hq : s.dl.queue = a :: rest)
    (hw : s.dl.writing = none) : GivenUp a.source a.record (s.modDl fun d => { d with queue := d.queue.drop 1 }) := by
  have hsources : s.dl.sources = a.source :: rest.map (·.source) := by
    unfold Dl.sources
    rw [hq, hw]
    rfl
  have hsources' : (s.modDl fun d => { d with queue := d.queue.drop 1 }).dl.sources = rest.map (·.source) := by
    show s.dl.writing.toList.map (·.source) ++ (s.dl.queue.drop 1).map (·.source) = _
    rw [hq, hw]
    rfl
  have hnodup := hsources ▸ hs.sources
  refine ⟨hs.fewerAppends rfl rfl rfl (hsources' ▸ (List.nodup_cons.1 hnodup).2) fun b r hr => ?_,
    hsources' ▸ (List.nodup_cons.1 hnodup).1, fun b hb => ?_⟩
  · exact (hs.bays b).log r (hr.imp_left List.mem_of_mem_drop)
  · exact (hs.bays b).log _ (.inl (by rw [hq, ← hb]; exact List.mem_cons_self))

theorem Alike.tellSpace (s : State) : Alike s (tellSpace s) := .raise _ _ _ s

theorem Bound.refuseAppend {s : State} (hs : Bound s) {a : Append} {rest : List Append} (hq : s.dl.queue = a :: rest)
    (hw : s.dl.writing = none) : Bound (refuseAppend a s) := by
  have hreported := (GivenUp.headAppend hs hq hw).reportRefused
  have htold := ((Alike.modDl (f := fun d => { d with refused := satAdd Config.maxCount16 d.refused 1 }) rfl rfl).trans
    (.tellSpace _)).kept hreported
  unfold Machine.refuseAppend
  dsimp only
  split
  · exact (Alike.raise _ _ _ _).kept htold
  · exact htold

/-- The record of a bay is written as it stands in the outbox. -/
theorem fillCounts_bayBody {r : LogRec} (h : bayBody r.body = true) (n : DayCounts) : fillCounts n r = r := by
  unfold fillCounts
  split
  · rename_i hbody
    rw [hbody] at h
    exact nomatch h
  · rfl

theorem Bound.beginWrite {s : State} (hs : Bound s) {a : Append} {rest : List Append} (hq : s.dl.queue = a :: rest)
    (hw : s.dl.writing = none) (i : SegNo) (opened : Bool) : Bound (beginWrite a i opened s) := by
  have hsources : (Machine.beginWrite a i opened s).dl.sources = s.dl.sources := by
    show a.source :: (s.dl.queue.drop 1).map (·.source) = s.dl.writing.toList.map (·.source) ++ s.dl.queue.map (·.source)
    rw [hq, hw]
    rfl
  refine hs.fewerAppends rfl rfl rfl (hsources ▸ hs.sources) fun b r hr => ?_
  rcases hr with hr | ⟨w, hwr, hsource, rfl⟩
  · exact (hs.bays b).log r (.inl (List.mem_of_mem_drop hr))
  · obtain rfl := Option.some.inj hwr
    have hhead := (hs.bays b).log a.record (.inl (by rw [hq, ← hsource]; exact List.mem_cons_self))
    have hbody := (hs.bays b).records.2 a.record (List.mem_of_mem_head? (by rw [hhead]; rfl))
    show (s.bay b).outbox.head? = some (fillCounts s.dl.day a.record)
    rw [fillCounts_bayBody hbody]
    exact hhead

theorem Alike.openSegment (i : SegNo) (s : State) : Alike s (openSegment i s) := by
  obtain ⟨c, fs, h⟩ := openSegment_eq i s
  rw [h]
  refine .trans (.modDl ?_ ?_) (.raiseIf _ _ _ _ _) <;> rw [opening_frame]

theorem BoundKept.serveAppend (s : State) : BoundKept s (serveAppend s) := fun hs => by
  unfold Machine.serveAppend
  split
  · exact hs
  · rename_i hfree
    have hw : s.dl.writing = none := by
      rcases h : s.dl.writing with _ | w
      · rfl
      · rw [h] at hfree
        simp at hfree
    split
    · exact hs
    · rename_i a rest hq
      split
      · exact hs.beginWrite hq hw _ _
      · have hopen := Alike.openSegment ‹SegNo› s
        exact (hopen.kept hs).beginWrite (hopen.queue.trans hq) (hopen.writing.trans hw) _ _
      · exact hs.refuseAppend hq hw

theorem BoundKept.writeDone (s : State) : BoundKept s (writeDone s) := fun hs => by
  unfold Machine.writeDone
  split
  · exact hs
  · rename_i w hw
    dsimp only
    generalize ht : (s.modDl fun d => { placeRecord w (some (recordCheck w.seq w.record)) d with
      day := countRecord w.record.body (placeRecord w (some (recordCheck w.seq w.record)) d).day }) = t
    have hdl : t.dl.queue = s.dl.queue ∧ t.dl.writing = none := by rw [← ht]; exact ⟨rfl, rfl⟩
    have hsources : s.dl.sources = w.source :: t.dl.sources := by
      unfold Dl.sources
      rw [hdl.1, hdl.2, hw]
      rfl
    have hnodup := hsources ▸ hs.sources
    have hgiven : GivenUp w.source w.record t := by
      have hbays : t.bays = s.bays := by rw [← ht]; rfl
      refine ⟨hs.fewerAppends (by rw [← ht]; rfl) (by rw [← ht]; rfl) hbays (List.nodup_cons.1 hnodup).2 fun b r hr => ?_,
        (List.nodup_cons.1 hnodup).1, fun b hb => ?_⟩
      · rcases hr with hr | ⟨x, hx, -⟩
        · exact (hs.bays b).log r (.inl (hdl.1 ▸ hr))
        · rw [hdl.2] at hx
          exact nomatch hx
      · have hlog := (hs.bays b).log w.record (.inr ⟨w, hw, hb, rfl⟩)
        rw [State.bay, hbays]
        exact hlog
    have hreported := hgiven.reportWritten w.seq
    split
    · exact ((Alike.modDl rfl rfl).trans (.raise _ _ _ _)).kept hreported
    · exact hreported

theorem Alike.scanDone (s : State) : Alike s (scanDone s) := by
  unfold Machine.scanDone
  dsimp only
  have hscan : Alike s (reportLog (s.modDl fun d => { scanned d with scan := false })) :=
    .trans (.modDl rfl rfl) (.setComponents _ _)
  split
  · have hcut : Alike s (match allSegs.find? fun i => s.dl.segs[i].state == .RECLAIMING with
        | some i => tellReclaim "INTERRUPTED" i (reportLog (s.modDl fun d => { scanned d with scan := false }))
        | none => reportLog (s.modDl fun d => { scanned d with scan := false })) := by
      split
      · exact hscan.trans (.raise _ _ _ _)
      · exact hscan
    split
    · exact .trans hcut (.raise _ _ _ _)
    · exact hcut
  · exact .refl s

theorem Alike.reclaimDone (s : State) : Alike s (reclaimDone s) := by
  unfold Machine.reclaimDone
  split
  · exact .refl s
  · split
    · exact .trans (.trans (.modDl rfl rfl) (.raise _ _ _ _)) (.raiseIf _ _ _ _ _)
    · exact .refl s

/-! ## The bays over a start that is not cold (R137) -/

/-- What a start takes a bay for, before it comes to it: a dispatch on its way is given up. -/
def asHeld (u : BayUnit) : BayUnit := { u.warm with state := if u.state = .DISPATCHING then .HELD else u.state }

theorem flowing_asHeld (u : BayUnit) : (asHeld u).state.flowing = u.state.flowing := by
  unfold asHeld
  dsimp only
  split
  · rename_i h
    rw [h]
    rfl
  · rfl

theorem holdsLoad_asHeld (u : BayUnit) : (asHeld u).state.holdsLoad = u.state.holdsLoad := by
  unfold asHeld
  dsimp only
  split
  · rename_i h
    rw [h]
    rfl
  · rfl

theorem asHeld_not_dispatching (u : BayUnit) : (asHeld u).state ≠ .DISPATCHING := by
  unfold asHeld
  dsimp only
  split
  · exact nofun
  · assumption

theorem BayFlow.asHeld {u w : BayUnit} (h : BayFlow u w) : BayFlow (asHeld u) (asHeld w) where
  load := by rw [holdsLoad_asHeld, holdsLoad_asHeld]; exact h.load
  leaving := iff_of_false (asHeld_not_dispatching w) (asHeld_not_dispatching u)
  doc hu := h.doc (holdsLoad_asHeld u ▸ hu)
  driver hu := h.driver (holdsLoad_asHeld u ▸ hu)
  ctx hu hw := by
    rw [flowing_asHeld] at hu ⊢
    exact h.ctx hu hw
  outbox := congrArg (List.filter fun r => !isDispatch r) h.outbox

/-- The bindings while a start comes to the bays one by one, with nothing at the log. -/
structure Starting (s : State) : Prop where
  queue : s.dl.queue = []
  writing : s.dl.writing = none
  docNums : (s.cp.docs.map (·.num)).Nodup
  driverNums : (s.dt.drivers.map (·.num)).Nodup
  trips : TripsOwn (view s)
  bays : ∀ b : Bay, BayBound (view s) b (asHeld (s.bay b))

theorem Alike.starting {s t : State} (h : Alike s t) (hs : Starting s) : Starting t :=
  ⟨h.queue.trans hs.queue, h.writing.trans hs.writing, h.docNums ▸ hs.docNums, h.driverNums ▸ hs.driverNums,
    h.view_eq ▸ hs.trips, fun b => by rw [h.view_eq]; exact (hs.bays b).flow (h.bays b).asHeld⟩

theorem Starting.turned {b : Bay} {s t : State} {v : View} (hs : Starting s) (h : Turned b s t v) (hdl : t.dl = s.dl)
    (htrips : TripsOwn v) (hseen : ∀ c, c ≠ b → SeenAlike c (view s) v) (hb : BayBound v b (asHeld (t.bay b))) : Starting t := by
  refine ⟨hdl ▸ hs.queue, hdl ▸ hs.writing, h.docNums ▸ hs.docNums, h.driverNums ▸ hs.driverNums, h.view ▸ htrips, fun c => ?_⟩
  rw [h.view]
  by_cases hc : c = b
  · rw [hc]
    exact hb
  · rw [h.others c hc]
    exact (hs.bays c).seen (hseen c hc)

/-- A change of the bay that a start makes of what it takes it for. -/
theorem Starting.changeBay {s : State} (hs : Starting s) {b : Bay} {r : String} {l : Bool} {o : NoticeOrder}
    {f : BayUnit → BayUnit} (h : BayFlow (asHeld (s.bay b)) (asHeld (f (s.bay b)))) : Starting (changeBay b r l o f s) := by
  refine hs.turned (.changeBay b r l o f s) (by simp) hs.trips (fun c _ => .refl c _) ?_
  rw [bay_changeBay_self]
  exact (hs.bays b).flow (h.trans (BayFlow.refl (f (s.bay b))).drive.asHeld)

/-- The state a bay comes to, and what is left of its outbox. -/
structure Restarted (u : BayUnit) : Prop where
  state : u.state = .CLOSED ∨ u.state = .IDLE ∨ u.state = .HELD
  outbox : ∀ r ∈ u.outbox, isDispatch r = false

theorem BayFlow.of_restarted {u : BayUnit} (h : Restarted u) : BayFlow (Bindings.asHeld u) u := by
  refine .of_same (Eq.symm (if_neg ?_)) rfl rfl rfl (Eq.symm ?_)
  · rcases h.state with h | h | h <;> rw [h] <;> nofun
  · exact List.filter_eq_self.2 fun r hr => by rw [h.outbox r hr]; rfl

theorem Starting.bound {s : State} (hs : Starting s) (h : ∀ b : Bay, Restarted (s.bay b)) : Bound s := by
  refine ⟨?_, hs.docNums, hs.driverNums, hs.trips, fun b => (hs.bays b).flow (.of_restarted (h b))⟩
  unfold Dl.sources
  rw [hs.queue, hs.writing]
  exact List.nodup_nil

theorem warm_outbox (u : BayUnit) : ∀ r ∈ u.warm.outbox, isDispatch r = false := fun r hr => by
  simpa using (List.mem_filter.1 hr).2

theorem outbox_endWithout (s : State) (b : Bay) (u : BayUnit) : (u.endWithout s b).outbox = u.outbox := by
  unfold BayUnit.endWithout
  split <;> rfl

/-- Whatever a bay was, it is CLOSED, IDLE or HELD once the start has come to it. -/
theorem restarted_restartBay (b : Bay) (s : State) : Restarted ((restartBay b s).bay b) := by
  have hwarm : ∀ r ∈ ((s.modBay b BayUnit.warm).bay b).outbox, isDispatch r = false := by
    rw [State.bay_modBay_self]
    exact warm_outbox _
  unfold Machine.restartBay
  dsimp only
  generalize s.modBay b BayUnit.warm = t at *
  split
  · exact ⟨.inl ‹_›, hwarm⟩
  · exact ⟨.inr (.inl ‹_›), hwarm⟩
  any_goals
    split
    · rw [bay_changeBay_self]
      exact ⟨.inr (.inr rfl), hwarm⟩
    · rw [bay_changeBay_self, bay_unbindBay]
      exact ⟨.inr (.inl rfl), hwarm⟩
  iterate 3
    rw [bay_changeBay_self]
    refine ⟨.inr (.inr rfl), ?_⟩
    show ∀ r ∈ ((t.bay b).endWithout t b).outbox, isDispatch r = false
    rw [outbox_endWithout]
    exact hwarm
  · rw [bay_changeBay_self]
    exact ⟨.inr (.inr rfl), hwarm⟩
  · rw [bay_changeBay_self]
    exact ⟨.inr (.inl rfl), hwarm⟩

theorem asHeld_warm (u : BayUnit) : asHeld u.warm = asHeld u := by
  unfold asHeld BayUnit.warm
  simp only [List.filter_filter, Bool.and_self]

/-- A bay with a load is held (R137). -/
theorem BayFlow.keep {u w : BayUnit} (hu : u.state.holdsLoad = true) (hdoc : w.doc = u.doc) (hdriver : w.driver = u.driver)
    (hctx : (u.ctx.isSome = true → u.state.flowing = true) → w.ctx = none) (houtbox : w.outbox = u.outbox) :
    BayFlow (Bindings.asHeld u) (Bindings.asHeld w.keep) := by
  refine .of_loaded ((holdsLoad_asHeld u).trans hu) (asHeld_not_dispatching u) rfl nofun hdoc hdriver (fun h hw => ?_)
    (congrArg (List.filter fun r => !isDispatch r) houtbox)
  rw [flowing_asHeld] at h
  have hnone : w.ctx.isSome = true := hw
  rw [hctx h] at hnone
  exact nomatch hnone

/-- A bay in a state without an active compartment has none, as its bindings say. -/
theorem ctx_none_of {u : BayUnit} (hstate : u.state.flowing = false) (h : u.ctx.isSome = true → u.state.flowing = true) :
    u.ctx = none := by
  rcases hc : u.ctx with _ | c
  · rfl
  · rw [hc, hstate] at h
    exact nomatch h rfl

theorem Starting.restartBay {s : State} (hs : Starting s) (b : Bay) : Starting (restartBay b s) := by
  have hwarm : Starting (s.modBay b BayUnit.warm) := by
    refine hs.turned (.modBay b _ s) rfl hs.trips (fun c _ => .refl c _) ?_
    rw [State.bay_modBay_self, asHeld_warm]
    exact hs.bays b
  unfold Machine.restartBay
  dsimp only
  generalize s.modBay b BayUnit.warm = t at *
  have hheld (hload : (t.bay b).state.holdsLoad = true) (hflow : (t.bay b).state.flowing = false) {r : String} {l : Bool} :
      Starting (Machine.changeBay b r l .stateFirst BayUnit.keep t) :=
    hwarm.changeBay (.keep hload rfl rfl (ctx_none_of hflow) rfl)
  have hgiven (hload : (t.bay b).state.holdsLoad = true) {r : String} :
      Starting (Machine.changeBay b r true .stateFirst (BayUnit.empty · .IDLE) (Machine.unbindBay b t)) := by
    have hload' := (holdsLoad_asHeld (t.bay b)).trans hload
    obtain ⟨d, hdoc, hd⟩ := (hwarm.bays b).doc hload'
    obtain ⟨n, z, hdriver, hz, hat⟩ := (hwarm.bays b).driver hload'
    have hunbound := Turned.unbindBay (b := b) (s := t) hdoc hdriver hd hz hat
    have hturned := Turned.changeBay b r true .stateFirst (BayUnit.empty · .IDLE) (Machine.unbindBay b t)
    rw [hunbound.view] at hturned
    refine hwarm.turned (hunbound.trans hturned) ?_ (hwarm.trips.unbound hd n z) (fun c hc => seenAlike_unbound hd hz hat hc) ?_
    · rw [dl_changeBay, BayLeaving.unbindBay_frame]
    · rw [bay_changeBay_self, bay_unbindBay]
      refine ((hwarm.bays b).emptied hload' hdoc hdriver (st := .IDLE) rfl (recs := []) (Nat.zero_le _) nofun).flow ?_
      exact .of_same rfl rfl rfl rfl (List.append_nil _).symm
  have hended (hflow : (t.bay b).state.flowing = true) {r : String} :
      Starting (Machine.changeBay b r true .stateFirst (fun u => (u.endWithout t b).keep) t) := by
    refine hwarm.changeBay (.keep (flowing_holdsLoad hflow).1 ?_ ?_ (fun _ => ?_) (outbox_endWithout ..)) <;>
      (unfold BayUnit.endWithout; split) <;> first | rfl | assumption
  split
  · exact hwarm
  · exact hwarm
  any_goals
    rename_i hstate
    split
    · exact hheld (by rw [hstate]; rfl) (by rw [hstate]; rfl)
    · exact hgiven (by rw [hstate]; rfl)
  iterate 3
    rename_i hstate
    exact hended (by rw [hstate]; rfl)
  · rename_i hstate
    exact hheld (by rw [hstate]; rfl) (by rw [hstate]; rfl)
  · rename_i hstate
    exact (Alike.changeBay (.empty (by rw [hstate]; rfl) rfl)).starting hwarm

/-- After the factory defaults were loaded every bay is CLOSED, and holds nothing (R138). -/
theorem Bound.closeBay {s : State} (hs : Bound s) {b : Bay}
    (hstate : (s.bay b).state = .CLOSED ∨ (s.bay b).state = .IDLE ∨ (s.bay b).state = .HELD) : Bound (closeBay b s) := by
  unfold Machine.closeBay
  split
  · exact hs
  · rename_i hheld
    exact hs.vacateBay (by rw [hheld]; rfl) _ _ rfl
  · rename_i hclosed hheld
    have hidle : (s.bay b).state = .IDLE := (hstate.resolve_left hclosed).resolve_right hheld
    refine (Alike.changeBay (.of_empty (by rw [hidle]; rfl) rfl (ctx_none_of (by rw [hidle]; rfl)) rfl)).kept hs

theorem bay_closeBay_ne {b c : Bay} (h : b ≠ c) (s : State) : (closeBay b s).bay c = s.bay c := by
  unfold closeBay vacateBay
  split
  · rfl
  · rw [bay_changeBay_ne _ _ _ _ _ _ _ h, bay_unbindBay]
  · rw [bay_changeBay_ne _ _ _ _ _ _ _ h]

theorem state_closeBay (b : Bay) (s : State) : ((closeBay b s).bay b).state = .CLOSED := by
  unfold closeBay vacateBay
  split
  · assumption
  · rw [bay_changeBay_self]
    rfl
  · rw [bay_changeBay_self]
    rfl

theorem Starting.restartBays {s : State} (hs : Starting s) : Bound (restartBays s) := by
  have hbays : Starting (Machine.forBays Machine.restartBay s) := Telling.forBays_holds (fun c t ht => ht.restartBay c) hs
  have hrestarted : ∀ b : Bay, Restarted ((Machine.forBays Machine.restartBay s).bay b) :=
    forBays_all (fun _ _ t h => bay_restartBay_ne h t) restarted_restartBay s
  have hbound := hbays.bound hrestarted
  unfold Machine.restartBays
  dsimp only
  split
  · refine And.left (Telling.forBays_holds (P := fun t => Bound t ∧ ∀ b : Bay, (t.bay b).state = .CLOSED ∨
      (t.bay b).state = .IDLE ∨ (t.bay b).state = .HELD) (fun c t ht => ⟨ht.1.closeBay (ht.2 c), fun b => ?_⟩)
      ⟨hbound, fun b => (hrestarted b).state⟩)
    by_cases hc : c = b
    · exact .inl (hc ▸ state_closeBay c t)
    · rw [bay_closeBay_ne hc]
      exact ht.2 b
  · exact hbound

end Sys2Proof.Proofs.Bindings

/-! PROOFS. Every row keeps the bindings (R111). -/

namespace Sys2Proof.Proofs.Bindings

open Sys2Proof Sys2Proof.Machine Sys2Proof.Laws.Basic Sys2Proof.Laws.Tables Sys2Proof.Laws.Log Sys2Proof.Proofs.Keeping
open Sys2Proof.Proofs.Steps

/-! ## The clock (R21 to R30) -/

theorem Alike.recomputeDst (tell : Bool → Bool → Bool) (s : State) : Alike s (recomputeDst tell s) :=
  .trans (.modCk (fun c => { c with dst := c.inForce }) s) (.raiseIf _ _ _ _ _)

theorem BoundKept.ckRecord (r : LogRec) (s : State) : BoundKept s (ckRecord r s) :=
  .trans (Alike.modCk (fun c => { c with outbox := c.outbox ++ [r] }) s).kept (.postFrom _ _)

theorem BoundKept.fireDay (date : Nat) (s : State) : BoundKept s (fireDay date s) :=
  .trans (Alike.modCk (fun c => { c with lastFired := some date }) s).kept (.ckRecord _ _)

theorem BoundKept.testMinute (m : Nat) (s : State) : BoundKept s (testMinute m s) := by
  unfold Machine.testMinute
  split
  · exact .fireDay _ s
  · exact .refl s

theorem BoundKept.minuteReached (s : State) : BoundKept s (minuteReached s) := by
  unfold Machine.minuteReached
  split
  · exact .trans (Alike.modCk _ s).kept (.testMinute _ _)
  · exact .refl s

theorem BoundKept.dstReached (s : State) : BoundKept s (dstReached s) := by
  unfold Machine.dstReached
  dsimp only
  split
  · have hstate := Alike.modCk (fun c => { c with dst := c.inForce }) s
    split
    · split
      · exact .trans (hstate.trans (.raise _ _ _ _)).kept (.fireDay _ _)
      · exact (hstate.trans (.raise _ _ _ _)).kept
    · exact hstate.kept
  · exact .refl s

theorem BoundKept.ckSet (a : Parsed CkSetArgs) (s : State) : BoundKept s (ckSet a s).1 := by
  rcases a with _ | a
  · exact .refl s
  unfold Machine.ckSet
  dsimp only
  repeat' split
  any_goals exact .refl s
  all_goals
    dsimp only
    exact .trans ((Alike.modCk _ s).trans (.recomputeDst _ _)).kept (.ckRecord _ _)

theorem Alike.writeRules (f : Ck → Ck) (s : State) : Alike s (writeRules f s) := .trans (.modCk f s) (.recomputeDst _ _)

theorem Alike.ckDstrule (a : Parsed RuleArgs) (s : State) : Alike s (ckDstrule a s).1 := by
  unfold Machine.ckDstrule
  repeat' split
  any_goals exact .refl s
  all_goals
    dsimp only
    exact .writeRules _ s

theorem Alike.ckDstruleOff (f : NoFields) (s : State) : Alike s (ckDstruleOff f s).1 := by
  unfold Machine.ckDstruleOff
  repeat' split
  any_goals exact .refl s
  dsimp only
  exact .writeRules _ s

theorem Alike.ckDayclose (a : Parsed DaycloseArgs) (s : State) : Alike s (ckDayclose a s).1 := by
  unfold Machine.ckDayclose
  repeat' split
  any_goals exact .refl s
  dsimp only
  exact .modCk _ s

/-! ## The requests of the bays (R115 to R136) -/

theorem Alike.bStart (b : Bay) (a : Parsed StartArgs) (s : State) : Alike s (bStart b a s).1 := by
  rcases a with _ | a
  · exact .refl s
  unfold Machine.bStart
  dsimp only
  split
  · exact .refl s
  · split
    · exact .refl s
    · rename_i hstate
      have hstate : (s.bay b).state = .ASSIGNED := not_not.1 hstate
      repeat' split
      any_goals exact .refl s
      dsimp only
      refine .changeBay (.of_loaded ?_ ?_ ?_ ?_ rfl rfl (fun _ _ => rfl) rfl)
      · rw [hstate]; rfl
      · rw [hstate]; exact nofun
      · rfl
      · exact nofun

theorem Alike.bStop (b : Bay) (f : NoFields) (s : State) : Alike s (bStop b f s).1 := by
  rcases f with _ | f
  · exact .refl s
  unfold Machine.bStop
  dsimp only
  split
  · rename_i hstate
    exact .enterFinishing ((flowing_iff _).2 (hstate.imp_right .inl)) _
  · exact .refl s

theorem Alike.bResume (b : Bay) (f : NoFields) (s : State) : Alike s (bResume b f s).1 := by
  rcases f with _ | f
  · exact .refl s
  unfold Machine.bResume
  dsimp only
  split
  · exact .refl s
  · rename_i hstate
    have hpaused : (s.bay b).state = .PAUSED := not_not.1 hstate
    repeat' split
    any_goals exact .refl s
    dsimp only
    exact .changeBay (.of_flowing (by rw [hpaused]; rfl) rfl rfl rfl rfl)

theorem Alike.bAckstray (b : Bay) (f : NoFields) (s : State) : Alike s (bAckstray b f s).1 := by
  unfold Machine.bAckstray
  dsimp only
  repeat' split
  any_goals exact .refl s
  dsimp only
  refine .changeBay (.trans ?_ (.adjust _))
  exact .of_same rfl rfl rfl rfl rfl

theorem Alike.bAckrestart (b : Bay) (f : NoFields) (s : State) : Alike s (bAckrestart b f s).1 := by
  unfold Machine.bAckrestart
  dsimp only
  repeat' split
  any_goals exact .refl s
  dsimp only
  refine .changeBay (.trans ?_ (.adjust _))
  exact .of_same rfl rfl rfl rfl rfl

theorem Alike.bTemp (b : Bay) (a : Parsed TempArgs) (s : State) : Alike s (bTemp b a s).1 := by
  unfold Machine.bTemp
  dsimp only
  repeat' split
  any_goals exact .refl s
  dsimp only
  refine .changeBay (.trans ?_ (.adjust _))
  exact .trans (.modLine _ _ _) (.matchHolds _)

theorem Bound.bCancel {s : State} (hs : Bound s) (b : Bay) (f : NoFields) : Bound (bCancel b f s).1 := by
  rcases f with _ | f
  · exact hs
  unfold Machine.bCancel
  dsimp only
  split
  · exact hs
  · rename_i hstate
    split
    · exact hs
    · refine hs.leaveBay ?_ _ _ rfl
      have hheld : (s.bay b).state = .ASSIGNED ∨ (s.bay b).state = .HELD := by
        by_contra hno
        exact hstate (not_or.1 hno)
      rcases hheld with h | h <;> rw [h] <;> rfl

theorem Alike.bClear (b : Bay) (f : NoFields) (s : State) : Alike s (bClear b f s).1 := by
  rcases f with _ | f
  · exact .refl s
  unfold Machine.bClear
  dsimp only
  split
  · exact .refl s
  · exact .freeBay (not_not.1 ‹_›) _

theorem Bound.bReset {s : State} (hs : Bound s) (b : Bay) (f : NoFields) : Bound (bReset b f s).1 := by
  rcases f with _ | f
  · exact hs
  unfold Machine.bReset
  dsimp only
  split
  · exact hs
  · split
    · exact hs
    · split
      · exact hs
      · exact hs
      · rename_i hstate
        exact (Alike.freeBay hstate _).kept hs
      iterate 3
        rename_i hstate
        exact hs.leaveBay (by rw [hstate]; rfl) _ _ rfl
      all_goals
        rename_i hstate
        have hload : (s.bay b).state.holdsLoad = true := by rw [hstate]; rfl
        exact Bound.leaveBay (s := Machine.tsWithdraw b s) ((Alike.tsWithdraw b s).kept hs) hload _ _ rfl

/-! ## The events of the bays (R117 to R124) -/

theorem Alike.strayPulse (b : Bay) (s : State) : Alike s (strayPulse b s) := by
  unfold Machine.strayPulse
  dsimp only
  have hcount : Alike s (s.modBay b fun u => { u with stray := satAdd Config.maxCount16 (s.bay b).stray 1 }) :=
    .modBay (.of_same rfl rfl rfl rfl rfl)
  split
  · refine (hcount.trans (.changeBay ?_)).trans (.raise _ _ _ _)
    split
    · refine .trans ?_ (.adjust _)
      exact .of_same rfl rfl rfl rfl rfl
    · exact .refl _
  · exact hcount

/-- A weight posted while the bay is LOADING or PAUSED leaves the state. -/
theorem state_tsPost (b : Bay) (w : Nat) (s : State) : ((tsPost b w false s).bay b).state = (s.bay b).state := by
  unfold tsPost
  split
  · unfold takeResult
    split
    · rfl
    · rw [if_neg Bool.false_ne_true, State.bay_modBay_self]
      rfl
  · rw [(Sampler.chooseWork_frame _).1]
    rfl

theorem state_crossingTest (b : Bay) (c : Ctx) (s : State) : ((crossingTest b c s).bay b).state = (s.bay b).state := by
  unfold crossingTest
  dsimp only
  split
  · rw [state_tsPost, State.bay_modBay_self]
    rfl
  · rfl

/-- Weight pending in the active line, of a compartment that stays active. -/
theorem Alike.addPend {b : Bay} (c c' : Ctx) (w : Nat) {s : State} (hflow : (s.bay b).state.flowing = true) :
    Alike s (s.modBay b fun u => { u.modLine c.comp (fun l => { l with pend := l.pend + w }) with ctx := some c' }) :=
  .modBay (.of_flowing hflow hflow rfl rfl rfl)

theorem BoundKept.crossingTest {b : Bay} (c : Ctx) {s : State} (hflow : (s.bay b).state.flowing = true) :
    BoundKept s (crossingTest b c s) := by
  unfold Machine.crossingTest
  dsimp only
  split
  · exact .trans (Alike.addPend c { c with crossings := c.crossings + 1 } _ hflow).kept (.tsPost b _ _ _)
  · exact .refl s

theorem BoundKept.linePulse {b : Bay} (c : Ctx) {s : State} (hflow : (s.bay b).state.flowing = true) :
    BoundKept s (linePulse b c s) := by
  unfold Machine.linePulse
  dsimp only
  have hcount : Alike s (s.modBay b fun u => u.modLine c.comp (countPulse (s.entry b).factor)) := .modBay (.modLine _ _ _)
  have hstate : ((s.modBay b fun u => u.modLine c.comp (countPulse (s.entry b).factor)).bay b).state = (s.bay b).state := by
    rw [State.bay_modBay_self]
    rfl
  have hcrossed := BoundKept.trans hcount.kept (.crossingTest c (hstate ▸ hflow))
  split
  · refine hcrossed.trans (Alike.enterFinishing ?_ _).kept
    rw [state_crossingTest, hstate]
    exact hflow
  · exact hcrossed

theorem BoundKept.pulse (b : Bay) (s : State) : BoundKept s (pulse b s) := by
  unfold Machine.pulse
  dsimp only
  split
  · exact .refl s
  · rename_i hstate _
    exact .linePulse _ (by rw [hstate]; rfl)
  · rename_i hstate _
    exact .linePulse _ (by rw [hstate]; rfl)
  · rename_i hstate _
    split
    · exact (Alike.strayPulse b s).kept
    · exact .linePulse _ (by rw [hstate]; rfl)
  · exact (Alike.strayPulse b s).kept

theorem Alike.haltChange (b : Bay) (active : Bool) (s : State) : Alike s (haltChange b active s) := by
  unfold Machine.haltChange
  dsimp only
  split
  · exact .refl s
  · split
    · rename_i hstate
      refine .changeBay ?_
      split
      · exact .trans (.pauseFor (by rw [hstate]; rfl) true) (.of_same rfl rfl rfl rfl rfl)
      · exact .of_same rfl rfl rfl rfl rfl
    · exact .modBay (.of_same rfl rfl rfl (Option.isSome_map) rfl)
    · exact .modBay (.of_same rfl rfl rfl rfl rfl)

theorem Alike.bondChange (b : Bay) (good : Bool) (s : State) : Alike s (bondChange b good s) := by
  unfold Machine.bondChange
  dsimp only
  split
  · exact .refl s
  · split
    · rename_i hstate
      refine .changeBay ?_
      split
      · exact .of_same rfl rfl rfl rfl rfl
      · exact .trans (.pauseFor (by rw [hstate]; rfl) false) (.of_same rfl rfl rfl rfl rfl)
    · exact .modBay (.of_same rfl rfl rfl (Option.isSome_map) rfl)
    · rename_i hstate
      have hlevel : Alike s (s.modBay b fun u => { u with bond := good }) := .modBay (.of_same rfl rfl rfl rfl rfl)
      split
      · exact hlevel
      · exact hlevel.trans (.freeBay (by rw [State.bay_modBay_self]; exact hstate) _)
    · exact .modBay (.of_same rfl rfl rfl rfl rfl)

theorem Alike.pauseEnds (b : Bay) (s : State) : Alike s (pauseEnds b s) := by
  unfold Machine.pauseEnds
  split
  · rename_i hstate
    exact .enterFinishing (by rw [hstate]; rfl) _
  · exact .refl s

theorem BoundKept.settleEnds (b : Bay) (s : State) : BoundKept s (settleEnds b s) := by
  unfold Machine.settleEnds
  split
  · rename_i c hstate _
    split
    · exact .refl s
    · exact .trans (Alike.addPend c _ _ (by rw [hstate]; rfl)).kept (.tsPost b _ _ _)
  · exact .refl s

/-- A bay follows its enable while it holds no load (R114). -/
theorem BoundKept.bayApply (b : Bay) (s : State) : BoundKept s (bayApply b s) := fun hs => by
  have hnone (hstate : (s.bay b).state.flowing = false) : (s.bay b).ctx = none := ctx_none_of hstate (hs.bays b).ctx
  unfold Machine.bayApply
  dsimp only
  split
  · rename_i hstate
    split
    · exact hs
    · exact (Alike.changeBay (.of_empty (by rw [hstate]; rfl) rfl (fun _ => hnone (by rw [hstate]; rfl)) rfl)).kept hs
  · rename_i hstate
    split
    · exact (Alike.changeBay (.of_empty (by rw [hstate]; rfl) rfl (fun _ => hnone (by rw [hstate]; rfl)) rfl)).kept hs
    · exact hs
  · exact hs

/-! ## The settings unit (R197 to R200) -/

theorem Alike.modStaging (f : Settings → Settings) (s : State) : Alike s (modStaging f s) := .modSt _ s

theorem Alike.stDiscard (a : NoFields) (s : State) : Alike s (stDiscard a s).1 := by
  unfold Machine.stDiscard
  repeat' split
  any_goals exact .refl s
  dsimp only
  exact .modSt _ s

theorem Alike.stSetProduct (a : Parsed ProductArgs) (s : State) : Alike s (stSetProduct a s).1 := by
  unfold Machine.stSetProduct
  repeat' split
  any_goals exact .refl s
  dsimp only
  exact .modStaging _ s

theorem Alike.stSetProductDelete (a : Parsed String) (s : State) : Alike s (stSetProductDelete a s).1 := by
  unfold Machine.stSetProductDelete
  repeat' split
  any_goals exact .refl s
  dsimp only
  exact .modStaging _ s

theorem Alike.stSetSegregation (a : Parsed PairArgs) (s : State) : Alike s (stSetSegregation a s).1 := by
  unfold Machine.stSetSegregation
  repeat' split
  any_goals exact .refl s
  dsimp only
  exact .modStaging _ s

theorem Alike.stSetBay (a : Parsed BayArgs) (s : State) : Alike s (stSetBay a s).1 := by
  unfold Machine.stSetBay
  dsimp only
  repeat' split
  any_goals exact .refl s
  dsimp only
  exact .modStaging _ s

theorem Alike.stSetHours (a : Parsed HoursArgs) (s : State) : Alike s (stSetHours a s).1 := by
  unfold Machine.stSetHours
  repeat' split
  any_goals exact .refl s
  dsimp only
  exact .modStaging _ s

theorem Alike.stSetTolerance (a : Parsed ToleranceArgs) (s : State) : Alike s (stSetTolerance a s).1 := by
  unfold Machine.stSetTolerance
  repeat' split
  any_goals exact .refl s
  dsimp only
  exact .modStaging _ s

theorem Alike.stSetCalendar (a : Parsed Nat) (s : State) : Alike s (stSetCalendar a s).1 := by
  unfold Machine.stSetCalendar
  repeat' split
  any_goals exact .refl s
  dsimp only
  exact .modStaging _ s

theorem Alike.stSetSampler (a : Parsed Nat) (s : State) : Alike s (stSetSampler a s).1 := by
  unfold Machine.stSetSampler
  repeat' split
  any_goals exact .refl s
  dsimp only
  exact .modStaging _ s

theorem Alike.stSetLink (a : Parsed (Option AttnMode)) (s : State) : Alike s (stSetLink a s).1 := by
  unfold Machine.stSetLink
  repeat' split
  any_goals exact .refl s
  dsimp only
  exact .modStaging _ s

theorem Alike.stApply (a : NoFields) (s : State) : Alike s (stApply a s).1 := by
  unfold Machine.stApply
  repeat' split
  any_goals exact .refl s
  dsimp only
  exact .modSt _ s

theorem Alike.periodCheck (s : State) : Alike s (periodCheck s) := by
  unfold Machine.periodCheck
  split
  · exact .calDue s
  · exact .refl s

theorem BoundKept.commitApply (s : State) : BoundKept s (commitApply s) := by
  unfold Machine.commitApply
  dsimp only
  have hattn : Alike s (if ((s.modSt St.commit).st.applied.attn != s.st.applied.attn) = true then
      (s.modSt St.commit).modDv fun d => { d with attnPulse := false } else s.modSt St.commit) := by
    split
    · exact (Alike.modSt _ s).trans (.modDv _ _)
    · exact .modSt _ s
  have hbays := BoundKept.trans (hattn.trans (.setComponents (fun d => { d with settings := false }) _)).kept
    (.forBays (f := Machine.bayApply) (fun b t => .bayApply b t) _)
  have hpost := fun r : Option LogRec => (hbays.trans (Alike.modSt (fun t => { t with outbox := r }) _).kept).trans
    (.postFrom .ST _)
  split
  · exact (hpost _).trans ((Alike.raise _ _ _ _).trans (.periodCheck _)).kept
  · exact (hpost _).trans (Alike.raise _ _ _ _).kept

theorem BoundKept.applyDone (s : State) : BoundKept s (applyDone s) := by
  unfold Machine.applyDone
  split
  · split
    · exact ((Alike.modSt _ s).trans (.raise _ _ _ _)).kept
    · exact .commitApply s
  · exact .refl s

end Sys2Proof.Proofs.Bindings

/-! PROOFS. Every step keeps the bindings (R111). -/

namespace Sys2Proof.Proofs.Bindings

open Sys2Proof Sys2Proof.Machine Sys2Proof.Laws.Basic Sys2Proof.Laws.Tables Sys2Proof.Laws.Log Sys2Proof.Proofs.Keeping
open Sys2Proof.Proofs.Steps

/-! ## The requests of the log (R180 to R184) -/

theorem Alike.addAccess (s : State) : Alike s (addAccess s) := .modDl rfl rfl
theorem Alike.setCursor (seq pos : Nat) (s : State) : Alike s (setCursor seq pos s) := .modDl rfl rfl

theorem Alike.dlOpenSeg (a : Parsed Nat) (s : State) : Alike s (dlOpenSeg a s).1 := by
  unfold Machine.dlOpenSeg
  dsimp only
  repeat' split
  any_goals exact .refl s
  exact .trans (.setCursor _ _ s) (.addAccess _)

theorem Alike.dlOpenSeq (a : Parsed Nat) (s : State) : Alike s (dlOpenSeq a s).1 := by
  unfold Machine.dlOpenSeq
  repeat' split
  any_goals exact .refl s
  all_goals exact .trans (.setCursor _ _ s) (.addAccess _)

theorem Alike.readRecord (i : SegNo) (r : StoredRec) (pos : Nat) (gap : List Fld) (s : State) :
    Alike s (readRecord i r pos gap s).1 := by
  unfold Machine.readRecord
  repeat' split
  all_goals exact .trans (.setCursor _ _ s) (.addAccess _)

theorem Alike.dlRead (f : NoFields) (s : State) : Alike s (dlRead f s).1 := by
  unfold Machine.dlRead
  repeat' split
  any_goals exact .refl s
  · exact .readRecord ..
  · exact .readRecord ..
  · exact .addAccess s

theorem Alike.dlExported (a : Parsed Nat) (s : State) : Alike s (dlExported a s).1 := by
  unfold Machine.dlExported
  dsimp only
  repeat' split
  any_goals exact .refl s
  dsimp only
  refine .modDl ?_ ?_ <;> rw [modSeg_frame]

theorem Alike.dlReclaim (a : Parsed Nat) (s : State) : Alike s (dlReclaim a s).1 := by
  unfold Machine.dlReclaim
  repeat' split
  any_goals exact .refl s
  exact .trans (.trans (.modDl rfl rfl) (.setComponents _ _)) (.raiseIf _ _ _ _ _)

/-! ## Every request -/

theorem BoundKept.act {c : Instr} {r : Request} (he : effect c = some r) (s : State) : BoundKept s (r.act s).1 := by
  cases c <;> cases he
  case unknownRequest h u =>
    rcases u with t | t | u | u
    · exact .refl s
    · exact .refl s
    · exact .refl s
    · exact (Alike.setComponents _ s).kept
  case dvStatus h f => cases f <;> exact .refl s
  case dvClear h f =>
    cases f
    · exact .refl s
    · exact (Alike.setComponents _ s).kept
  case dvMode h a =>
    rcases a with _ | _ | m
    · exact .refl s
    · exact .refl s
    · exact (Alike.modDv (fun d => { d with mode := m }) s).kept
  case dvNext h f =>
    cases f
    · exact .refl s
    dsimp only
    unfold Machine.dvNext
    dsimp only
    split
    · exact .refl s
    · dsimp only
      exact (Alike.modDv _ s).kept
  case dvReset h f =>
    cases f
    · exact .refl s
    · exact (Alike.modDv (fun d => { d with resetWait := true }) s).kept
  case ckStatus h f => cases f <;> exact .refl s
  case ckSet h a => exact .ckSet a s
  case ckDstrule h a => exact (Alike.ckDstrule a s).kept
  case ckDstruleOff h f => exact (Alike.ckDstruleOff f s).kept
  case ckRules h f => cases f <;> exact .refl s
  case ckDayclose h a => exact (Alike.ckDayclose a s).kept
  case ckClearstamp h f =>
    cases f
    · exact .refl s
    · exact (Alike.modCk (fun c => { c with firstLoss := none }) s).kept
  case dtStatus h f => cases f <;> exact .refl s
  case dtEnrol h a => exact fun hs => hs.dtEnrol a
  case dtRemove h a => exact fun hs => hs.dtRemove a
  case dtImport h a => exact (Alike.dtImport a s).kept
  case dtArrive h a => exact fun hs => hs.dtArrive a
  case dtDepart h a => exact fun hs => hs.dtDepart a
  case dtClosetrip h a => exact fun hs => hs.dtClosetrip a
  case dtQuery h a =>
    dsimp only
    unfold Machine.dtQuery
    repeat' split
    all_goals exact .refl s
  case dtQueryPlan h a =>
    dsimp only
    unfold Machine.dtQueryPlan
    repeat' split
    all_goals exact .refl s
  case dtList h a =>
    dsimp only
    unfold Machine.dtList
    repeat' split
    all_goals exact .refl s
  case cpStatus h f => cases f <;> exact .refl s
  case cpOpen h a => exact (Alike.cpOpen a s).kept
  case cpLine h a => exact (Alike.cpLine a s).kept
  case cpConfirm h f => exact fun hs => hs.cpConfirm f
  case cpAbort h f => exact (Alike.cpAbort f s).kept
  case cpVoid h a => exact fun hs => hs.cpVoid a
  case cpShow h a => exact (Alike.cpShow a s).kept
  case cpShowLine h a => exact (Alike.cpShowLine a s).kept
  case cpList h a => exact (Alike.cpList a s).kept
  case cpAmendQty h a => exact (Alike.cpAmendQty a s).kept
  case cpAmendProd h a => exact (Alike.cpAmendProd a s).kept
  case cpAmendRemove h a => exact (Alike.cpAmendRemove a s).kept
  case cpWithdraw h a => exact (Alike.cpWithdraw a s).kept
  case bStatus h b f => cases f <;> exact .refl s
  case bStatusLine h b a =>
    dsimp only
    unfold Machine.bStatusLine
    repeat' split
    all_goals exact .refl s
  case bAssign h b a => exact fun hs => hs.bAssign b a
  case bStart h b a => exact (Alike.bStart b a s).kept
  case bStop h b f => exact (Alike.bStop b f s).kept
  case bResume h b f => exact (Alike.bResume b f s).kept
  case bAckstray h b f => exact (Alike.bAckstray b f s).kept
  case bTemp h b a => exact (Alike.bTemp b a s).kept
  case bDriver h b a => exact fun hs => hs.bDriver b a
  case bAckrestart h b f => exact (Alike.bAckrestart b f s).kept
  case bDispatch h b f => exact fun hs => hs.bDispatch b f
  case bCancel h b f => exact fun hs => hs.bCancel b f
  case bClear h b f => exact (Alike.bClear b f s).kept
  case bReset h b f => exact fun hs => hs.bReset b f
  case tsStatus h f => cases f <;> exact .refl s
  case tsCalibrate h f =>
    dsimp only
    unfold Machine.tsCalibrate
    repeat' split
    any_goals exact .refl s
    exact (Alike.calDue s).kept
  case dlStatus h f => cases f <;> exact .refl s
  case dlStatusSeg h a =>
    dsimp only
    unfold Machine.dlStatusSeg
    repeat' split
    all_goals exact .refl s
  case dlOpenSeg h a => exact (Alike.dlOpenSeg a s).kept
  case dlOpenSeq h a => exact (Alike.dlOpenSeq a s).kept
  case dlRead h f => exact (Alike.dlRead f s).kept
  case dlExported h a => exact (Alike.dlExported a s).kept
  case dlReclaim h a => exact (Alike.dlReclaim a s).kept
  case stStatus h f => cases f <;> exact .refl s
  case stShow h a => cases a <;> exact .refl s
  case stDiscard h f => exact (Alike.stDiscard f s).kept
  case stSetProduct h a => exact (Alike.stSetProduct a s).kept
  case stSetProductDelete h a => exact (Alike.stSetProductDelete a s).kept
  case stSetSegregation h a => exact (Alike.stSetSegregation a s).kept
  case stSetBay h a => exact (Alike.stSetBay a s).kept
  case stSetHours h a => exact (Alike.stSetHours a s).kept
  case stSetTolerance h a => exact (Alike.stSetTolerance a s).kept
  case stSetCalendar h a => exact (Alike.stSetCalendar a s).kept
  case stSetSampler h a => exact (Alike.stSetSampler a s).kept
  case stSetLink h a => exact (Alike.stSetLink a s).kept
  case stApply h f => exact (Alike.stApply f s).kept

/-! ## The starts (R16, R33, R36, R137, R192) -/

theorem BoundKept.postAtStart (k : StartKind) (src : LogSource) (s : State) : BoundKept s (postAtStart k src s) := by
  unfold Machine.postAtStart
  split
  · split
    · exact .refl s
    · rename_i hno
      intro hs
      have hnew : .DV ∉ s.dl.sources := by rw [← hasAppend_iff]; exact hno
      have happ : (postRecord .DV (s.makeRec (.RESTART k)) s).dl.sources = s.dl.sources ++ [.DV] := by
        simp [postRecord, Dl.sources]
      refine hs.fewerAppends rfl rfl rfl ?_ fun b r hr => (hs.bays b).log r (hr.imp_left fun h => ?_)
      · rw [happ]
        exact List.nodup_append.2
          ⟨hs.sources, by simp, by rintro a ha b hb rfl; exact hnew (List.mem_singleton.1 hb ▸ ha)⟩
      · rcases List.mem_append.1 h with h | h
        · exact h
        · exact nomatch List.mem_singleton.1 h
  · exact .postFrom _ s

theorem BoundKept.startPosts (k : StartKind) (e : StartEnv) (s : State) : BoundKept s (startPosts k e s) :=
  .foldl (fun t src => .postAtStart k src t) _ s

theorem Alike.pump (s : State) : Alike s (pump s) := by
  rcases pump_cases s with h | ⟨_, _, _, _, h⟩ | ⟨_, _, _, _, _, _, _, h⟩ <;> rw [h]
  · exact .refl s
  · exact .modDv _ s
  · exact .modDv _ s

theorem writing_started (cold : Bool) (e : StartEnv) (d : Dl) : (d.started cold e).writing = none := by
  have hcut : (cutAppend e.cut d).writing = none := by
    unfold cutAppend
    split
    · assumption
    · split <;> rfl
  show (cutScan e.wrote (cutAppend e.cut d)).writing = none
  rw [cutScan_frame]
  exact hcut

/-- After a cold start nothing is bound, and nothing at the log (R64, R107, R138). -/
theorem Bound.coldStart (e : StartEnv) (s : State) : Bound (coldStart e s) := by
  rw [coldStart_eq]
  refine (Alike.pump _).kept (BoundKept.startPosts _ _ _ ?_)
  have hframe := Starts.coldBays_frame (coldBase e s)
  have hbay (b : Bay) := Starts.bay_coldBays (coldBase e s) b
  show Bound (Starts.coldBays (coldBase e s))
  generalize Starts.coldBays (coldBase e s) = t at hframe hbay
  have hcommon := Starts.startCommon_frame .COLD e s
  have hdocs : t.cp.docs = [] := by rw [hframe]; rfl
  have hdrivers : t.dt.drivers = [] := by rw [hframe]; rfl
  have hdl : t.dl.queue = [] ∧ t.dl.writing = none := by
    rw [hframe]
    show (startCommon .COLD e s).dl.queue = [] ∧ (startCommon .COLD e s).dl.writing = none
    rw [hcommon]
    exact ⟨rfl, writing_started _ _ _⟩
  have hdoc (d : String) : (view t).doc d = none := by unfold view State.docOf; rw [hdocs]; rfl
  have hdriver (n : Nat) : (view t).driver n = none := by unfold view State.driverOf; rw [hdrivers]; rfl
  refine ⟨?_, ?_, ?_, ⟨fun n x hx => ?_, fun m n x y hx => ?_⟩, fun b => ?_⟩
  · unfold Dl.sources
    rw [hdl.1, hdl.2]
    exact List.nodup_nil
  · rw [hdocs]
    exact List.nodup_nil
  · rw [hdrivers]
    exact List.nodup_nil
  · rw [hdriver] at hx
    exact nomatch hx
  · rw [hdriver] at hx
    exact nomatch hx
  · rw [hbay]
    generalize ((coldBase e s).entry b).enabled = en
    have hnot : (coldBay en ((coldBase e s).bay b)).state.holdsLoad ≠ true := by cases en <;> exact Bool.false_ne_true
    refine ⟨fun h => absurd h hnot, fun h => absurd h hnot, fun d hd => ?_, fun n x hx => ?_, nofun,
      ⟨Nat.zero_le _, fun _ hr => nomatch hr⟩, fun h => absurd h hnot, fun h => ?_, fun r hr => ?_⟩
    · rw [hdoc] at hd
      exact nomatch hd
    · rw [hdriver] at hx
      exact nomatch hx
    · cases en <;> exact nomatch h
    · rcases hr with hr | ⟨w, hw, -⟩
      · rw [hdl.1] at hr
        exact nomatch hr
      · rw [hdl.2] at hw
        exact nomatch hw

/-- The state a start takes the bays from (R64, R192). -/
theorem Bound.starting {s : State} (hs : Bound s) (k : StartKind) (e : StartEnv) : Starting (warmBase k e s) := by
  have hcommon := Starts.startCommon_frame k e s
  have hdocs : (warmBase k e s).cp.docs = s.cp.docs := by
    show (startCommon k e s).cp.docs = _
    rw [hcommon]
    rfl
  have hbays (b : Bay) : (warmBase k e s).bay b = s.bay b := by
    show (startCommon k e s).bay b = _
    rw [hcommon]
    rfl
  have hdl : (warmBase k e s).dl.queue = [] ∧ (warmBase k e s).dl.writing = none := by
    show (startCommon k e s).dl.queue = [] ∧ (startCommon k e s).dl.writing = none
    rw [hcommon]
    exact ⟨rfl, writing_started _ _ _⟩
  have hdrivers : (warmBase k e s).dt.drivers = s.dt.drivers.map fun x => { x with pend := false } := rfl
  have hdoc : (view (warmBase k e s)).doc = (view s).doc := view_doc_congr hdocs
  have hdriver (n : Nat) : (view (warmBase k e s)).driver n = ((view s).driver n).map fun z => { z with pend := false } := by
    unfold view State.driverOf
    dsimp only
    rw [hdrivers, List.find?_map, Option.map_map, Option.map_map]
    rfl
  generalize warmBase k e s = t at *
  have hstand {n : Nat} {x : Stand} (hx : (view t).driver n = some x) : ∃ z, (view s).driver n = some z ∧
      z.status = x.status ∧ z.trip = x.trip := by
    rw [hdriver] at hx
    obtain ⟨z, hz, rfl⟩ := Option.map_eq_some_iff.1 hx
    exact ⟨z, hz, rfl, rfl⟩
  refine ⟨hdl.1, hdl.2, hdocs ▸ hs.docNums, ?_, ⟨fun n x hx htrip => ?_, fun m n x y hx hy hxt hyt hsame => ?_⟩, fun b => ?_⟩
  · rw [hdrivers, List.map_map]
    exact hs.driverNums
  · obtain ⟨z, hz, hstatus, hzt⟩ := hstand hx
    rw [← hzt, hdoc]
    exact hs.trips.released n z hz (hstatus.trans htrip)
  · obtain ⟨z, hz, hzs, hzt⟩ := hstand hx
    obtain ⟨w, hw, hws, hwt⟩ := hstand hy
    exact hs.trips.alone m n z w hz hw (hzs.trans hxt) (hws.trans hyt) (hzt.trans (hsame.trans hwt.symm))
  · have hb := hs.bays b
    rw [hbays]
    refine ⟨fun hload => ?_, fun hload => ?_, fun d hd => ?_, fun n x hx hat => ?_, fun hc => ?_, ⟨?_, fun r hr => ?_⟩,
      fun hload _ => ?_, fun h => absurd h (asHeld_not_dispatching _), fun r hr => ?_⟩
    · rw [hdoc]
      exact hb.doc ((holdsLoad_asHeld _).symm.trans hload)
    · obtain ⟨n, z, hn, hz, hat⟩ := hb.driver ((holdsLoad_asHeld _).symm.trans hload)
      exact ⟨n, _, hn, (hdriver n).trans (congrArg (Option.map _) hz), hat⟩
    · rw [hdoc] at hd
      rw [holdsLoad_asHeld]
      exact hb.docAlone d hd
    · obtain ⟨z, hz, hstatus, -⟩ := hstand hx
      rw [holdsLoad_asHeld]
      exact hb.driverAlone n z hz (hstatus.trans hat)
    · rw [flowing_asHeld]
      exact hb.ctx hc
    · exact Nat.le_trans (List.length_filter_le _ _) hb.records.1
    · exact hb.records.2 r (List.mem_filter.1 hr).1
    · have hload' := (holdsLoad_asHeld _).symm.trans hload
      show (s.bay b).outbox.filter (fun r => !isDispatch r) = []
      by_cases hstate : (s.bay b).state = .DISPATCHING
      · obtain ⟨r, e, z, hout, he, -⟩ := hb.leaving hstate
        have hdispatch : isDispatch r = true := by
          unfold dispatchOf at he
          split at he
          · rename_i hbody
            unfold isDispatch
            rw [hbody]
          · exact nomatch he
        rw [hout, List.filter_cons_of_neg (by rw [hdispatch]; exact Bool.false_ne_true)]
        rfl
      · rw [hb.quiet hload' hstate]
        rfl
    · rcases hr with hr | ⟨w, hw, -⟩
      · rw [hdl.1] at hr
        exact nomatch hr
      · rw [hdl.2] at hw
        exact nomatch hw

theorem Alike.fireQuiet (date : Nat) (s : State) : Alike s (fireQuiet date s) := .modCk _ s

theorem Alike.lateClose (old : Ck) (s : State) : Alike s (lateClose old s) := by
  unfold Machine.lateClose
  dsimp only
  split
  · split
    · split
      · exact (Alike.fireQuiet _ s).trans (.fireQuiet _ _)
      · exact .fireQuiet _ s
    · split
      · exact .fireQuiet _ s
      · exact .refl s
  · exact .refl s

theorem Alike.clockRestore (s : State) : Alike s (clockRestore s) := by
  unfold Machine.clockRestore
  have hpower : Alike s (powerRecord s) := .of_frame rfl rfl rfl rfl rfl
  exact (((hpower.trans (.modCk _ _)).trans (.raiseIf _ _ _ _ _)).trans (.lateClose _ _)).trans (.raise _ _ _ _)

theorem Alike.warmClock (fromLoss : Bool) (s : State) : Alike s (warmClock fromLoss s) := by
  unfold Keeping.warmClock
  split
  · exact .clockRestore s
  · exact .modCk _ s

theorem BoundKept.warmStart (k : StartKind) (fromLoss : Bool) (e : StartEnv) (s : State) :
    BoundKept s (warmStart k fromLoss e s) := fun hs => by
  rw [warmStart_eq]
  exact (Alike.pump _).kept (BoundKept.startPosts _ _ _ ((Alike.warmClock _ _).starting (hs.starting k e)).restartBays)

/-! ## The supply and the passing of time -/

theorem Alike.supplyLost (s : State) : Alike s (supplyLost s) := by
  have hvalves := fun f : Ck → Ck => (Alike.modCk f s).trans (.forBays (f := fun b u => u.modBay b fun x => { x with release := false })
    (fun b t => .modBay (.of_same rfl rfl rfl rfl rfl)) _)
  have hoff (t : State) : Alike t { t with supply := false } := .of_frame rfl rfl rfl rfl rfl
  exact ((hvalves _).trans (.modDv _ _)).trans (hoff _)

theorem BayFlow.elapse (limit : Nat) (u : BayUnit) : BayFlow u (u.elapse limit) := by
  unfold BayUnit.elapse
  split
  · exact .of_same rfl rfl rfl Option.isSome_map rfl
  · exact .of_same rfl rfl rfl Option.isSome_map rfl
  · exact .refl u

theorem Alike.elapse (s : State) : Alike s (elapse s) := by
  unfold Machine.elapse
  split
  · have htimers : Alike s
        { s with ts := s.ts.elapse, dl := s.dl.elapse, st := { s.st with apply := s.st.apply.map (· - 1) } } := by
      have hdl : s.dl.elapse.queue = s.dl.queue ∧ s.dl.elapse.writing = s.dl.writing := by
        unfold Dl.elapse
        split <;> exact ⟨rfl, rfl⟩
      exact .of_frame rfl rfl rfl hdl.1 hdl.2
    exact htimers.trans (.forBays (fun b t => .modBay (.elapse _ _)) _)
  · exact .refl s

/-! ## Every row -/

theorem BoundKept.event {c : Instr} {f : State → State} (hf : poweredAct c = some f) (hlink : linkRow c = false) (s : State) :
    BoundKept s (f s) := by
  cases c <;> cases hlink <;> cases hf
  case deviceReset e =>
    dsimp only
    split
    · exact .warmStart _ _ e s
    · exact .refl s
  case resetLine e => exact .warmStart _ _ e s
  case minuteReached => exact .minuteReached s
  case dstInstant => exact .dstReached s
  case pulseEdge b => exact .pulse b s
  case haltEdge b a => exact (Alike.haltChange b a s).kept
  case bondEdge b g => exact (Alike.bondChange b g s).kept
  case pauseLimit b => exact (Alike.pauseEnds b s).kept
  case settleEnd b => exact .settleEnds b s
  case sampleComplete c1 c2 => exact .sampleDone c1 c2 s
  case calibrationComplete l1 l2 h1 h2 => exact .calibrationDone l1 l2 h1 h2 s
  case calibrationPeriod => exact (Alike.calDue s).kept
  case appendServe => exact .serveAppend s
  case appendWriteComplete => exact .writeDone s
  case storeAccessEnd => exact (Alike.modDl rfl rfl).kept
  case reclaimComplete => exact (Alike.reclaimDone s).kept
  case scanEnd => exact (Alike.scanDone s).kept
  case applyComplete => exact .applyDone s

theorem BoundKept.unpowered (c : Instr) (s : State) : BoundKept s (unpoweredAct c s) := by
  unfold unpoweredAct
  split
  · exact .dstReached s
  · exact (Alike.modBay (.of_same rfl rfl rfl rfl rfl)).kept
  · exact (Alike.modBay (.of_same rfl rfl rfl rfl rfl)).kept
  · exact .refl s

theorem BoundKept.anySupply {c : Instr} {f : State → State} (hf : anySupplyAct c = some f) (s : State) :
    BoundKept s (f s) := by
  cases c <;> cases hf
  case coldStart e => exact fun _ => .coldStart e s
  case warmStart e =>
    refine .trans (t := lossSeen s) ?_ (.warmStart _ _ e _)
    unfold lossSeen
    split
    · exact (Alike.supplyLost s).kept
    · exact .refl s
  case mainSupplyLoss =>
    dsimp only
    split
    · exact (Alike.supplyLost s).kept
    · exact .refl s
  case clockTick => exact (Alike.modCk _ s).kept

theorem rowKept_bound : RowKept BoundKept where
  refl := .refl
  trans := .trans
  link := fun f s => (Alike.modDv f s).kept
  supv := fun v s => (Alike.of_frame (s := s) (t := { s with supv := v }) rfl rfl rfl rfl rfl).kept
  act := fun _ _ s he => .act he s
  event := fun _ _ s hf hl => .event hf hl s
  unpowered := .unpowered
  anySupply := fun _ _ s hf => .anySupply hf s
  elapse := fun s => (Alike.elapse s).kept

/-- Settles O59: every row keeps the bindings, said bay by bay of what a number finds. -/
theorem bindingsStayOneToOne : Obligations.BindingsStayOneToOne := fun s t hs hstep =>
  (bindings_iff t).2 (rowKept_bound.step_rel
    (fun cs u => (Alike.of_frame (s := u) (t := { u with pending := cs }) rfl rfl rfl rfl rfl).kept) hstep
    ((bindings_iff s).1 hs))

end Sys2Proof.Proofs.Bindings

/-! PROOFS. What a start tells: the notices it raises and what drives ATTN (R17, R33, R137, R138, R202). -/

namespace Sys2Proof.Proofs.StartTells

open Sys2Proof Sys2Proof.Machine Sys2Proof.Laws.Basic Sys2Proof.Proofs.Keeping Sys2Proof.Proofs.Telling
open Sys2Proof.Proofs.Starts

/-! ## Telling nothing but notices of some pairs -/

/-- The pairs of the pending notices. -/
def pairs (s : State) : List (UnitName × NKind) := s.dv.notices.map Notice.pair

/-- ATTN pulses exactly when in PULSE mode a notice was raised since the pulse was last inactive (R11). -/
def Pulsed (s : State) : Prop := s.dv.attnPulse = true ↔ s.st.applied.attn = .PULSE ∧ s.dv.notices ≠ []

/-- What raises notices of these pairs, and leaves the link else, the settings, the sampler, the log and the staging. -/
structure Tells (P : UnitName × NKind → Prop) (s t : State) : Prop where
  link : t.dv = { s.dv with notices := t.dv.notices, attnPulse := t.dv.attnPulse }
  new : ∀ q ∈ pairs t, q ∈ pairs s ∨ P q
  old : ∀ q ∈ pairs s, q ∈ pairs t
  pulsed : Pulsed s → Pulsed t
  supply : t.supply = s.supply
  st : t.st = s.st
  ts : t.ts = s.ts
  dl : t.dl = s.dl
  staging : t.cp.staging = s.cp.staging

variable {P : UnitName × NKind → Prop} {s t u : State}

theorem Tells.refl (s : State) : Tells P s s := ⟨rfl, fun _ => .inl, fun _ => id, id, rfl, rfl, rfl, rfl, rfl⟩

theorem Tells.trans (h : Tells P s t) (k : Tells P t u) : Tells P s u where
  link := by rw [k.link, h.link]
  new q hq := (k.new q hq).elim (h.new q) .inr
  old q hq := k.old q (h.old q hq)
  pulsed := k.pulsed ∘ h.pulsed
  supply := k.supply.trans h.supply
  st := k.st.trans h.st
  ts := k.ts.trans h.ts
  dl := k.dl.trans h.dl
  staging := k.staging.trans h.staging

/-- An act that raises nothing. -/
theorem Tells.of_quiet (hdv : t.dv = s.dv) (hsupply : t.supply = s.supply) (hst : t.st = s.st) (hts : t.ts = s.ts)
    (hdl : t.dl = s.dl) (hstaging : t.cp.staging = s.cp.staging) : Tells P s t where
  link := by rw [hdv]
  new q hq := .inl (by unfold pairs at *; rwa [hdv] at hq)
  old q hq := by unfold pairs at *; rwa [hdv]
  pulsed := by unfold Pulsed; rw [hdv, hst]; exact id
  supply := hsupply
  st := hst
  ts := hts
  dl := hdl
  staging := hstaging

theorem putNotice_ne_nil (n : Notice) (l : List Notice) : putNotice n l ≠ [] := by
  cases l
  · exact nofun
  · unfold putNotice
    split <;> exact nofun

theorem Tells.raise {k : UnitName × NKind} (hk : P k) (fs : List Fld) (s : State) : Tells P s (raise k.1 k.2 fs s) where
  link := rfl
  new q hq := ((mem_pairs_putNotice _ _ q).1 hq).elim (fun e => .inr (e ▸ hk)) .inl
  old q hq := (mem_pairs_putNotice _ _ q).2 (.inr hq)
  pulsed h := by
    unfold Pulsed at h ⊢
    rw [dv_raise]
    have hne := putNotice_ne_nil ⟨k.1, k.2, fs⟩ s.dv.notices
    simp only [Bool.or_eq_true, beq_iff_eq, ne_eq, hne, not_false_eq_true, and_true, h]
    exact ⟨fun h => h.elim And.left id, .inr⟩
  supply := rfl
  st := rfl
  ts := rfl
  dl := rfl
  staging := rfl

theorem Tells.raiseIf (c : Bool) {k : UnitName × NKind} (hk : P k) (fs : List Fld) (s : State) :
    Tells P s (raiseIf c k.1 k.2 fs s) := by
  unfold Machine.raiseIf
  split
  · exact .raise hk fs s
  · exact .refl s

/-- What raises a pair leaves it pending. -/
theorem mem_pairs_raise (k : UnitName × NKind) (fs : List Fld) (s : State) : k ∈ pairs (raise k.1 k.2 fs s) :=
  (mem_pairs_putNotice _ _ k).2 (.inl rfl)

theorem Tells.foldl {α : Type} {f : State → α → State} (h : ∀ t a, Tells P t (f t a)) (l : List α) (s : State) :
    Tells P s (l.foldl f s) := by
  induction l generalizing s with
  | nil => exact .refl s
  | cons a l ih => exact (h s a).trans (ih _)

theorem Tells.forBays {f : Bay → State → State} (h : ∀ b t, Tells P t (f b t)) (s : State) : Tells P s (forBays f s) :=
  .foldl (fun t b => h b t) _ s

/-! ## The bays -/

/-- The notices by which a bay tells its changes (R113). -/
def BayPair (q : UnitName × NKind) : Prop := ∃ b : Bay, q = (.B b, .STATE) ∨ q = (.B b, .LINES) ∨ q = (.B b, .HOLD)

theorem Tells.modBay (b : Bay) (f : BayUnit → BayUnit) (s : State) : Tells P s (s.modBay b f) :=
  .of_quiet rfl rfl rfl rfl rfl rfl

theorem Tells.changeBay (b : Bay) (r : String) (l : Bool) (o : NoticeOrder) (f : BayUnit → BayUnit) (s : State) :
    Tells BayPair s (changeBay b r l o f s) := by
  have hset : Tells BayPair s (s.setBay b (f (s.bay b)).drive) := .of_quiet rfl rfl rfl rfl rfl rfl
  have state (c : Bool) (fs : List Fld) (t : State) : Tells BayPair t (Machine.raiseIf c (.B b) .STATE fs t) :=
    .raiseIf c (k := (.B b, .STATE)) ⟨b, .inl rfl⟩ fs t
  have lines (c : Bool) (fs : List Fld) (t : State) : Tells BayPair t (Machine.raiseIf c (.B b) .LINES fs t) :=
    .raiseIf c (k := (.B b, .LINES)) ⟨b, .inr (.inl rfl)⟩ fs t
  have hold (c : Bool) (fs : List Fld) (t : State) : Tells BayPair t (Machine.raiseIf c (.B b) .HOLD fs t) :=
    .raiseIf c (k := (.B b, .HOLD)) ⟨b, .inr (.inr rfl)⟩ fs t
  unfold Machine.changeBay
  cases o
  · exact ((hset.trans (state ..)).trans (lines ..)).trans (hold ..)
  · exact ((hset.trans (lines ..)).trans (hold ..)).trans (state ..)

theorem Tells.unbindBay (b : Bay) (s : State) : Tells P s (unbindBay b s) := by
  have hframe := BayLeaving.unbindBay_frame b s
  generalize Machine.unbindBay b s = t at hframe
  refine .of_quiet ?_ ?_ ?_ ?_ ?_ ?_ <;> rw [hframe]

theorem Tells.vacateBay (b : Bay) (r : String) (why : CancelReason) (st : BayState) (s : State) :
    Tells BayPair s (vacateBay b r why st s) := by
  unfold Machine.vacateBay
  exact .trans (.unbindBay b s) (.changeBay ..)

theorem Tells.restartBay (b : Bay) (s : State) : Tells BayPair s (restartBay b s) := by
  unfold Machine.restartBay
  dsimp only
  refine .trans (.modBay b BayUnit.warm s) ?_
  split
  · exact .refl _
  · exact .refl _
  any_goals
    split
    · exact .changeBay ..
    · exact .trans (.unbindBay b _) (.changeBay ..)
  all_goals exact .changeBay ..

theorem Tells.closeBay (b : Bay) (s : State) : Tells BayPair s (closeBay b s) := by
  unfold Machine.closeBay
  split
  · exact .refl s
  · exact .vacateBay ..
  · exact .changeBay ..

theorem Tells.restartBays (s : State) : Tells BayPair s (restartBays s) := by
  have hbays : Tells BayPair s (Machine.forBays Machine.restartBay s) := .forBays (fun b t => .restartBay b t) s
  unfold Machine.restartBays
  dsimp only
  split
  · exact hbays.trans (.forBays (fun b t => .closeBay b t) _)
  · exact hbays

/-! ## The clock (R33) -/

/-- What CK tells at a warm start from power loss. -/
def ClockPair (q : UnitName × NKind) : Prop := q = (.CK, .POWER) ∨ q = (.CK, .DST)

theorem Tells.modCk (f : Ck → Ck) (s : State) : Tells P s (s.modCk f) := .of_quiet rfl rfl rfl rfl rfl rfl

theorem Tells.lateClose (old : Ck) (s : State) : Tells P s (lateClose old s) := by
  unfold Machine.lateClose
  dsimp only
  split
  · split
    · split
      · exact .trans (.modCk _ s) (.modCk _ _)
      · exact .modCk _ s
    · split
      · exact .modCk _ s
      · exact .refl s
  · exact .refl s

theorem Tells.clockRestore (s : State) : Tells ClockPair s (clockRestore s) ∧ (.CK, .POWER) ∈ pairs (clockRestore s) := by
  unfold Machine.clockRestore
  have hpower : Tells ClockPair s (powerRecord s) := .of_quiet rfl rfl rfl rfl rfl rfl
  refine ⟨?_, mem_pairs_raise (.CK, .POWER) _ _⟩
  exact (((hpower.trans (.modCk _ _)).trans (.raiseIf _ (k := (.CK, .DST)) (.inr rfl) _ _)).trans (.lateClose _ _)).trans
    (.raise (k := (.CK, .POWER)) (.inl rfl) _ _)

/-! ## The report of the settings (R202) -/

/-- What a start tells of a failed settings check. -/
def FaultPair (q : UnitName × NKind) : Prop := q = (.DV, .FAULT) ∨ q = (.ST, .APPLIED)

/-- Of a new link a report of a failed check raises FAULT. -/
theorem setComponents_started (k : StartKind) {s : State} (h : s.dv = Dv.started k) :
    ∃ fs, setComponents (fun d => { d with settings := true }) s =
      raise .DV .FAULT fs (s.modDv fun d => { d with settings := true }) := by
  refine ⟨_, if_pos ?_⟩
  rw [State.dv_modDv, h]
  rfl

/-- What a start leaves of the link before the clock and the bays (R17, R202). -/
theorem startCommon_tells (k : StartKind) (e : StartEnv) (s : State) :
    (startCommon k e s).dv = { Dv.started k with
      notices := (startCommon k e s).dv.notices
      attnPulse := (startCommon k e s).dv.attnPulse
      settings := !(s.st.storeGood && e.settingsGood) } ∧
    (∀ q ∈ pairs (startCommon k e s), (s.st.storeGood && e.settingsGood) = false ∧ FaultPair q) ∧
    ((s.st.storeGood && e.settingsGood) = false → ∀ q, FaultPair q → q ∈ pairs (startCommon k e s)) ∧
    Pulsed (startCommon k e s) := by
  rw [startCommon_eq]
  have hdefaults : (startBase k e s).st.defaults = !(s.st.storeGood && e.settingsGood) := rfl
  have hdv : (startBase k e s).dv = Dv.started k := rfl
  generalize startBase k e s = b at *
  unfold reportDefaults
  rw [hdefaults]
  cases hgood : s.st.storeGood && e.settingsGood
  · rw [if_pos (by rfl)]
    obtain ⟨fs, hfault⟩ := setComponents_started k hdv
    rw [hfault]
    have hbase : Pulsed (b.modDv fun d => { d with settings := true }) := by
      unfold Pulsed
      rw [State.dv_modDv, hdv]
      exact iff_of_false Bool.false_ne_true fun h => h.2 rfl
    have hnone : pairs (b.modDv fun d => { d with settings := true }) = [] := by
      unfold pairs
      rw [State.dv_modDv, hdv]
      rfl
    have hlink : (b.modDv fun d => { d with settings := true }).dv = { Dv.started k with settings := true } := by
      rw [State.dv_modDv, hdv]
    generalize (b.modDv fun d => { d with settings := true }) = t at hbase hnone hlink
    have htells : Tells FaultPair t (raise .DV .FAULT fs t) := .raise (k := (.DV, .FAULT)) (.inl rfl) fs t
    have htold (gs : List Fld) : Tells FaultPair t (raise .ST .APPLIED gs (raise .DV .FAULT fs t)) :=
      htells.trans (.raise (k := (.ST, .APPLIED)) (.inr rfl) gs _)
    refine ⟨(htold _).link.trans (by rw [hlink]; rfl), fun q hq => ⟨rfl, ?_⟩, fun _ q hq => ?_, (htold _).pulsed hbase⟩
    · refine ((htold _).new q hq).resolve_left ?_
      rw [hnone]
      exact nofun
    · rcases hq with rfl | rfl
      · exact (Tells.raise (P := FaultPair) (k := (.ST, .APPLIED)) (.inr rfl) _ _).old _ (mem_pairs_raise (.DV, .FAULT) fs t)
      · exact mem_pairs_raise (.ST, .APPLIED) _ _
  · rw [if_neg (by exact Bool.false_ne_true)]
    refine ⟨by rw [hdv]; rfl, fun q hq => ?_, nofun, ?_⟩
    · unfold pairs at hq
      rw [hdv] at hq
      exact nomatch hq
    · unfold Pulsed
      rw [hdv]
      exact iff_of_false Bool.false_ne_true fun h => h.2 rfl

end Sys2Proof.Proofs.StartTells

/-! PROOFS. What every start leaves (R16, R17, R23, R50, R129, R152, R192, R201). -/

namespace Sys2Proof.Proofs.StartTells

open Sys2Proof Sys2Proof.Machine Sys2Proof.Laws.Basic Sys2Proof.Proofs.Keeping Sys2Proof.Proofs.Telling
open Sys2Proof.Proofs.Starts Sys2Proof.Proofs.Valves Sys2Proof.Proofs.LinkEvents

/-! ## The posts of a start (R16) -/

/-- The log has at most the source's own append of a start: DV's RESTART record, another's oldest record. -/
def OwnPosts (k : StartKind) (s : State) : Prop :=
  s.dl.writing = none ∧ ∀ a ∈ s.dl.queue,
    if a.source = .DV then a.record.body = .RESTART k else (s.outbox a.source).head? = some a.record

/-- The source has posted what a start posts of it. -/
def HasPosted (k : StartKind) (src : LogSource) (s : State) : Prop :=
  if src = .DV then ∃ r : LogRec, r.body = .RESTART k ∧ (⟨.DV, r⟩ : Append) ∈ s.dl.queue
  else ∀ r, (s.outbox src).head? = some r → (⟨src, r⟩ : Append) ∈ s.dl.queue

theorem outbox_postAtStart (k : StartKind) (src c : LogSource) (s : State) :
    (postAtStart k src s).outbox c = s.outbox c := by
  rw [postAtStart_frame]
  cases c <;> rfl

/-- A source with an append at the log has it in the queue while nothing is written. -/
theorem mem_queue_of_hasAppend {s : State} {src : LogSource} (hw : s.dl.writing = none) (h : s.dl.hasAppend src = true) :
    ∃ a ∈ s.dl.queue, a.source = src := by
  unfold Dl.hasAppend at h
  rw [hw] at h
  simpa using h

theorem HasPosted.later {k : StartKind} {src : LogSource} {s t : State} (h : HasPosted k src s)
    (houtbox : t.outbox src = s.outbox src) (hqueue : ∀ a ∈ s.dl.queue, a ∈ t.dl.queue) : HasPosted k src t := by
  unfold HasPosted at *
  split
  · rename_i hsrc
    rw [if_pos hsrc] at h
    obtain ⟨r, hr, hmem⟩ := h
    exact ⟨r, hr, hqueue _ hmem⟩
  · rename_i hsrc
    rw [if_neg hsrc] at h
    exact fun r hr => hqueue _ (h r (houtbox ▸ hr))

/-- One post of a start. -/
theorem postAtStart_posts {k : StartKind} {src : LogSource} {s : State} (h : OwnPosts k s) :
    OwnPosts k (postAtStart k src s) ∧ HasPosted k src (postAtStart k src s) ∧
      ∀ a ∈ s.dl.queue, a ∈ (postAtStart k src s).dl.queue := by
  obtain ⟨hw, hown⟩ := h
  cases hsrc : s.dl.hasAppend src
  case true =>
    have hsame : postAtStart k src s = s := by
      unfold postAtStart
      split
      · exact if_pos hsrc
      · exact if_pos hsrc
    obtain ⟨a, ha, rfl⟩ := mem_queue_of_hasAppend hw hsrc
    have hrecord := hown a ha
    rw [hsame]
    refine ⟨⟨hw, hown⟩, ?_, fun _ => id⟩
    unfold HasPosted
    split
    · rename_i hdv
      rw [if_pos hdv] at hrecord
      exact ⟨a.record, hrecord, hdv ▸ ha⟩
    · rename_i hdv
      rw [if_neg hdv] at hrecord
      intro r hr
      rw [← Option.some.inj (hrecord.symm.trans hr)]
      exact ha
  case false =>
    by_cases hdv : src = .DV
    · subst hdv
      have hpost : postAtStart k .DV s = postRecord .DV (s.makeRec (.RESTART k)) s :=
        if_neg (by rw [hsrc]; exact Bool.false_ne_true)
      rw [hpost]
      refine ⟨⟨hw, fun a ha => ?_⟩, ?_, fun a => List.mem_append_left _⟩
      · rcases List.mem_append.1 ha with ha | ha
        · exact hown a ha
        · rw [List.mem_singleton.1 ha]
          exact (if_pos rfl).mpr rfl
      · exact (if_pos rfl).mpr ⟨s.makeRec (.RESTART k), rfl, List.mem_append_right _ (List.mem_singleton_self _)⟩
    · have hpost : postAtStart k src s = postFrom src s := by
        unfold postAtStart
        split
        · exact absurd rfl hdv
        · rfl
      have hqueue : (postFrom src s).dl.queue = s.dl.queue ++ (s.outbox src).head?.toList.map fun r => ⟨src, r⟩ := by
        rw [dl_postFrom, hsrc]
        rfl
      rw [hpost]
      refine ⟨⟨by rw [dl_postFrom]; exact hw, fun a ha => ?_⟩, ?_, fun a ha => ?_⟩
      · rw [hqueue] at ha
        rw [outbox_postFrom]
        rcases List.mem_append.1 ha with ha | ha
        · exact hown a ha
        · obtain ⟨r, hr, rfl⟩ := List.mem_map.1 ha
          rw [if_neg hdv]
          exact Option.mem_toList.1 hr
      · unfold HasPosted
        rw [if_neg hdv, outbox_postFrom, hqueue]
        exact fun r hr => List.mem_append_right _ (List.mem_map.2 ⟨r, Option.mem_toList.2 hr, rfl⟩)
      · rw [hqueue]
        exact List.mem_append_left _ ha

theorem foldl_posts {k : StartKind} (l : List LogSource) {s : State} (h : OwnPosts k s) :
    (∀ src ∈ l, HasPosted k src (l.foldl (fun t src => postAtStart k src t) s)) ∧
      ∀ a ∈ s.dl.queue, a ∈ (l.foldl (fun t src => postAtStart k src t) s).dl.queue := by
  induction l generalizing s with
  | nil => exact ⟨nofun, fun _ => id⟩
  | cons c l ih =>
    obtain ⟨hown, hposted, hkept⟩ := postAtStart_posts (src := c) h
    obtain ⟨hrest, hlater⟩ := ih hown
    refine ⟨fun src hsrc => ?_, fun a ha => hlater a (hkept a ha)⟩
    rcases List.mem_cons.1 hsrc with rfl | hsrc
    · refine hposted.later ?_ hlater
      refine List.foldlRecOn (motive := fun t : State => t.outbox src = (postAtStart k src s).outbox src) l _ rfl
        fun t ht c _ => (outbox_postAtStart k c src t).trans ht
    · exact hrest src hsrc

theorem mem_allSources (src : LogSource) : src ∈ allSources := by
  unfold allSources
  cases src with
  | B b => exact List.mem_append_right _ (List.mem_map_of_mem (mem_allBays b))
  | _ => exact List.mem_append_left _ (by decide)

/-- From an empty log every source posts at a start. -/
theorem startPosts_posts (k : StartKind) (e : StartEnv) {s : State} (hqueue : s.dl.queue = []) (hw : s.dl.writing = none)
    (src : LogSource) : HasPosted k src (startPosts k e s) :=
  (foldl_posts (e.order ++ allSources) ⟨hw, by rw [hqueue]; exact nofun⟩).1 src
    (List.mem_append_right _ (mem_allSources src))

/-! ## The transmitter after a start -/

/-- What the transmitter makes of the link that a start leaves: the oldest notice is on TXD. -/
theorem pump_started {s : State} (hw : s.dv.wire = none) (hr : s.dv.replies = []) (hm : s.dv.mode = .PUSH)
    (hwait : s.dv.resetWait = false) : ∃ w ns, (pump s).dv = { s.dv with wire := w, notices := ns } ∧
      (∀ r, w ≠ some (.reply r)) ∧ (w = none → ns = []) ∧ noticesOut (pump s) = s.dv.notices := by
  rcases hn : s.dv.notices with _ | ⟨n, ns⟩
  · rw [pump_idle hr (.inr (.inr hn))]
    refine ⟨none, [], by rw [← hw, ← hn], nofun, fun _ => rfl, ?_⟩
    unfold noticesOut
    rw [hw, hn]
    rfl
  · rw [pump_notice hw hr hm hwait hn]
    exact ⟨some (.notice n), ns, rfl, nofun, nofun, rfl⟩

/-! ## What a start leaves before its posts -/

/-- What a start leaves of the link, the sampler, the staging, the log and the settings, before its posts. -/
structure Left (k : StartKind) (e : StartEnv) (s : State) (P : UnitName × NKind → Prop) (m : State) : Prop where
  supply : m.supply = true
  link : m.dv = { Dv.started k with
    notices := m.dv.notices
    attnPulse := m.dv.attnPulse
    settings := !(s.st.storeGood && e.settingsGood) }
  told : ∀ q ∈ pairs m, ((s.st.storeGood && e.settingsGood) = false ∧ FaultPair q) ∨ P q
  fault : (s.st.storeGood && e.settingsGood) = false → ∀ q, FaultPair q → q ∈ pairs m
  pulsed : Pulsed m
  ts : m.ts = Ts.reset
  staging : m.cp.staging = none
  queue : m.dl.queue = []
  writing : m.dl.writing = none
  dl : m.dl.scan = true ∧ m.dl.refused = 0 ∧ m.dl.cursor = none ∧ m.dl.reclaim = none ∧ m.dl.accesses = 0
  st : { m.st with outbox := none } = { s.st.started e.settingsGood with outbox := none }

variable {k : StartKind} {e : StartEnv} {s m : State} {P : UnitName × NKind → Prop}

/-- The parts that every start shares leave this. -/
theorem left_startCommon (k : StartKind) (e : StartEnv) (s : State) (P : UnitName × NKind → Prop) :
    Left k e s P (startCommon k e s) := by
  obtain ⟨hlink, htold, hfault, hpulsed⟩ := startCommon_tells k e s
  have hframe := startCommon_frame k e s
  generalize startCommon k e s = t at *
  refine ⟨by rw [hframe]; rfl, hlink, fun q hq => .inl (htold q hq), hfault, hpulsed, by rw [hframe]; rfl,
    by rw [hframe]; rfl, by rw [hframe]; rfl, ?_, ?_, by rw [hframe]; rfl⟩
  · rw [hframe]
    exact Bindings.writing_started _ _ _
  · rw [hframe]
    exact ⟨rfl, rfl, rfl, rfl, rfl⟩

/-- What only tells leaves it so. -/
theorem Left.tells {t : State} (h : Left k e s P m) (ht : Tells P m t) : Left k e s P t where
  supply := ht.supply.trans h.supply
  link := by rw [ht.link, h.link]
  told q hq := (ht.new q hq).elim (h.told q) .inr
  fault hbad q hq := ht.old q (h.fault hbad q hq)
  pulsed := ht.pulsed h.pulsed
  ts := ht.ts.trans h.ts
  staging := ht.staging.trans h.staging
  queue := ht.dl ▸ h.queue
  writing := ht.dl ▸ h.writing
  dl := ht.dl ▸ h.dl
  st := ht.st ▸ h.st

/-- A cold start also empties the tables, the day counts and the settings unit's outbox. -/
theorem left_coldBays (e : StartEnv) (s : State) (P : UnitName × NKind → Prop) :
    Left .COLD e s P (coldBays (coldBase e s)) := by
  have hframe := coldBays_frame (coldBase e s)
  have hcommon := left_startCommon .COLD e s P
  generalize coldBays (coldBase e s) = t at hframe
  have hdv : t.dv = (startCommon .COLD e s).dv := by rw [hframe]; rfl
  have hst : t.st = { (startCommon .COLD e s).st with outbox := none } := by rw [hframe]; rfl
  have hdl : t.dl = { (startCommon .COLD e s).dl with day := DayCounts.zero } := by rw [hframe]; rfl
  have hpairs : pairs t = pairs (startCommon .COLD e s) := by unfold pairs; rw [hdv]
  refine ⟨by rw [hframe]; exact hcommon.supply, by rw [hdv]; exact hcommon.link, by rw [hpairs]; exact hcommon.told,
    by rw [hpairs]; exact hcommon.fault, ?_, by rw [hframe]; exact hcommon.ts, by rw [hframe]; rfl,
    by rw [hdl]; exact hcommon.queue, by rw [hdl]; exact hcommon.writing, by rw [hdl]; exact hcommon.dl,
    by rw [hst]; exact hcommon.st⟩
  have hpulsed := hcommon.pulsed
  unfold Pulsed at *
  rw [hdv, hst]
  exact hpulsed

/-- What a start that is not cold tells besides: CK's notices after a loss, and those of the bays. -/
def WarmPair (fromLoss : Bool) (q : UnitName × NKind) : Prop := (fromLoss = true ∧ ClockPair q) ∨ BayPair q

theorem Tells.mono {Q : UnitName × NKind → Prop} {t : State} (h : Tells P m t) (hPQ : ∀ q, P q → Q q) : Tells Q m t :=
  { h with new := fun q hq => (h.new q hq).imp_right (hPQ q) }

theorem left_restartBays (k : StartKind) (fromLoss : Bool) (e : StartEnv) (s : State) :
    Left k e s (WarmPair fromLoss) (restartBays (warmClock fromLoss (warmBase k e s))) ∧
      (fromLoss = true → (.CK, .POWER) ∈ pairs (restartBays (warmClock fromLoss (warmBase k e s)))) := by
  have hbase : Left k e s (WarmPair fromLoss) (warmBase k e s) :=
    (left_startCommon k e s _).tells (.of_quiet rfl rfl rfl rfl rfl rfl)
  have hbays (t : State) : Tells (WarmPair fromLoss) t (restartBays t) := (Tells.restartBays t).mono fun _ => .inr
  unfold warmClock
  split
  · rename_i hloss
    obtain ⟨hclock, hpower⟩ := Tells.clockRestore (warmBase k e s)
    exact ⟨(hbase.tells (hclock.mono fun _ hq => .inl ⟨hloss, hq⟩)).tells (hbays _), fun _ => (hbays _).old _ hpower⟩
  · rename_i hloss
    exact ⟨(hbase.tells (.modCk _ _)).tells (hbays _), fun h => absurd h hloss⟩

/-- The valves are closed after a start: no bay is left LOADING (R137, R138). -/
theorem closed_restartBays (s : State) (b : Bay) : ((restartBays s).bay b).state ≠ .LOADING := by
  have hrestarted (c : Bay) : ((forBays restartBay s).bay c).state ≠ .LOADING := by
    have h := forBays_all (P := fun u => u.state ≠ .LOADING) (fun _ _ t h => bay_restartBay_ne h t) (fun c t => by
      rcases (Bindings.restarted_restartBay c t).state with h | h | h <;> rw [h] <;> nofun) s c
    exact h
  unfold restartBays
  dsimp only
  split
  · refine forBays_all (P := fun u => u.state ≠ .LOADING) (fun _ _ t h => Bindings.bay_closeBay_ne h t) (fun c t => ?_) _ b
    rw [Bindings.state_closeBay]
    exact nofun
  · exact hrestarted b

/-! ## What it leaves after them -/

/-- What the settings unit holds after a start. -/
theorem Left.settings (h : Left k e s P m) : m.st.defaults = !(s.st.storeGood && e.settingsGood) ∧ m.st.apply = none ∧
    m.st.applied = (if s.st.storeGood && e.settingsGood then s.st.store else Settings.factory) ∧
    m.st.staging = m.st.applied :=
  ⟨congrArg St.defaults h.st, congrArg St.apply h.st, congrArg St.applied h.st,
    (congrArg St.staging h.st).trans (congrArg St.applied h.st).symm⟩

/-- The log after the posts of a start. -/
theorem Left.log (h : Left k e s P m) : let t := pump (startPosts k e m)
    t.dl.writing = none ∧ t.dl.scan = true ∧ t.dl.refused = 0 ∧ t.dl.cursor = none ∧ t.dl.reclaim = none ∧
      t.dl.accesses = 0 ∧ (∃ r : LogRec, r.body = .RESTART k ∧ (⟨.DV, r⟩ : Append) ∈ t.dl.queue) ∧
      ∀ src r, (t.outbox src).head? = some r → (⟨src, r⟩ : Append) ∈ t.dl.queue := by
  dsimp only
  have hposted := startPosts_posts k e h.queue h.writing
  have hdl := dl_startPosts k e m
  have houtbox (src : LogSource) : (pump (startPosts k e m)).outbox src = (startPosts k e m).outbox src := by
    cases src <;> simp [State.outbox]
  rw [dl_pump]
  generalize startPosts k e m = p at *
  obtain ⟨hscan, hrefused, hcursor, hreclaim, haccesses⟩ := h.dl
  refine ⟨by rw [hdl]; exact h.writing, by rw [hdl]; exact hscan, by rw [hdl]; exact hrefused, by rw [hdl]; exact hcursor,
    by rw [hdl]; exact hreclaim, by rw [hdl]; exact haccesses, ?_, fun src r hr => ?_⟩
  · exact (if_pos rfl).mp (hposted .DV)
  · have hsrc := hposted src
    unfold HasPosted at hsrc
    rw [houtbox] at hr
    split at hsrc
    · rename_i hdv
      rw [hdv] at hr
      exact nomatch hr
    · exact hsrc r hr

/-- The link after the posts of a start. -/
theorem Left.sent (h : Left k e s P m) : ∃ w, let t := pump (startPosts k e m)
    t.dv = { Dv.started k with
      wire := w
      notices := t.dv.notices
      attnPulse := t.dv.attnPulse
      settings := !(s.st.storeGood && e.settingsGood) } ∧
      (∀ r, w ≠ some (.reply r)) ∧ (w = none → t.dv.notices = []) ∧ noticesOut t = m.dv.notices ∧
      (t.dv.attnPulse = true ↔ t.st.applied.attn = .PULSE ∧ m.dv.notices ≠ []) := by
  have hframe := startPosts_frame k e m
  have hlink := h.link
  have hpulsed := h.pulsed
  have hdv : (startPosts k e m).dv = m.dv := by rw [hframe]
  have hst : (startPosts k e m).st = m.st := by rw [hframe]
  generalize startPosts k e m = p at *
  obtain ⟨w, ns, hpump, hreply, hnone, hout⟩ := pump_started (s := p) (by rw [hdv, hlink]; rfl) (by rw [hdv, hlink]; rfl)
    (by rw [hdv, hlink]; rfl) (by rw [hdv, hlink]; rfl)
  refine ⟨w, ?_, hreply, fun hw => ?_, by rw [hout, hdv], ?_⟩
  · rw [hpump, hdv, hlink]
  · rw [hpump]
    exact hnone hw
  · rw [hpump, st_pump, hst, hdv]
    exact hpulsed

end Sys2Proof.Proofs.StartTells

/-! PROOFS. Every start leaves these states (R16, R17, R23, R50, R129, R152, R192, R201). -/

namespace Sys2Proof.Proofs.StartTells

open Sys2Proof Sys2Proof.Machine Sys2Proof.Laws.Basic Sys2Proof.Proofs.Keeping Sys2Proof.Proofs.Telling
open Sys2Proof.Proofs.Starts Sys2Proof.Proofs.Valves Sys2Proof.Proofs.LinkEvents Sys2Proof.Proofs.LinkRequests

variable {c : Instr} {k : StartKind} {e : StartEnv} {s : State}

/-- The row is a start of this kind, and may act. -/
def IsStart (c : Instr) (k : StartKind) (e : StartEnv) (s : State) : Prop :=
  (c = .coldStart e ∧ k = .COLD) ∨ (c = .warmStart e ∧ k = .WARM) ∨ (c = .resetLine e ∧ k = .WARM ∧ s.supply = true) ∨
    (c = .deviceReset e ∧ k = .DEVICE ∧ s.supply = true ∧ s.dv.resetWait = true ∧ s.dv.replies = [] ∧ s.dv.wire = none)

theorem st_lossSeen (s : State) : (lossSeen s).st = s.st := by
  unfold lossSeen
  split
  · unfold supplyLost
    dsimp only
    rw [StepAndTick.forBays_modBay_frame]
    rfl
  · rfl

theorem Left.of_store {s' m : State} {P : UnitName × NKind → Prop} (h : Left k e s' P m) (hst : s'.st = s.st) :
    Left k e s P m := by
  obtain ⟨hsupply, hlink, htold, hfault, hpulsed, hts, hstaging, hqueue, hwriting, hdl, hset⟩ := h
  rw [hst] at hlink htold hfault hset
  exact ⟨hsupply, hlink, htold, hfault, hpulsed, hts, hstaging, hqueue, hwriting, hdl, hset⟩

theorem exec_resetLine (e : StartEnv) (h : s.supply = true) :
    exec (.resetLine e) s = .next (warmStart .WARM false e s) := by
  rw [show exec (.resetLine e) s = .next (pump (warmStart .WARM false e s)) from
    Laws.Requests.event_on (fun t => warmStart .WARM false e t) h, warmStart_eq, Laws.Requests.pump_pump]

theorem exec_deviceReset_ready (e : StartEnv) (h : s.supply = true) (hready : resetReady s = true) :
    exec (.deviceReset e) s = .next (warmStart .DEVICE false e s) := by
  rw [exec_deviceReset e h, if_pos hready, warmStart_eq, Laws.Requests.pump_pump]

theorem release_restartBays (s : State) (b : Bay) : ((restartBays s).bay b).release = false :=
  (valves_restartBays s b).trans (mayRelease_of_not_loading (closed_restartBays s b))

/-- Every start makes the posts of a start from a state with the parts that the starts share. -/
theorem start_left (h : IsStart c k e s) : ∃ m P, exec c s = .next (pump (startPosts k e m)) ∧ Left k e s P m ∧
    (∀ q, P q → (c = .warmStart e ∧ ClockPair q) ∨ (k ≠ .COLD ∧ BayPair q)) ∧
    (c = .warmStart e → (.CK, .POWER) ∈ pairs m) ∧ ∀ b, (m.bay b).release = false := by
  have hbays {q : UnitName × NKind} (h : WarmPair false q) : BayPair q := h.resolve_left fun h => nomatch h.1
  rcases h with ⟨rfl, rfl⟩ | ⟨rfl, rfl⟩ | ⟨rfl, rfl, hsupply⟩ | ⟨rfl, rfl, hsupply, hready⟩
  · refine ⟨coldBays (coldBase e s), fun _ => False, rfl, left_coldBays e s _, nofun, nofun, fun b => ?_⟩
    rw [bay_coldBays]
    unfold coldBay
    split <;> rfl
  · obtain ⟨hleft, hpower⟩ := left_restartBays .WARM true e (lossSeen s)
    exact ⟨_, _, rfl, hleft.of_store (st_lossSeen s), fun q hq => hq.imp (fun h => ⟨rfl, h.2⟩) fun h => ⟨nofun, h⟩,
      fun _ => hpower rfl, release_restartBays _⟩
  · exact ⟨_, _, exec_resetLine e hsupply, (left_restartBays .WARM false e s).1, fun q hq => .inr ⟨nofun, hbays hq⟩,
      nofun, release_restartBays _⟩
  · exact ⟨_, _, exec_deviceReset_ready e hsupply ((resetReady_iff s).2 hready), (left_restartBays .DEVICE false e s).1,
      fun q hq => .inr ⟨nofun, hbays hq⟩, nofun, release_restartBays _⟩

/-- Settles O19: the parts that every start shares, by what each kind of start tells besides. -/
theorem everyStartLeavesTheseStates : Obligations.EveryStartLeavesTheseStates := by
  intro e s c k hstart
  obtain ⟨m, P, hexec, hleft, htold, hpower, hrelease⟩ := start_left hstart
  obtain ⟨w, hlink, hreply, hnone, hsent, hpulsed⟩ := hleft.sent
  obtain ⟨hdefaults, happly, happlied, hstaging⟩ := hleft.settings
  have hlog := hleft.log
  have hframe := startPosts_frame k e m
  have hst : (pump (startPosts k e m)).st = m.st := by rw [st_pump, hframe]
  have hts : (pump (startPosts k e m)).ts = m.ts := by rw [ts_pump, hframe]
  have hcp : (pump (startPosts k e m)).cp = m.cp := by rw [cp_pump, hframe]
  have hbay (b : Bay) : (pump (startPosts k e m)).bay b = m.bay b := by rw [bay_pump, hframe]; rfl
  have hsupply : (pump (startPosts k e m)).supply = true := by rw [supply_pump, hframe]; exact hleft.supply
  have hpairs {q : UnitName × NKind} : q ∈ (noticesOut (pump (startPosts k e m))).map Notice.pair ↔ q ∈ pairs m := by
    rw [hsent]
    rfl
  refine ⟨_, hexec, hsupply, ?_, ⟨?_, ?_, ?_, fun n hn => ?_, fun hbad => ?_, fun hc => hpairs.2 (hpower hc), ?_⟩,
    hts.trans hleft.ts, hcp ▸ hleft.staging, fun b => hbay b ▸ hrelease b, hlog, by rw [hst]; exact hdefaults,
    by rw [hst]; exact happly, by rw [hst]; exact happlied, by rw [hst]; exact hstaging⟩
  · rw [hlink]
    exact ⟨rfl, rfl, rfl, rfl, rfl, rfl, rfl, rfl, rfl, rfl, rfl, rfl, rfl, rfl⟩
  · rw [hlink]
  · rw [hlink]
    exact hreply
  · intro hw
    rw [hlink] at hw
    exact hnone hw
  · rcases hleft.told n.pair (hpairs.1 (List.mem_map_of_mem hn)) with hfault | hq
    · exact .inl hfault
    · exact .inr (htold _ hq)
  · exact ⟨hpairs.2 (hleft.fault hbad _ (.inl rfl)), hpairs.2 (hleft.fault hbad _ (.inr rfl))⟩
  · rw [hsent]
    exact hpulsed

end Sys2Proof.Proofs.StartTells

/-! PROOFS. The bays at a start that is not cold, each in its turn (R137, R138). -/

namespace Sys2Proof.Proofs.WarmBays

open Sys2Proof Sys2Proof.Machine Sys2Proof.Laws.Basic Sys2Proof.Proofs.Valves Sys2Proof.Proofs.Telling

/-! ## The unbinds over the whole tables (R58, R96) -/

/-- The document after the unbind of a bay with this binding. -/
def unboundDoc (b : Bay) (d : Option String) (x : Doc) : Doc :=
  if d = some x.num ∧ x.state = .BOUND b then { x with state := .DRAFT, stack := [] } else x

/-- The driver after it. -/
def unboundDriver (b : Bay) (n : Option Nat) (x : Driver) : Driver :=
  if n = some x.num ∧ x.status = .AT_BAY b then { x with status := .ON_SITE, pend := false } else x

variable {b c : Bay} {s t u : State}

theorem docs_cpUnbind (d : String) (b : Bay) (s : State) :
    (cpUnbind d b s).cp.docs = s.cp.docs.map (unboundDoc b (some d)) := by
  refine List.map_congr_left fun x _ => ?_
  unfold unboundDoc
  by_cases hd : x.num = d
  · simp [hd]
  · simp [hd, Ne.symm hd]

theorem drivers_dtUnbind (n : Nat) (b : Bay) (s : State) :
    (dtUnbind n b s).dt.drivers = s.dt.drivers.map (unboundDriver b (some n)) := by
  refine List.map_congr_left fun x _ => ?_
  unfold unboundDriver
  by_cases hn : x.num = n
  · simp [hn]
  · simp [hn, Ne.symm hn]

theorem unboundDoc_none (b : Bay) (x : Doc) : unboundDoc b none x = x := if_neg nofun
theorem unboundDriver_none (b : Bay) (x : Driver) : unboundDriver b none x = x := if_neg nofun

theorem docs_unbindBay (b : Bay) (s : State) :
    (unbindBay b s).cp.docs = s.cp.docs.map (unboundDoc b (s.bay b).doc) := by
  have hdoc : (match (s.bay b).doc with | some d => cpUnbind d b s | none => s).cp.docs =
      s.cp.docs.map (unboundDoc b (s.bay b).doc) := by
    rcases (s.bay b).doc with _ | d
    · exact (List.map_id'' (unboundDoc_none b) _).symm
    · exact docs_cpUnbind d b s
  unfold unbindBay
  dsimp only
  rcases (s.bay b).driver with _ | n
  · exact hdoc
  · exact hdoc

theorem drivers_unbindBay (b : Bay) (s : State) :
    (unbindBay b s).dt.drivers = s.dt.drivers.map (unboundDriver b (s.bay b).driver) := by
  unfold unbindBay
  dsimp only
  rcases (s.bay b).driver with _ | n
  · rcases (s.bay b).doc with _ | d
    · exact (List.map_id'' (unboundDriver_none b) _).symm
    · exact (List.map_id'' (unboundDriver_none b) _).symm
  · rcases (s.bay b).doc with _ | d
    · exact drivers_dtUnbind n b s
    · exact drivers_dtUnbind n b _

theorem num_unboundDoc (b : Bay) (d : Option String) (x : Doc) : (unboundDoc b d x).num = x.num := by
  unfold unboundDoc
  split <;> rfl

/-- A document bound to another bay reads the same after the unbinds of a bay. -/
theorem lineRead_unbindBay_ne (h : c ≠ b) (d : Option String) (k : Nat) (s : State) :
    lineRead (unbindBay c s) d b k = lineRead s d b k := by
  rcases d with _ | d
  · rfl
  have hdoc : (unbindBay c s).docOf d = (s.docOf d).map (unboundDoc c (s.bay c).doc) := by
    unfold State.docOf
    rw [docs_unbindBay, List.find?_map]
    simp only [Function.comp_def, num_unboundDoc]
  have hread (t : State) : lineRead t (some d) b k =
      (t.docOf d).bind fun x => if x.state = .BOUND b then x.lineOf k else none := rfl
  rw [hread, hread, hdoc]
  rcases s.docOf d with _ | x
  · rfl
  · unfold unboundDoc
    simp only [Option.map_some, Option.bind_some]
    split
    · rename_i hx
      rw [if_neg nofun, if_neg]
      rw [hx.2]
      exact fun e => h (DocState.BOUND.inj e)
    · rfl

/-! ## The turn of another bay -/

/-- What the turn of another bay leaves of what bay b's own turn reads. -/
structure Beside (b : Bay) (s t : State) : Prop where
  bay : t.bay b = s.bay b
  reads : ∀ d k, lineRead t d b k = lineRead s d b k
  st : t.st = s.st
  ck : t.ck = s.ck
  notices : ∀ n ∈ s.dv.notices, n.unit = .B b → n ∈ t.dv.notices

theorem Beside.refl (b : Bay) (s : State) : Beside b s s := ⟨rfl, fun _ _ => rfl, rfl, rfl, fun _ h _ => h⟩

theorem Beside.trans (h : Beside b s t) (k : Beside b t u) : Beside b s u where
  bay := k.bay.trans h.bay
  reads d i := (k.reads d i).trans (h.reads d i)
  st := k.st.trans h.st
  ck := k.ck.trans h.ck
  notices n hn hb := k.notices n (h.notices n hn hb) hb

theorem Beside.modBay (h : c ≠ b) (f : BayUnit → BayUnit) (s : State) : Beside b s (s.modBay c f) :=
  ⟨State.bay_modBay_ne _ _ _ _ h, fun _ _ => rfl, rfl, rfl, fun _ hn _ => hn⟩

theorem Beside.changeBay (h : c ≠ b) (r : String) (l : Bool) (o : NoticeOrder) (f : BayUnit → BayUnit) (s : State) :
    Beside b s (changeBay c r l o f s) where
  bay := bay_changeBay_ne _ _ _ _ _ _ _ h
  reads d k := Sampler.lineRead_congr (by rw [changeBay_frame]) d b k
  st := by rw [changeBay_frame]
  ck := by rw [changeBay_frame]
  notices n hn hb := mem_changeBay_of_ne hn (by rw [hb]; exact fun e => h (UnitName.B.inj e).symm)

theorem Beside.unbindBay (h : c ≠ b) (s : State) : Beside b s (unbindBay c s) where
  bay := bay_unbindBay c b s
  reads d k := lineRead_unbindBay_ne h d k s
  st := by rw [BayLeaving.unbindBay_frame]
  ck := by rw [BayLeaving.unbindBay_frame]
  notices n hn _ := by rw [BayLeaving.unbindBay_frame]; exact hn

theorem Beside.restartBay (h : c ≠ b) (s : State) : Beside b s (restartBay c s) := by
  unfold Machine.restartBay
  dsimp only
  refine .trans (.modBay h BayUnit.warm s) ?_
  split
  · exact .refl b _
  · exact .refl b _
  any_goals
    split
    · exact .changeBay h ..
    · exact .trans (.unbindBay h _) (.changeBay h ..)
  all_goals exact .changeBay h ..

theorem Beside.closeBay (h : c ≠ b) (s : State) : Beside b s (closeBay c s) := by
  unfold Machine.closeBay Machine.vacateBay
  split
  · exact .refl b s
  · exact .trans (.unbindBay h s) (.changeBay h ..)
  · exact .changeBay h ..

/-! ## The bay's own turn (R137) -/

/-- What a bay comes to: nothing loaded and DISPATCHED to IDLE, a loaded or active line held with RESTART. -/
def restartedUnit (s : State) (b : Bay) : BayUnit :=
  let u := (s.bay b).warm
  match u.state with
  | .CLOSED | .IDLE => u
  | .ASSIGNED | .HELD => if u.anyLoaded then u.keep else u.empty .IDLE
  | .LOADING | .PAUSED | .FINISHING => (u.endWithout s b).keep
  | .DISPATCHING => u.keep
  | .DISPATCHED => u.empty .IDLE

theorem release_endWithout (s : State) (b : Bay) (u : BayUnit) : (u.endWithout s b).release = u.release := by
  unfold BayUnit.endWithout
  split <;> rfl

/-- Ending a line reads of the state the bay's document and the settings. -/
theorem endWithout_congr (hdoc : (t.bay b).doc = (s.bay b).doc) (hreads : ∀ d k, lineRead t d b k = lineRead s d b k)
    (hst : t.st = s.st) (u : BayUnit) : u.endWithout t b = u.endWithout s b := by
  have hline (l : LineRec) : reconcileLine false t b l = reconcileLine false s b l := by
    unfold reconcileLine State.entry
    rw [hdoc, hreads, hst]
  unfold BayUnit.endWithout
  simp only [hline]

theorem drive_keep {u : BayUnit} (h : u.release = false) : u.keep.drive = u.keep :=
  (Apply.drive_of_not_loading (u := u.keep) nofun).trans (by rw [← h]; rfl)

theorem drive_empty {u : BayUnit} {st : BayState} (h : u.release = false) (hst : st ≠ .LOADING) :
    (u.empty st).drive = u.empty st :=
  (Apply.drive_of_not_loading (u := u.empty st) hst).trans (by rw [← h]; rfl)

/-- A bay after its turn, what it told, and what its later closing reads. -/
structure Turned (b : Bay) (s t : State) (v : BayUnit) : Prop where
  bay : t.bay b = v
  told : ChangeTold b "RESTART" (s.bay b) v t.dv.notices
  reads : v.state = .HELD → ∀ d k, lineRead t d b k = lineRead s d b k
  st : t.st = s.st
  ck : t.ck = s.ck

theorem ChangeTold.mono {r : String} {u v : BayUnit} {l m : List Notice} (h : ChangeTold b r u v l)
    (hlm : ∀ n ∈ l, n.unit = .B b → n ∈ m) : ChangeTold b r u v m := by
  obtain ⟨hstate, hlines, hhold⟩ := h
  exact ⟨fun e => hlm _ (hstate e) rfl, fun e => hlm _ (hlines e) rfl, fun e => hlm _ (hhold e) rfl⟩

/-- Later turns leave a bay as its own left it. -/
theorem Turned.beside {v : BayUnit} (h : Turned b s t v) (k : Beside b t u) : Turned b s u v where
  bay := k.bay.trans h.bay
  told := ChangeTold.mono h.told k.notices
  reads hv d i := (k.reads d i).trans (h.reads hv d i)
  st := k.st.trans h.st
  ck := k.ck.trans h.ck

/-- A change of the bay is its turn. -/
theorem Turned.changeBay {lines : Bool} {f : BayUnit → BayUnit} {v w : BayUnit} (hbay : t.bay b = w)
    (hw : w = (s.bay b).warm) (hf : (f w).drive = v) (hlines : lines = false → w.lines = v.lines)
    (hreads : v.state = .HELD → ∀ d k, lineRead t d b k = lineRead s d b k) (hst : t.st = s.st) (hck : t.ck = s.ck) :
    Turned b s (changeBay b "RESTART" lines .stateFirst f t) v := by
  obtain ⟨tbay, tnotices, -⟩ := BayBinding.changeBay_told (b := b) (reason := "RESTART") (lines := lines) (f := f) (s := t)
    (w := v) (by rw [hbay]; exact hf)
  refine ⟨tbay, ?_, fun hv d k => ?_, ?_, ?_⟩
  · rw [tnotices, hbay, hw]
    exact changeTold_toldStateFirst (u := (s.bay b).warm) (hw ▸ hlines)
  · rw [← hreads hv d k]
    exact Sampler.lineRead_congr (by rw [changeBay_frame]) d b k
  · rw [changeBay_frame]
    exact hst
  · rw [changeBay_frame]
    exact hck

theorem turned_restartBay (h : Beside b s t) : Turned b s (restartBay b t) (restartedUnit s b) := by
  have hwarm : (t.modBay b BayUnit.warm).bay b = (s.bay b).warm := by rw [State.bay_modBay_self, h.bay]
  have hreads (d : Option String) (k : Nat) : lineRead (t.modBay b BayUnit.warm) d b k = lineRead s d b k := h.reads d k
  have hst : (t.modBay b BayUnit.warm).st = s.st := h.st
  have hck : (t.modBay b BayUnit.warm).ck = s.ck := h.ck
  have hend (u : BayUnit) : u.endWithout (t.modBay b BayUnit.warm) b = u.endWithout s b :=
    endWithout_congr (by rw [hwarm]; rfl) hreads hst u
  unfold restartBay restartedUnit
  dsimp only
  generalize t.modBay b BayUnit.warm = p at *
  rw [hwarm]
  have hquiet : Turned b s p (s.bay b).warm :=
    ⟨hwarm, ⟨fun e => absurd rfl e, fun e => absurd rfl e, fun e => absurd rfl e⟩, fun _ => hreads, hst, hck⟩
  have hempty : Turned b s (changeBay b "RESTART" true .stateFirst (BayUnit.empty · .IDLE) p) ((s.bay b).warm.empty .IDLE) :=
    .changeBay hwarm rfl (drive_empty rfl nofun) nofun nofun hst hck
  have hkeep : Turned b s (changeBay b "RESTART" false .stateFirst BayUnit.keep p) (s.bay b).warm.keep :=
    .changeBay hwarm rfl (drive_keep rfl) (fun _ => rfl) (fun _ => hreads) hst hck
  have hidle : Turned b s (changeBay b "RESTART" true .stateFirst (BayUnit.empty · .IDLE) (unbindBay b p))
      ((s.bay b).warm.empty .IDLE) :=
    .changeBay ((bay_unbindBay b b p).trans hwarm) rfl (drive_empty rfl nofun) nofun nofun
      (by rw [BayLeaving.unbindBay_frame]; exact hst) (by rw [BayLeaving.unbindBay_frame]; exact hck)
  have hended : Turned b s (changeBay b "RESTART" true .stateFirst (fun u => (u.endWithout p b).keep) p)
      ((s.bay b).warm.endWithout s b).keep :=
    .changeBay hwarm rfl (by rw [hend]; exact drive_keep (release_endWithout ..)) nofun (fun _ => hreads) hst hck
  cases (s.bay b).warm.state
  case CLOSED => exact hquiet
  case IDLE => exact hquiet
  case DISPATCHING => exact hkeep
  case DISPATCHED => exact hempty
  case ASSIGNED =>
    dsimp only
    split
    · exact hkeep
    · exact hidle
  case HELD =>
    dsimp only
    split
    · exact hkeep
    · exact hidle
  case LOADING => exact hended
  case PAUSED => exact hended
  case FINISHING => exact hended

end Sys2Proof.Proofs.WarmBays

/-! PROOFS. The bays that a start closes, and all bays after a start that is not cold (R137, R138). -/

namespace Sys2Proof.Proofs.WarmBays

open Sys2Proof Sys2Proof.Machine Sys2Proof.Laws.Basic Sys2Proof.Proofs.Valves Sys2Proof.Proofs.Telling

variable {b c : Bay} {s t : State}

/-- A bay comes by its turn to what it was, to an empty IDLE, or to be held with RESTART, its document kept. -/
theorem restartedUnit_cases (s : State) (b : Bay) :
    (((s.bay b).state = .CLOSED ∨ (s.bay b).state = .IDLE) ∧ restartedUnit s b = (s.bay b).warm) ∨
    restartedUnit s b = (s.bay b).warm.empty .IDLE ∨
    ∃ w : BayUnit, restartedUnit s b = w.keep ∧ w.doc = (s.bay b).doc ∧ w.driver = (s.bay b).driver ∧
      w.release = false := by
  have hdoc : ((s.bay b).warm.endWithout s b).doc = (s.bay b).doc := by
    unfold BayUnit.endWithout
    split <;> rfl
  have hdriver : ((s.bay b).warm.endWithout s b).driver = (s.bay b).driver := by
    unfold BayUnit.endWithout
    split <;> rfl
  have hreleased : ((s.bay b).warm.endWithout s b).release = false := release_endWithout ..
  unfold restartedUnit
  dsimp only
  rw [show (s.bay b).warm.state = (s.bay b).state from rfl]
  cases (s.bay b).state
  case CLOSED => exact .inl ⟨.inl rfl, rfl⟩
  case IDLE => exact .inl ⟨.inr rfl, rfl⟩
  case DISPATCHING => exact .inr (.inr ⟨_, rfl, rfl, rfl, rfl⟩)
  case DISPATCHED => exact .inr (.inl rfl)
  case ASSIGNED =>
    dsimp only
    split
    · exact .inr (.inr ⟨_, rfl, rfl, rfl, rfl⟩)
    · exact .inr (.inl rfl)
  case HELD =>
    dsimp only
    split
    · exact .inr (.inr ⟨_, rfl, rfl, rfl, rfl⟩)
    · exact .inr (.inl rfl)
  case LOADING => exact .inr (.inr ⟨_, rfl, hdoc, hdriver, hreleased⟩)
  case PAUSED => exact .inr (.inr ⟨_, rfl, hdoc, hdriver, hreleased⟩)
  case FINISHING => exact .inr (.inr ⟨_, rfl, hdoc, hdriver, hreleased⟩)

theorem restartedUnit_held (h : (restartedUnit s b).state = .HELD) :
    (restartedUnit s b).doc = (s.bay b).doc ∧ (restartedUnit s b).driver = (s.bay b).driver ∧
      (restartedUnit s b).holds ≠ Holds.none := by
  rcases restartedUnit_cases s b with ⟨hstate, hunit⟩ | hunit | ⟨w, hunit, hdoc, hdriver, -⟩
  · rw [hunit] at h
    exact absurd (hstate.imp h.symm.trans h.symm.trans) (by simp)
  · rw [hunit] at h
    exact nomatch h
  · rw [hunit]
    exact ⟨hdoc, hdriver, fun e => Bool.noConfusion (congrArg Holds.restart e : true = false)⟩

theorem release_restartedUnit (s : State) (b : Bay) : (restartedUnit s b).release = false := by
  rcases restartedUnit_cases s b with ⟨-, hunit⟩ | hunit | ⟨w, hunit, -, -, hrelease⟩
  · rw [hunit]
    rfl
  · rw [hunit]
    rfl
  · rw [hunit]
    exact hrelease

theorem state_restartedUnit (s : State) (b : Bay) : (restartedUnit s b).state = .CLOSED ∨
    (restartedUnit s b).state = .IDLE ∨ (restartedUnit s b).state = .HELD := by
  rcases restartedUnit_cases s b with ⟨hstate, hunit⟩ | hunit | ⟨w, hunit, -⟩
  · rw [hunit]
    exact hstate.imp_right .inl
  · rw [hunit]
    exact .inr (.inl rfl)
  · rw [hunit]
    exact .inr (.inr rfl)

/-! ## The bay's own turn at the closing (R138) -/

/-- A bay that was held is emptied into CLOSED, with a CANCEL record of its loaded lines. -/
def Vacated (s : State) (b : Bay) (u v : BayUnit) : Prop :=
  v = { u.empty .CLOSED with outbox := v.outbox } ∧
    ∀ d n, u.doc = some d → u.driver = some n → v.outbox = u.outbox ++ if u.lines.any (·.loaded) then
      [⟨s.stamp, .CANCEL ⟨b, d, n, .RESET, (u.lines.filter (·.loaded)).map (cancelItem s b)⟩⟩] else []

/-- A bay after its closing, which found it as v. -/
structure Shut (b : Bay) (s : State) (v : BayUnit) (t : State) : Prop where
  told : ChangeTold b "RESTART" (s.bay b) (t.bay b) t.dv.notices
  closed : v.state = .CLOSED → t.bay b = v
  idle : v.state = .IDLE → t.bay b = { v with state := .CLOSED }
  held : v.state = .HELD → Vacated s b v (t.bay b)

theorem Shut.beside {v : BayUnit} {u : State} (h : Shut b s v t) (k : Beside b t u) : Shut b s v u where
  told := by rw [k.bay]; exact ChangeTold.mono h.told k.notices
  closed hv := by rw [k.bay]; exact h.closed hv
  idle hv := by rw [k.bay]; exact h.idle hv
  held hv := by rw [k.bay]; exact h.held hv

theorem stamp_congr (h : t.ck = s.ck) : t.stamp = s.stamp := by
  unfold State.stamp
  rw [h]

theorem cancelItem_congr (hdoc : (t.bay b).doc = (s.bay b).doc) (hreads : ∀ d k, lineRead t d b k = lineRead s d b k)
    (l : LineRec) : cancelItem t b l = cancelItem s b l := by
  unfold cancelItem
  rw [hdoc, hreads]

/-- All the notices of a bay whose state and hold reasons change and whose lines are told. -/
theorem changeTold_all {r : String} {u v w : BayUnit} {ns : List Notice} (hstate : v.state ≠ w.state) (hholds : v.holds ≠ w.holds) :
    ChangeTold b r u w (toldStateFirst b r true v w ns) := by
  have hlines : (⟨.B b, .LINES, linesFields w⟩ : Notice) ∈ toldStateFirst b r true v w ns := by
    unfold toldStateFirst
    dsimp only
    rw [if_neg hholds]
    exact mem_putNotice_of_ne (Laws.Basic.mem_putNotice ..) (by simp)
  obtain ⟨hs, -, hh⟩ := changeTold_toldStateFirst (b := b) (reason := r) (lines := true) (u := v) (v := w) (ns := ns) nofun
  exact ⟨fun _ => hs hstate, fun _ => hlines, fun _ => hh hholds⟩

/-- The notices of a bay whose state alone changes once more. -/
theorem changeTold_state {r : String} {u v : BayUnit} {ns : List Notice} (h : ChangeTold b r u v ns) {st : BayState}
    (hst : v.state ≠ st) : ChangeTold b r u { v with state := st } (toldStateFirst b r false v { v with state := st } ns) := by
  obtain ⟨-, hlines, hhold⟩ := h
  unfold toldStateFirst
  dsimp only
  rw [if_neg hst, if_pos rfl]
  exact ⟨fun _ => Laws.Basic.mem_putNotice .., fun e => mem_putNotice_of_ne (hlines e) (by simp),
    fun e => mem_putNotice_of_ne (hhold e) (by simp)⟩

theorem shut_closeBay (h : Turned b s t (restartedUnit s b)) : Shut b s (restartedUnit s b) (closeBay b t) := by
  obtain ⟨hbay, htold, hreads, -, hck⟩ := h
  unfold closeBay vacateBay
  rw [hbay]
  have hrelease := release_restartedUnit s b
  have hheld := restartedUnit_held (s := s) (b := b)
  have hstate := state_restartedUnit s b
  generalize restartedUnit s b = v at *
  cases hv : v.state
  case CLOSED =>
    exact ⟨by rw [show t.bay b = v from hbay]; exact htold, fun _ => hbay, fun h => absurd (hv.symm.trans h) nofun,
      fun h => absurd (hv.symm.trans h) nofun⟩
  case IDLE =>
    obtain ⟨tbay, tnotices, -⟩ := BayBinding.changeBay_told (b := b) (reason := "RESTART") (lines := false)
      (f := fun u => { u with state := .CLOSED }) (s := t) (w := { v with state := .CLOSED })
      (by rw [hbay, Apply.drive_of_not_loading (show BayState.CLOSED ≠ .LOADING from nofun), hrelease.symm])
    refine ⟨?_, fun h => absurd (hv.symm.trans h) nofun, fun _ => tbay, fun h => absurd (hv.symm.trans h) nofun⟩
    dsimp only
    rw [tbay, tnotices, hbay]
    exact changeTold_state htold (by rw [hv]; nofun)
  case HELD =>
    obtain ⟨hdoc, -, hholds⟩ := hheld hv
    have hdoc' : (t.bay b).doc = (s.bay b).doc := by rw [hbay]; exact hdoc
    have hrecs (d : String) (n : Nat) (hd : v.doc = some d) (hn : v.driver = some n) :=
      BayLeaving.cancelRecord_toList (s := t) (b := b) (hbay ▸ hd) (hbay ▸ hn) .RESET
    simp only [stamp_congr hck, hbay, funext (cancelItem_congr hdoc' (hreads hv))] at hrecs
    dsimp only
    generalize (cancelRecord t b .RESET).toList = recs at hrecs ⊢
    obtain ⟨tbay, tnotices, -⟩ := BayBinding.changeBay_told (b := b) (reason := "RESTART") (lines := true)
      (f := fun u => { u.empty .CLOSED with outbox := u.outbox ++ recs }) (s := unbindBay b t)
      (w := { v.empty .CLOSED with outbox := v.outbox ++ recs })
      (by rw [bay_unbindBay, hbay, Apply.drive_of_not_loading (show BayState.CLOSED ≠ .LOADING from nofun)]; rw [← hrelease]; rfl)
    refine ⟨?_, fun h => absurd (hv.symm.trans h) nofun, fun h => absurd (hv.symm.trans h) nofun, fun _ => ?_⟩
    · rw [tbay, tnotices, bay_unbindBay, hbay]
      exact changeTold_all (by rw [hv]; nofun) hholds
    · rw [tbay]
      exact ⟨rfl, fun d n hd hn => congrArg (v.outbox ++ ·) (hrecs d n hd hn)⟩
  all_goals
    rw [hv] at hstate
    exact absurd hstate (by simp)

/-! ## All bays -/

/-- Every bay once all have had their turn. -/
theorem turned_forBays (b : Bay) (s : State) : Turned b s (forBays restartBay s) (restartedUnit s b) :=
  forBays_brings (P := Beside b s) (Q := fun t => Turned b s t (restartedUnit s b))
    (fun c t hc ht => ht.trans (.restartBay hc t)) (fun t ht => turned_restartBay ht)
    (fun c t hc ht => ht.beside (.restartBay hc t)) (.refl b s)

/-- Every bay after a start that keeps the settings. -/
theorem turned_restartBays (b : Bay) (h : s.st.defaults = false) : Turned b s (restartBays s) (restartedUnit s b) := by
  have hbays := turned_forBays b s
  have hdefaults : (forBays restartBay s).st.defaults = false := by rw [hbays.st, h]
  unfold restartBays
  dsimp only
  rw [hdefaults]
  exact hbays

/-- Every bay after a start with the factory defaults. -/
theorem shut_restartBays (b : Bay) (h : s.st.defaults = true) : Shut b s (restartedUnit s b) (restartBays s) := by
  have hbays := turned_forBays b s
  have hdefaults : (forBays restartBay s).st.defaults = true := by rw [hbays.st, h]
  unfold restartBays
  dsimp only
  rw [hdefaults]
  exact forBays_brings (P := fun t => Turned b s t (restartedUnit s b)) (Q := Shut b s (restartedUnit s b))
    (fun c t hc ht => ht.beside (.closeBay hc t)) (fun t ht => shut_closeBay ht)
    (fun c t hc ht => ht.beside (.closeBay hc t)) hbays

end Sys2Proof.Proofs.WarmBays

/-! PROOFS. The documents and the drivers at a start that is not cold (R137, R138). -/

namespace Sys2Proof.Proofs.WarmBays

open Sys2Proof Sys2Proof.Machine Sys2Proof.Laws.Basic Sys2Proof.Proofs.Valves Sys2Proof.Proofs.Telling

variable {b c : Bay} {s t : State}

/-! ## A table in which every entry belongs to one bay at most -/

section
variable {α : Type} {f : Bay → State → State} {table : State → List α} {g : Bay → BayUnit → α → α} {place : α → Option Bay}

/-- A pass in which every turn changes the table by its own bay. -/
theorem table_foldl (hturn : ∀ b t, table (f b t) = (table t).map (g b (t.bay b)))
    (hne : ∀ b c t, b ≠ c → (f b t).bay c = t.bay c) {l : List Bay} (hl : l.Nodup) (s : State) :
    table (l.foldl (fun t b => f b t) s) = (table s).map fun x => l.foldl (fun x b => g b (s.bay b) x) x := by
  induction l generalizing s with
  | nil => exact (List.map_id _).symm
  | cons c l ih =>
    obtain ⟨hc, hl⟩ := List.nodup_cons.1 hl
    rw [List.foldl_cons, ih hl, hturn, List.map_map]
    refine List.map_congr_left fun x _ => ?_
    simp only [Function.comp_apply, List.foldl_cons]
    have hbays (b : Bay) (hb : b ∈ l) (x : α) : g b ((f c s).bay b) x = g b (s.bay b) x := by
      rw [hne c b s fun e => hc (e ▸ hb)]
    exact List.foldl_ext _ _ _ fun x b hb => hbays b hb x

/-- Of the turns only that of the entry's bay reaches it. -/
theorem foldl_at {g : Bay → α → α} (hother : ∀ b x, place x ≠ some b → g b x = x)
    (hfree : ∀ b x, place (g b x) = place x ∨ place (g b x) = none) {l : List Bay} (hl : l.Nodup) (x : α) :
    (∀ b ∈ l, place x = some b → l.foldl (fun x b => g b x) x = g b x) ∧
      ((∀ b ∈ l, place x ≠ some b) → l.foldl (fun x b => g b x) x = x) := by
  induction l generalizing x with
  | nil => exact ⟨nofun, fun _ => rfl⟩
  | cons c l ih =>
    obtain ⟨hc, hnodup⟩ := List.nodup_cons.1 hl
    refine ⟨fun b hb hx => ?_, fun h => ?_⟩
    · rw [List.foldl_cons]
      rcases List.mem_cons.1 hb with rfl | hb
      · refine (ih hnodup (g b x)).2 fun d hd hplace => ?_
        rcases hfree b x with h | h
        · exact hc (Option.some.inj ((hplace.symm.trans h).trans hx) ▸ hd)
        · exact nomatch hplace.symm.trans h
      · rw [hother c x fun e => hc (Option.some.inj (e.symm.trans hx) ▸ hb)]
        exact (ih hnodup x).1 b hb hx
    · rw [List.foldl_cons, hother c x (h c List.mem_cons_self)]
      exact (ih hnodup x).2 fun b hb => h b (List.mem_cons_of_mem _ hb)

theorem table_forBays (hturn : ∀ b t, table (f b t) = (table t).map (g b (t.bay b)))
    (hne : ∀ b c t, b ≠ c → (f b t).bay c = t.bay c) (hother : ∀ b u x, place x ≠ some b → g b u x = x)
    (hfree : ∀ b u x, place (g b u x) = place x ∨ place (g b u x) = none) (s : State) :
    table (forBays f s) = (table s).map fun x => (place x).elim x fun b => g b (s.bay b) x := by
  have hl : allBays.Nodup := by decide
  refine (table_foldl hturn hne hl s).trans (List.map_congr_left fun x _ => ?_)
  obtain ⟨hat, hnone⟩ := foldl_at (g := fun b => g b (s.bay b)) (fun b => hother b _) (fun b => hfree b _) hl x
  rcases hx : place x with _ | b
  · exact hnone fun b _ => by rw [hx]; nofun
  · exact hat b (mem_allBays b) hx

end

/-! ## Documents and drivers -/

def placeDoc (x : Doc) : Option Bay := match x.state with
  | .BOUND b => some b
  | _ => none

def placeDriver (x : Driver) : Option Bay := match x.status with
  | .AT_BAY b => some b
  | _ => none

theorem placeDoc_bound {x : Doc} (h : x.state = .BOUND b) : placeDoc x = some b := by unfold placeDoc; rw [h]
theorem placeDriver_atBay {x : Driver} (h : x.status = .AT_BAY b) : placeDriver x = some b := by unfold placeDriver; rw [h]

/-- The turn of a bay that frees its document, or does not. -/
def docTurn (frees : BayUnit → Bool) (b : Bay) (u : BayUnit) (x : Doc) : Doc :=
  if frees u then unboundDoc b u.doc x else x

def driverTurn (frees : BayUnit → Bool) (b : Bay) (u : BayUnit) (x : Driver) : Driver :=
  if frees u then unboundDriver b u.driver x else x

variable {frees : BayUnit → Bool} {u : BayUnit}

theorem docTurn_other (x : Doc) (h : placeDoc x ≠ some b) : docTurn frees b u x = x := by
  unfold docTurn unboundDoc
  rw [if_neg (c := _ ∧ _) fun hx => h (placeDoc_bound hx.2), ite_self]

theorem driverTurn_other (x : Driver) (h : placeDriver x ≠ some b) : driverTurn frees b u x = x := by
  unfold driverTurn unboundDriver
  rw [if_neg (c := _ ∧ _) fun hx => h (placeDriver_atBay hx.2), ite_self]

theorem placeDoc_turn (x : Doc) : placeDoc (docTurn frees b u x) = placeDoc x ∨ placeDoc (docTurn frees b u x) = none := by
  unfold docTurn unboundDoc
  split
  · split
    · exact .inr rfl
    · exact .inl rfl
  · exact .inl rfl

theorem placeDriver_turn (x : Driver) :
    placeDriver (driverTurn frees b u x) = placeDriver x ∨ placeDriver (driverTurn frees b u x) = none := by
  unfold driverTurn unboundDriver
  split
  · split
    · exact .inr rfl
    · exact .inl rfl
  · exact .inl rfl

/-- What a pass of turns reads and changes of the tables. -/
structure Frees (frees : BayUnit → Bool) (f : Bay → State → State) : Prop where
  docs : ∀ b t, (f b t).cp.docs = t.cp.docs.map (docTurn frees b (t.bay b))
  drivers : ∀ b t, (f b t).dt.drivers = t.dt.drivers.map (driverTurn frees b (t.bay b))
  bay : ∀ b c t, b ≠ c → (f b t).bay c = t.bay c

theorem Frees.docs_forBays {f : Bay → State → State} (h : Frees frees f) (s : State) :
    (forBays f s).cp.docs = s.cp.docs.map fun x => (placeDoc x).elim x fun b => docTurn frees b (s.bay b) x :=
  table_forBays (table := fun t => t.cp.docs) h.docs h.bay (fun _ _ => docTurn_other) (fun _ _ => placeDoc_turn) s

theorem Frees.drivers_forBays {f : Bay → State → State} (h : Frees frees f) (s : State) :
    (forBays f s).dt.drivers = s.dt.drivers.map fun x => (placeDriver x).elim x fun b => driverTurn frees b (s.bay b) x :=
  table_forBays (table := fun t => t.dt.drivers) h.drivers h.bay (fun _ _ => driverTurn_other) (fun _ _ => placeDriver_turn) s

/-! ## The two passes of a start -/

/-- A bay with nothing loaded gives up its bindings (R137). -/
def freesAtRestart (u : BayUnit) : Bool := match u.state with
  | .ASSIGNED | .HELD => !u.anyLoaded
  | _ => false

/-- A held bay gives them up where it is closed (R138). -/
def freesAtClose (u : BayUnit) : Bool := u.state == .HELD

/-- A turn that only changes the bay frees nothing, a turn with the unbinds frees both. -/
theorem turn_of_kept {p : State} (hcp : p.cp = s.cp) (hdt : p.dt = s.dt) (h : frees u = false) :
    p.cp.docs = s.cp.docs.map (docTurn frees b u) ∧ p.dt.drivers = s.dt.drivers.map (driverTurn frees b u) := by
  have hdoc (x : Doc) : docTurn frees b u x = x := if_neg (by rw [h]; exact Bool.false_ne_true)
  have hdriver (x : Driver) : driverTurn frees b u x = x := if_neg (by rw [h]; exact Bool.false_ne_true)
  rw [hcp, hdt, funext hdoc, funext hdriver]
  exact ⟨(List.map_id' _).symm, (List.map_id' _).symm⟩

theorem turn_of_unbound {p q : State} (hcp : p.cp = (unbindBay b q).cp) (hdt : p.dt = (unbindBay b q).dt)
    (hqcp : q.cp = s.cp) (hqdt : q.dt = s.dt) (hdoc : (q.bay b).doc = u.doc) (hdriver : (q.bay b).driver = u.driver)
    (h : frees u = true) :
    p.cp.docs = s.cp.docs.map (docTurn frees b u) ∧ p.dt.drivers = s.dt.drivers.map (driverTurn frees b u) := by
  have hdocs (x : Doc) : docTurn frees b u x = unboundDoc b u.doc x := if_pos h
  have hdrivers (x : Driver) : driverTurn frees b u x = unboundDriver b u.driver x := if_pos h
  rw [hcp, hdt, docs_unbindBay, drivers_unbindBay, hqcp, hqdt, hdoc, hdriver, funext hdocs, funext hdrivers]
  exact ⟨rfl, rfl⟩

theorem cp_changeBay (b : Bay) (r : String) (l : Bool) (o : NoticeOrder) (f : BayUnit → BayUnit) (s : State) :
    (changeBay b r l o f s).cp = s.cp ∧ (changeBay b r l o f s).dt = s.dt := by
  rw [changeBay_frame]
  exact ⟨rfl, rfl⟩

theorem restartBay_turn (b : Bay) (s : State) :
    (restartBay b s).cp.docs = s.cp.docs.map (docTurn freesAtRestart b (s.bay b)) ∧
      (restartBay b s).dt.drivers = s.dt.drivers.map (driverTurn freesAtRestart b (s.bay b)) := by
  have hwarm : (s.modBay b BayUnit.warm).bay b = (s.bay b).warm := State.bay_modBay_self ..
  have hcp : (s.modBay b BayUnit.warm).cp = s.cp := rfl
  have hdt : (s.modBay b BayUnit.warm).dt = s.dt := rfl
  have hloaded : (s.bay b).warm.anyLoaded = (s.bay b).anyLoaded := rfl
  unfold restartBay
  dsimp only
  generalize s.modBay b BayUnit.warm = p at *
  have kept {l : Bool} {o : NoticeOrder} {f : BayUnit → BayUnit} (h : freesAtRestart (s.bay b) = false) :=
    turn_of_kept (b := b) (((cp_changeBay b "RESTART" l o f p).1).trans hcp) (((cp_changeBay b "RESTART" l o f p).2).trans hdt) h
  have unbound {l : Bool} {o : NoticeOrder} {f : BayUnit → BayUnit} (h : freesAtRestart (s.bay b) = true) :=
    turn_of_unbound (cp_changeBay b "RESTART" l o f (unbindBay b p)).1 (cp_changeBay b "RESTART" l o f (unbindBay b p)).2 hcp hdt
      (u := s.bay b) (by rw [hwarm]; rfl) (by rw [hwarm]; rfl) h
  rw [hwarm, hloaded, show (s.bay b).warm.state = (s.bay b).state from rfl]
  have hfrees : freesAtRestart (s.bay b) = match (s.bay b).state with
    | .ASSIGNED | .HELD => !(s.bay b).anyLoaded
    | _ => false := rfl
  cases hstate : (s.bay b).state <;> rw [hstate] at hfrees
  case ASSIGNED =>
    dsimp only
    split
    · exact kept (by rw [hfrees]; simp [*])
    · exact unbound (by rw [hfrees]; simp [*])
  case HELD =>
    dsimp only
    split
    · exact kept (by rw [hfrees]; simp [*])
    · exact unbound (by rw [hfrees]; simp [*])
  case CLOSED => exact turn_of_kept hcp hdt hfrees
  case IDLE => exact turn_of_kept hcp hdt hfrees
  all_goals exact kept hfrees

theorem closeBay_turn (b : Bay) (s : State) :
    (closeBay b s).cp.docs = s.cp.docs.map (docTurn freesAtClose b (s.bay b)) ∧
      (closeBay b s).dt.drivers = s.dt.drivers.map (driverTurn freesAtClose b (s.bay b)) := by
  unfold closeBay vacateBay
  have hfrees : freesAtClose (s.bay b) = ((s.bay b).state == .HELD) := rfl
  split
  · rename_i h
    exact turn_of_kept rfl rfl (by rw [hfrees, h]; rfl)
  · rename_i h
    exact turn_of_unbound (cp_changeBay ..).1 (cp_changeBay ..).2 rfl rfl rfl rfl (by rw [hfrees, h]; rfl)
  · rename_i h
    exact turn_of_kept (cp_changeBay ..).1 (cp_changeBay ..).2 (by rw [hfrees]; exact beq_false_of_ne h)

theorem frees_restartBay : Frees freesAtRestart restartBay :=
  ⟨fun b t => (restartBay_turn b t).1, fun b t => (restartBay_turn b t).2, fun _ _ t h => bay_restartBay_ne h t⟩

theorem frees_closeBay : Frees freesAtClose closeBay :=
  ⟨fun b t => (closeBay_turn b t).1, fun b t => (closeBay_turn b t).2, fun _ _ t h => Bindings.bay_closeBay_ne h t⟩

end Sys2Proof.Proofs.WarmBays

/-! PROOFS. The tables after a start that is not cold (R64, R107, R137, R138). -/

namespace Sys2Proof.Proofs.WarmBays

open Sys2Proof Sys2Proof.Machine Sys2Proof.Laws.Basic Sys2Proof.Proofs.Valves Sys2Proof.Proofs.Telling

variable {b : Bay} {s t : State}

/-- A bay is held after its turn exactly when only a closing frees it. -/
theorem restartedUnit_held_iff (s : State) (b : Bay) : freesAtClose (restartedUnit s b) =
    (startFrees false (s.bay b) && !freesAtRestart (s.bay b)) := by
  have hloaded : (s.bay b).warm.anyLoaded = (s.bay b).anyLoaded := rfl
  unfold freesAtClose freesAtRestart startFrees restartedUnit
  dsimp only
  rw [hloaded, show (s.bay b).warm.state = (s.bay b).state from rfl]
  cases hstate : (s.bay b).state
  case ASSIGNED => cases (s.bay b).anyLoaded <;> rfl
  case HELD => cases (s.bay b).anyLoaded <;> rfl
  case CLOSED =>
    dsimp only
    rw [show (s.bay b).warm.state = (s.bay b).state from rfl, hstate]
    rfl
  case IDLE =>
    dsimp only
    rw [show (s.bay b).warm.state = (s.bay b).state from rfl, hstate]
    rfl
  all_goals rfl

theorem startFrees_good (u : BayUnit) : startFrees true u = freesAtRestart u := by
  unfold startFrees freesAtRestart
  cases u.state <;> rfl

theorem freesAtRestart_le {u : BayUnit} (h : freesAtRestart u = true) : startFrees false u = true := by
  unfold freesAtRestart at h
  unfold startFrees
  cases hstate : u.state <;> rw [hstate] at h
  case ASSIGNED => rfl
  case HELD => rfl
  all_goals exact nomatch h

/-- The two turns of a bay free what the start frees. -/
theorem docTurn_twice (s : State) (b : Bay) (x : Doc) :
    docTurn freesAtClose b (restartedUnit s b) (docTurn freesAtRestart b (s.bay b) x) =
      docTurn (startFrees false) b (s.bay b) x := by
  have hheld := restartedUnit_held_iff s b
  unfold docTurn
  cases hfirst : freesAtRestart (s.bay b)
  · rw [hheld, hfirst]
    cases hstart : startFrees false (s.bay b)
    · rfl
    · obtain ⟨hdoc, -, -⟩ := restartedUnit_held (s := s) (b := b) (by
        rw [hfirst, hstart] at hheld
        exact eq_of_beq hheld)
      rw [hdoc]
      rfl
  · rw [hheld, hfirst, freesAtRestart_le hfirst]
    rfl

theorem driverTurn_twice (s : State) (b : Bay) (x : Driver) :
    driverTurn freesAtClose b (restartedUnit s b) (driverTurn freesAtRestart b (s.bay b) x) =
      driverTurn (startFrees false) b (s.bay b) x := by
  have hheld := restartedUnit_held_iff s b
  unfold driverTurn
  cases hfirst : freesAtRestart (s.bay b)
  · rw [hheld, hfirst]
    cases hstart : startFrees false (s.bay b)
    · rfl
    · obtain ⟨-, hdriver, -⟩ := restartedUnit_held (s := s) (b := b) (by
        rw [hfirst, hstart] at hheld
        exact eq_of_beq hheld)
      rw [hdriver]
      rfl
  · rw [hheld, hfirst, freesAtRestart_le hfirst]
    rfl

/-- An entry after a start: freed by its bay, or as it was. -/
def startedDoc (good : Bool) (s : State) (x : Doc) : Doc :=
  (placeDoc x).elim x fun b => docTurn (startFrees good) b (s.bay b) x

def startedDriver (good : Bool) (s : State) (x : Driver) : Driver :=
  (placeDriver x).elim x fun b => driverTurn (startFrees good) b (s.bay b) x

/-- Two turns of the entry's bay that come to one. -/
theorem place_twice {α : Type} {place : α → Option Bay} {g₁ g₂ g : Bay → α → α}
    (hother : ∀ b x, place x ≠ some b → g₂ b x = x) (hfree : ∀ b x, place (g₁ b x) = place x ∨ place (g₁ b x) = none)
    (htwice : ∀ b x, g₂ b (g₁ b x) = g b x) (x : α) :
    ((place ((place x).elim x fun b => g₁ b x)).elim ((place x).elim x fun b => g₁ b x)
      fun b => g₂ b ((place x).elim x fun b => g₁ b x)) = (place x).elim x fun b => g b x := by
  rcases hx : place x with _ | b
  · simp only [Option.elim_none, hx]
  · simp only [Option.elim_some]
    rcases hfree b x with h | h
    · rw [h, hx]
      exact htwice b x
    · rw [h, Option.elim_none, ← htwice b x, hother b _ (by rw [h]; nofun)]

/-- The tables after the turns of the bays. -/
theorem tables_restartBays (s : State) :
    (restartBays s).cp.docs = s.cp.docs.map (startedDoc (!s.st.defaults) s) ∧
      (restartBays s).dt.drivers = s.dt.drivers.map (startedDriver (!s.st.defaults) s) := by
  have hturned (b : Bay) := turned_forBays b s
  have hdocs := frees_restartBay.docs_forBays s
  have hdrivers := frees_restartBay.drivers_forBays s
  have hst := (hturned 0).st
  unfold restartBays
  dsimp only
  generalize forBays restartBay s = p at *
  rw [hst]
  cases s.st.defaults
  · rw [if_neg Bool.false_ne_true, hdocs, hdrivers]
    unfold startedDoc startedDriver
    rw [show startFrees (!false) = freesAtRestart from funext startFrees_good]
    exact ⟨rfl, rfl⟩
  · rw [if_pos rfl, frees_closeBay.docs_forBays, frees_closeBay.drivers_forBays, hdocs, hdrivers, List.map_map, List.map_map]
    simp only [(hturned _).bay]
    refine ⟨List.map_congr_left fun x _ => ?_, List.map_congr_left fun x _ => ?_⟩
    · exact place_twice (fun _ => docTurn_other) (fun _ => placeDoc_turn) (docTurn_twice s) x
    · exact place_twice (fun _ => driverTurn_other) (fun _ => placeDriver_turn) (driverTurn_twice s) x

end Sys2Proof.Proofs.WarmBays

/-! PROOFS. What a bay becomes at a start that is not cold (R137, R138, R157). -/

namespace Sys2Proof.Proofs.WarmBays

open Sys2Proof Sys2Proof.Machine Sys2Proof.Laws.Basic Sys2Proof.Proofs.Valves Sys2Proof.Proofs.Telling

variable {b : Bay} {s t p : State} {u : BayUnit} {r : Bool}

/-! ## The turn of a bay by the state it held -/

theorem restartedUnit_vacant (hbay : p.bay b = { u with release := r }) (h : u.state = .CLOSED ∨ u.state = .IDLE) :
    restartedUnit p b = u.warm := by
  unfold restartedUnit
  rw [hbay]
  dsimp only [BayUnit.warm]
  rcases h with h | h <;> rw [h]

theorem restartedUnit_dispatched (hbay : p.bay b = { u with release := r }) (h : u.state = .DISPATCHED) :
    restartedUnit p b = u.warm.empty .IDLE := by
  unfold restartedUnit
  rw [hbay]
  dsimp only [BayUnit.warm]
  rw [h]

theorem restartedUnit_dispatching (hbay : p.bay b = { u with release := r }) (h : u.state = .DISPATCHING) :
    restartedUnit p b = u.warm.keep := by
  unfold restartedUnit
  rw [hbay]
  dsimp only [BayUnit.warm]
  rw [h]

theorem restartedUnit_assigned (hbay : p.bay b = { u with release := r }) (h : u.state = .ASSIGNED ∨ u.state = .HELD) :
    restartedUnit p b = if u.anyLoaded then u.warm.keep else u.warm.empty .IDLE := by
  unfold restartedUnit
  rw [hbay]
  dsimp only [BayUnit.warm]
  rcases h with h | h
  · rw [h]
    rfl
  · rw [h]
    rfl

theorem restartedUnit_flowing (hbay : p.bay b = { u with release := r })
    (h : u.state = .LOADING ∨ u.state = .PAUSED ∨ u.state = .FINISHING) :
    restartedUnit p b = (u.warm.endWithout p b).keep := by
  unfold restartedUnit
  rw [hbay]
  dsimp only [BayUnit.warm]
  rcases h with h | h | h <;> rw [h]

/-- An active line is ended by the settings in force and the document line read, its pending weight dropped. -/
theorem endWithout_of_read {cx : Ctx} {d : DocLine} (hctx : u.ctx = some cx)
    (hread : lineRead p (p.bay b).doc b cx.comp = some d) :
    u.endWithout p b = { u with
      lines := endedLines p.st.applied b cx d u.lines
      holds := BayLines.matchedHolds u.holds (endedLines p.st.applied b cx d u.lines)
      ctx := none } := by
  have hlines : (u.lines.map fun l => if l.comp = cx.comp then reconcileLine false p b { l with pend := 0 } else l) =
      endedLines p.st.applied b cx d u.lines := by
    refine List.map_congr_left fun l _ => ?_
    split
    · rename_i hl
      unfold reconcileLine
      rw [show ({ l with pend := 0 } : LineRec).comp = cx.comp from hl, hread]
      rfl
    · rfl
  unfold BayUnit.endWithout
  rw [hctx]
  dsimp only
  rw [BayLines.modLine_lines, BayLines.matchHolds_eq, hlines]

/-! ## Before and after the turns -/

/-- What the start has made of the state before the bays have their turns. -/
structure Restarting (e : StartEnv) (s p : State) : Prop where
  bay : ∀ b, ∃ r, p.bay b = { s.bay b with release := r }
  docs : p.cp.docs = s.cp.docs
  staging : p.cp.staging = none
  dt : p.dt = s.dt.warm
  st : p.st = s.st.started e.settingsGood
  dl : p.dl = s.dl.started false e

theorem Restarting.reads {e : StartEnv} (h : Restarting e s p) (d : Option String) (k : Nat) :
    lineRead p d b k = lineRead s d b k := by
  simp only [lineRead, State.docOf, h.docs]

/-- CK, and DT but for its drivers. -/
def aside (s : State) : Ck × Dt := (s.ck, { s.dt with drivers := [] })

theorem aside_changeBay (b : Bay) (r : String) (l : Bool) (o : NoticeOrder) (f : BayUnit → BayUnit) (s : State) :
    aside (changeBay b r l o f s) = aside s := by
  unfold aside
  rw [changeBay_frame]

theorem aside_unbindBay (b : Bay) (s : State) : aside (unbindBay b s) = aside s := by
  unfold aside
  rw [BayLeaving.unbindBay_frame]

theorem aside_restartBay (b : Bay) (s : State) : aside (restartBay b s) = aside s := by
  have hwarm : aside (s.modBay b BayUnit.warm) = aside s := rfl
  unfold restartBay
  dsimp only
  repeat' split
  all_goals simp only [aside_changeBay, aside_unbindBay, hwarm]

theorem aside_closeBay (b : Bay) (s : State) : aside (closeBay b s) = aside s := by
  unfold closeBay vacateBay
  repeat' split
  all_goals simp only [aside_changeBay, aside_unbindBay]

theorem aside_restartBays (s : State) : aside (restartBays s) = aside s := by
  have hbays := Clearstamp.forBays_keeps aside aside_restartBay s
  unfold restartBays
  dsimp only
  split
  · exact (Clearstamp.forBays_keeps aside aside_closeBay _).trans hbays
  · exact hbays

end Sys2Proof.Proofs.WarmBays

/-! PROOFS. Warm starts, RESET-line starts and device resets over the tables and the bays (R64, R107, R137, R138). -/

namespace Sys2Proof.Proofs.WarmBays

open Sys2Proof Sys2Proof.Machine Sys2Proof.Laws.Basic Sys2Proof.Proofs.Valves Sys2Proof.Proofs.Telling
open Sys2Proof.Proofs.Keeping Sys2Proof.Proofs.Starts Sys2Proof.Proofs.StartTells Sys2Proof.Proofs.LinkRequests

variable {c : Instr} {k : StartKind} {e : StartEnv} {s t p : State}

/-! ## The state before the bays' turns -/

theorem lateClose_frame (old : Ck) (s : State) : lateClose old s = { s with ck := (lateClose old s).ck } := by
  unfold lateClose
  dsimp only
  repeat' split
  all_goals rfl

theorem clockRestore_frame (s : State) :
    clockRestore s = { s with ck := (clockRestore s).ck, dv := (clockRestore s).dv } := by
  unfold clockRestore
  dsimp only
  generalize hraised : raiseIf _ _ _ _ _ = a
  have hframe : a = { s with ck := a.ck, dv := a.dv } := by
    rw [← hraised]
    unfold raiseIf
    split <;> rfl
  have hlate := lateClose_frame s.ck a
  generalize lateClose s.ck a = q at *
  rw [hlate, hframe]
  rfl

theorem bay_lossSeen (s : State) : (∀ b, ∃ r, (lossSeen s).bay b = { s.bay b with release := r }) ∧
    (lossSeen s).cp = s.cp ∧ (lossSeen s).dt = s.dt ∧ (lossSeen s).dl = s.dl := by
  unfold lossSeen
  split
  · unfold supplyLost
    dsimp only
    have hframe (q : State) := StepAndTick.forBays_modBay_frame (fun _ _ x => { x with release := false }) q
    refine ⟨fun b => ⟨false, ?_⟩, ?_, ?_, ?_⟩
    · exact bay_forBays_modBay (g := fun _ _ x => { x with release := false }) fun _ _ => rfl
    · rw [hframe]
      rfl
    · rw [hframe]
      rfl
    · rw [hframe]
      rfl
  · exact ⟨fun b => ⟨(s.bay b).release, rfl⟩, rfl, rfl, rfl⟩

theorem restarting_warmBase (hk : k ≠ .COLD) (e : StartEnv) (s : State) : Restarting e s (warmBase k e s) := by
  have hframe := startCommon_frame k e s
  unfold warmBase
  generalize startCommon k e s = q at hframe
  have hcold : (k == .COLD) = false := beq_false_of_ne hk
  refine ⟨fun b => ⟨(s.bay b).release, ?_⟩, ?_, ?_, rfl, ?_, ?_⟩
  · rw [hframe]
    rfl
  · rw [hframe]
    rfl
  · rw [hframe]
    rfl
  · rw [hframe]
    rfl
  · rw [hframe, ← hcold]
    rfl

theorem restarting_warmClock (hk : k ≠ .COLD) (fromLoss : Bool) (e : StartEnv) (s : State) :
    Restarting e s (warmClock fromLoss (warmBase k e s)) := by
  obtain ⟨hbay, hdocs, hstaging, hdt, hst, hdl⟩ := restarting_warmBase hk e s
  unfold warmClock
  split
  · have hframe := clockRestore_frame (warmBase k e s)
    generalize clockRestore (warmBase k e s) = q at hframe
    rw [hframe]
    exact ⟨hbay, hdocs, hstaging, hdt, hst, hdl⟩
  · exact ⟨hbay, hdocs, hstaging, hdt, hst, hdl⟩

theorem ck_warmClock_kept (k : StartKind) (e : StartEnv) (s : State) :
    (warmClock false (warmBase k e s)).ck = { s.ck with outbox := [] } := by
  have hframe := startCommon_frame k e s
  unfold warmClock warmBase
  generalize startCommon k e s = q at hframe
  rw [hframe]
  rfl

theorem Restarting.seen (h : Restarting e (lossSeen s) p) : Restarting e s p := by
  obtain ⟨hbay, hdocs, hstaging, hdt, hst, hdl⟩ := h
  obtain ⟨sbay, scp, sdt, sdl⟩ := bay_lossSeen s
  refine ⟨fun b => ?_, hdocs.trans (by rw [scp]), hstaging, hdt.trans (by rw [sdt]), hst.trans (by rw [st_lossSeen]),
    hdl.trans (by rw [sdl])⟩
  obtain ⟨r, hr⟩ := hbay b
  obtain ⟨q, hq⟩ := sbay b
  exact ⟨r, by rw [hr, hq]⟩

/-- The row is a start that is not cold, and may act. -/
def IsWarmStart (c : Instr) (e : StartEnv) (s : State) : Prop :=
  c = .warmStart e ∨ (c = .resetLine e ∧ s.supply = true) ∨
    (c = .deviceReset e ∧ s.supply = true ∧ s.dv.resetWait = true ∧ s.dv.replies = [] ∧ s.dv.wire = none)

/-- Such a start restarts the bays from a state with the other parts set. -/
theorem start_restarting (h : IsWarmStart c e s) : ∃ k p Q, exec c s = .next (pump (startPosts k e (restartBays p))) ∧
    Restarting e s p ∧ Left k e s Q (restartBays p) ∧ (c ≠ .warmStart e → p.ck = { s.ck with outbox := [] }) := by
  rcases h with rfl | ⟨rfl, hsupply⟩ | ⟨rfl, hsupply, hready⟩
  · exact ⟨.WARM, _, _, rfl, (restarting_warmClock (k := .WARM) nofun true e (lossSeen s)).seen,
      (left_restartBays .WARM true e (lossSeen s)).1.of_store (st_lossSeen s), fun h => absurd rfl h⟩
  · exact ⟨.WARM, _, _, exec_resetLine e hsupply, restarting_warmClock (k := .WARM) nofun false e s, (left_restartBays .WARM false e s).1,
      fun _ => ck_warmClock_kept .WARM e s⟩
  · exact ⟨.DEVICE, _, _, exec_deviceReset_ready e hsupply ((resetReady_iff s).2 hready),
      restarting_warmClock (k := .DEVICE) nofun false e s, (left_restartBays .DEVICE false e s).1, fun _ => ck_warmClock_kept .DEVICE e s⟩

/-! ## The tables after the start -/

theorem startFrees_congr {good : Bool} {u v : BayUnit} (hstate : u.state = v.state) (hlines : u.lines = v.lines) :
    startFrees good u = startFrees good v := by
  unfold startFrees BayUnit.anyLoaded
  rw [hstate, hlines]

/-- A document bound to a bay is a DRAFT without a stack where the start frees it. -/
theorem startedDoc_bound (h : Restarting e s p) (good : Bool) {x : Doc} {b : Bay} (hx : x.state = .BOUND b) :
    startedDoc good p x = if startFrees good (s.bay b) && (s.bay b).doc == some x.num then
      { x with state := .DRAFT, stack := [] } else x := by
  obtain ⟨r, hr⟩ := h.bay b
  have hfrees : startFrees good (p.bay b) = startFrees good (s.bay b) := startFrees_congr (by rw [hr]) (by rw [hr])
  unfold startedDoc docTurn unboundDoc
  rw [placeDoc_bound hx, Option.elim_some, hfrees, hr]
  cases startFrees good (s.bay b)
  · rfl
  · simp only [if_true, hx, and_true, Bool.true_and, beq_iff_eq]

theorem startedDoc_unbound (good : Bool) (p : State) {x : Doc} (hx : ∀ b, x.state ≠ .BOUND b) : startedDoc good p x = x := by
  unfold startedDoc placeDoc
  split
  · exact absurd ‹_› (hx _)
  · rfl

/-- A driver at a bay is ON_SITE where the start frees it. -/
theorem startedDriver_atBay (h : Restarting e s p) (good : Bool) {x : Driver} {b : Bay} (hx : x.status = .AT_BAY b)
    (hpend : x.pend = false) :
    startedDriver good p x = { x with
      status := if startFrees good (s.bay b) && (s.bay b).driver == some x.num then .ON_SITE else .AT_BAY b } := by
  obtain ⟨r, hr⟩ := h.bay b
  have hfrees : startFrees good (p.bay b) = startFrees good (s.bay b) := startFrees_congr (by rw [hr]) (by rw [hr])
  unfold startedDriver driverTurn unboundDriver
  rw [placeDriver_atBay hx, Option.elim_some, hfrees, hr]
  cases startFrees good (s.bay b)
  · simp [← hx]
  · by_cases hnum : (s.bay b).driver = some x.num
    · simp [hx, hnum, ← hpend]
    · simp [← hx, hnum]

theorem startedDriver_away (good : Bool) (p : State) {x : Driver} (hx : ∀ b, x.status ≠ .AT_BAY b) :
    startedDriver good p x = x := by
  unfold startedDriver placeDriver
  split
  · exact absurd ‹_› (hx _)
  · rfl

end Sys2Proof.Proofs.WarmBays

/-! PROOFS. What a start that is not cold keeps of the units, and each bay by the state it held (R64, R107, R137, R138). -/

namespace Sys2Proof.Proofs.WarmBays

open Sys2Proof Sys2Proof.Machine Sys2Proof.Laws.Basic Sys2Proof.Proofs.Valves Sys2Proof.Proofs.Telling
open Sys2Proof.Proofs.Keeping Sys2Proof.Proofs.Starts Sys2Proof.Proofs.StartTells Sys2Proof.Proofs.LinkRequests

variable {c : Instr} {k : StartKind} {e : StartEnv} {s t p : State}

/-! ## The units after the start -/

/-- The posts and the transmitter leave the tables and the settings; CK stands as the bays found it. -/
theorem units_started (h : Restarting e s p) : let t := pump (startPosts k e (restartBays p))
    t.dt = { s.dt.warm with drivers := s.dt.warm.drivers.map (startedDriver (s.st.storeGood && e.settingsGood) p) } ∧
    t.cp = ⟨s.cp.docs.map (startedDoc (s.st.storeGood && e.settingsGood) p), none⟩ ∧
    t.ck = p.ck ∧ t.st = s.st.started e.settingsGood ∧
    (∀ b, t.bay b = (restartBays p).bay b) ∧ t.dl = { s.dl.started false e with queue := t.dl.queue } := by
  dsimp only
  have hframe := startPosts_frame k e (restartBays p)
  have htells := Tells.restartBays p
  have haside := aside_restartBays p
  obtain ⟨hdocs, hdrivers⟩ := tables_restartBays p
  obtain ⟨-, sdocs, sstaging, sdt, sst, sdl⟩ := h
  generalize restartBays p = q at *
  have hgood : (!p.st.defaults) = (s.st.storeGood && e.settingsGood) := by rw [sst]; exact Bool.not_not _
  have hcp : q.cp = ⟨s.cp.docs.map (startedDoc (s.st.storeGood && e.settingsGood) p), none⟩ := by
    rw [← sdocs, ← hgood, ← hdocs, ← sstaging, ← htells.staging]
  have hdt : q.dt =
      { s.dt.warm with drivers := s.dt.warm.drivers.map (startedDriver (s.st.storeGood && e.settingsGood) p) } := by
    have hrest : { q.dt with drivers := [] } = { p.dt with drivers := [] } := congrArg Prod.snd haside
    rw [← sdt, ← hgood, ← hdrivers]
    exact congrArg (fun d : Dt => { d with drivers := q.dt.drivers }) hrest
  have hdl : (pump (startPosts k e q)).dl =
      { s.dl.started false e with queue := (startPosts k e q).dl.queue } := by
    rw [dl_pump, dl_startPosts, htells.dl, sdl]
  refine ⟨?_, ?_, ?_, ?_, fun b => ?_, hdl.trans (by rw [dl_pump])⟩
  · rw [dt_pump, hframe]
    exact hdt
  · rw [cp_pump, hframe]
    exact hcp
  · rw [ck_pump, hframe]
    exact congrArg Prod.fst haside
  · rw [st_pump, hframe]
    exact htells.st.trans sst
  · rw [bay_pump, hframe]
    rfl

/-- A start that is not cold keeps the counts, the high mark, and the segments where nothing is cut off (R192). -/
theorem log_started (e : StartEnv) (d : Dl) : (d.started false e).day = d.day ∧ (d.started false e).highMark = d.highMark ∧
    (d.writing = none → d.scan = false → (d.started false e).segs = d.segs) := by
  have happend := Laws.Log.cutAppend_frame e.cut d
  have hscan := Laws.Log.cutScan_frame e.wrote (cutAppend e.cut d)
  refine ⟨?_, ?_, fun hw hs => ?_⟩
  · show (cutScan e.wrote (cutAppend e.cut d)).day = d.day
    rw [hscan, happend]
  · show (cutScan e.wrote (cutAppend e.cut d)).highMark = d.highMark
    rw [hscan, happend]
  · show (cutScan e.wrote (cutAppend e.cut d)).segs = d.segs
    rw [Laws.Log.cutAppend_idle _ _ hw, Laws.Log.cutScan_idle _ _ hs]

/-! ## A bay after the start -/

variable {b : Bay}

/-- The CANCEL record of a bay closed by a start, read before it. -/
theorem Vacated.record {w v : BayUnit} (hv : Vacated p b w v) (h : Restarting e s p) (hck : t.ck = p.ck) (d : String) (n : Nat)
    (hd : w.doc = some d) (hn : w.driver = some n) : v.outbox = w.outbox ++ if w.lines.any (·.loaded) then
      [⟨t.stamp, .CANCEL ⟨b, d, n, .RESET, (w.lines.filter (·.loaded)).map (cancelItem s b)⟩⟩] else [] := by
  obtain ⟨r, hr⟩ := h.bay b
  have hitem : cancelItem p b = cancelItem s b :=
    funext (cancelItem_congr (by rw [hr]) h.reads)
  rw [stamp_congr hck, ← hitem]
  exact hv.2 d n hd hn

/-- A bay whose active line the start ends. -/
theorem restartedUnit_ended (h : Restarting e s p) {r : Bool} (hr : p.bay b = { s.bay b with release := r })
    (hstate : (s.bay b).state = .LOADING ∨ (s.bay b).state = .PAUSED ∨ (s.bay b).state = .FINISHING) {cx : Ctx} {d : DocLine}
    (hctx : (s.bay b).ctx = some cx) (hread : lineRead s (s.bay b).doc b cx.comp = some d) :
    restartedUnit p b = ({ (s.bay b).warm with
      lines := endedLines (s.st.started e.settingsGood).applied b cx d (s.bay b).lines
      holds := BayLines.matchedHolds (s.bay b).holds (endedLines (s.st.started e.settingsGood).applied b cx d (s.bay b).lines)
      ctx := none } : BayUnit).keep := by
  rw [restartedUnit_flowing hr hstate, endWithout_of_read (u := (s.bay b).warm) hctx (by rw [h.reads, hr]; exact hread), h.st]
  rfl

end Sys2Proof.Proofs.WarmBays

/-! PROOFS. Each bay after a start that is not cold, by the state it held (R137, R138, R157). -/

namespace Sys2Proof.Proofs.WarmBays

open Sys2Proof Sys2Proof.Machine Sys2Proof.Laws.Basic Sys2Proof.Proofs.Valves Sys2Proof.Proofs.Telling
open Sys2Proof.Proofs.Keeping Sys2Proof.Proofs.Starts Sys2Proof.Proofs.StartTells Sys2Proof.Proofs.LinkRequests

variable {c : Instr} {k : StartKind} {e : StartEnv} {s t p : State} {b : Bay}

/-- The start found the settings good. -/
abbrev foundGood (e : StartEnv) (s : State) : Bool := s.st.storeGood && e.settingsGood

/-- A bay after a start: as its turn left it, or closed. -/
structure Fate (e : StartEnv) (s p t : State) (b : Bay) : Prop where
  told : ChangeTold b "RESTART" (s.bay b) (t.bay b) (noticesOut t)
  good : foundGood e s = true → t.bay b = restartedUnit p b
  bad : foundGood e s = false → Shut b p (restartedUnit p b) (restartBays p)
  bay : t.bay b = (restartBays p).bay b
  ck : t.ck = p.ck

theorem fate_started {Q : UnitName × NKind → Prop} (h : Restarting e s p) (hleft : Left k e s Q (restartBays p)) (b : Bay) :
    Fate e s p (pump (startPosts k e (restartBays p))) b := by
  obtain ⟨-, -, hck, -, hbay, -⟩ := units_started (k := k) h
  obtain ⟨-, -, -, -, hsent, -⟩ := hleft.sent
  obtain ⟨r, hr⟩ := h.bay b
  have hdefaults : p.st.defaults = !foundGood e s := by rw [h.st]; rfl
  have htold : ChangeTold b "RESTART" (p.bay b) ((restartBays p).bay b) (restartBays p).dv.notices := by
    cases hd : p.st.defaults
    · have hturned := turned_restartBays b hd
      rw [hturned.bay]
      exact hturned.told
    · exact (shut_restartBays b hd).told
  refine ⟨?_, fun hgood => ?_, fun hbad => shut_restartBays b (by rw [hdefaults, hbad]; rfl), hbay b, hck⟩
  · rw [hsent, hbay]
    rw [hr] at htold
    exact htold
  · rw [hbay]
    exact (turned_restartBays b (by rw [hdefaults, hgood]; rfl)).bay

/-- A bay that a start closed, and its CANCEL record of these lines, read before the start. -/
def Vacates (s t : State) (b : Bay) (ls : List LineRec) : Prop :=
  t.bay b = { (s.bay b).warm.empty .CLOSED with outbox := (t.bay b).outbox } ∧
    ∀ d n, (s.bay b).doc = some d → (s.bay b).driver = some n →
      (t.bay b).outbox = (s.bay b).warm.outbox ++ if ls.any (·.loaded) then
        [⟨t.stamp, .CANCEL ⟨b, d, n, .RESET, (ls.filter (·.loaded)).map (cancelItem s b)⟩⟩] else []

/-- A bay that its turn left held, and the closing found so. -/
theorem Fate.held (h : Fate e s p t b) (hbefore : Restarting e s p) {ls : List LineRec} {hs : Holds} {cx : Option Ctx}
    (hw : restartedUnit p b = ({ (s.bay b).warm with lines := ls, holds := hs, ctx := cx } : BayUnit).keep) :
    (foundGood e s = true → t.bay b = ({ (s.bay b).warm with lines := ls, holds := hs, ctx := cx } : BayUnit).keep) ∧
      (foundGood e s = false → Vacates s t b ls) := by
  refine ⟨fun hgood => (h.good hgood).trans hw, fun hbad => ?_⟩
  have hvacated := (h.bad hbad).held (by rw [hw]; rfl)
  rw [hw, ← h.bay] at hvacated
  exact ⟨hvacated.1, hvacated.record hbefore h.ck⟩

/-- A bay that its turn left IDLE, and the closing closed. -/
theorem Fate.idle (h : Fate e s p t b) {w : BayUnit} (hw : restartedUnit p b = w) (hstate : w.state = .IDLE) :
    t.bay b = { w with state := if foundGood e s then .IDLE else .CLOSED } := by
  cases hgood : foundGood e s
  · have hidle := (h.bad hgood).idle (by rw [hw]; exact hstate)
    rw [← h.bay, hw] at hidle
    exact hidle
  · rw [h.good hgood, hw, if_pos rfl, ← hstate]

theorem Fate.closed (h : Fate e s p t b) {w : BayUnit} (hw : restartedUnit p b = w) (hstate : w.state = .CLOSED) :
    t.bay b = w := by
  cases hgood : foundGood e s
  · have hclosed := (h.bad hgood).closed (by rw [hw]; exact hstate)
    rw [← h.bay, hw] at hclosed
    exact hclosed
  · rw [h.good hgood, hw]

/-! ## The bay by the state it held -/

variable (h : Fate e s p t b) (hbefore : Restarting e s p)
include h hbefore

theorem Fate.of_closed (hstate : (s.bay b).state = .CLOSED) : t.bay b = { (s.bay b).warm with state := .CLOSED } := by
  obtain ⟨r, hr⟩ := hbefore.bay b
  rw [h.closed (restartedUnit_vacant hr (.inl hstate)) hstate, ← hstate]
  rfl

theorem Fate.of_idle (hstate : (s.bay b).state = .IDLE) :
    t.bay b = { (s.bay b).warm with state := if foundGood e s then .IDLE else .CLOSED } := by
  obtain ⟨r, hr⟩ := hbefore.bay b
  exact h.idle (restartedUnit_vacant hr (.inr hstate)) hstate

theorem Fate.of_dispatched (hstate : (s.bay b).state = .DISPATCHED) :
    t.bay b = (s.bay b).warm.empty (if foundGood e s then .IDLE else .CLOSED) := by
  obtain ⟨r, hr⟩ := hbefore.bay b
  exact h.idle (restartedUnit_dispatched hr hstate) rfl

theorem Fate.of_dispatching (hstate : (s.bay b).state = .DISPATCHING) :
    (foundGood e s = true → t.bay b = (s.bay b).warm.keep) ∧ (foundGood e s = false → Vacates s t b (s.bay b).lines) := by
  obtain ⟨r, hr⟩ := hbefore.bay b
  exact h.held hbefore (ls := (s.bay b).lines) (hs := (s.bay b).holds) (cx := (s.bay b).ctx)
    (restartedUnit_dispatching hr hstate)

theorem Fate.of_assigned (hstate : (s.bay b).state = .ASSIGNED ∨ (s.bay b).state = .HELD) :
    (foundGood e s = true → t.bay b = if (s.bay b).anyLoaded then (s.bay b).warm.keep else (s.bay b).warm.empty .IDLE) ∧
      (foundGood e s = false → Vacates s t b (s.bay b).lines) := by
  obtain ⟨r, hr⟩ := hbefore.bay b
  have hunit := restartedUnit_assigned hr hstate
  cases hloaded : (s.bay b).anyLoaded
  · rw [hloaded, if_neg Bool.false_ne_true] at hunit
    have hidle := h.idle hunit rfl
    refine ⟨fun hgood => ?_, fun hbad => ?_⟩
    · rw [hidle, hgood]
      rfl
    · rw [hbad] at hidle
      unfold Vacates
      rw [show (s.bay b).lines.any (·.loaded) = false from hloaded, hidle]
      exact ⟨rfl, fun _ _ _ _ => (List.append_nil _).symm⟩
  · rw [hloaded, if_pos rfl] at hunit
    exact h.held hbefore (ls := (s.bay b).lines) (hs := (s.bay b).holds) (cx := (s.bay b).ctx) hunit

theorem Fate.of_flowing (hstate : (s.bay b).state = .LOADING ∨ (s.bay b).state = .PAUSED ∨ (s.bay b).state = .FINISHING)
    {cx : Ctx} {d : DocLine} (hctx : (s.bay b).ctx = some cx) (hread : lineRead s (s.bay b).doc b cx.comp = some d) :
    let ls := endedLines (s.st.started e.settingsGood).applied b cx d (s.bay b).lines
    (foundGood e s = true → t.bay b = ({ (s.bay b).warm with
      lines := ls, holds := BayLines.matchedHolds (s.bay b).holds ls, ctx := none } : BayUnit).keep) ∧
      (foundGood e s = false → Vacates s t b ls) := by
  obtain ⟨r, hr⟩ := hbefore.bay b
  exact h.held hbefore (restartedUnit_ended hbefore hr hstate hctx hread)

end Sys2Proof.Proofs.WarmBays

/-! PROOFS. The clock at a warm start from power loss (R30, R33). -/

namespace Sys2Proof.Proofs.LateClose

open Sys2Proof Sys2Proof.Machine Sys2Proof.Laws.Basic Sys2Proof.Proofs.ClockRows

variable {s : State}

/-! ## The late day close and the minute at the start (R30, R33 item 4) -/

/-- The date of the late day close. -/
def lateOf (old : Ck) (s : State) : Option Nat := s.ck.latestLoss.bind fun l => lateDate s.ck (old.untested l) s.nowMin

/-- The firings leave the clock but for the last fired date and the outbox. -/
theorem ck_fireQuiet (d : Nat) (s : State) : (fireQuiet d s).ck =
    { s.ck with lastFired := some d, outbox := s.ck.outbox ++ [s.makeRec (.DAY_CLOSE DayCounts.zero)] } := rfl

/-- The firing of a late date, where there is one. -/
def fireLate (late : Option Nat) (s : State) : State := late.elim s fun d => fireQuiet d s

theorem ck_fireLate (late : Option Nat) (s : State) : (fireLate late s).ck = { s.ck with
    lastFired := late.or s.ck.lastFired
    outbox := s.ck.outbox ++ late.toList.map fun _ => s.makeRec (.DAY_CLOSE DayCounts.zero) } := by
  rcases late with _ | d
  · exact congrArg (fun l => { s.ck with outbox := l }) (List.append_nil _).symm
  · rfl

/-- The test of the minute at the start. -/
def testStart (s : State) : State :=
  if s.ck.minuteMatches s.localMin && s.ck.mayFire (s.localMin / 1440) then fireQuiet (s.localMin / 1440) s else s

theorem lateClose_set (old : Ck) (h : s.ck.isSet = true) : lateClose old s = testStart (fireLate (lateOf old s) s) := by
  unfold lateClose
  rw [if_pos h]
  unfold lateOf
  rcases (s.ck.latestLoss.bind fun l => lateDate s.ck (old.untested l) s.nowMin) with _ | d
  · rfl
  · rfl

theorem lateClose_unset (old : Ck) (h : s.ck.isSet = false) : lateClose old s = s :=
  if_neg (by rw [h]; exact Bool.false_ne_true)

/-- The minute at the start fires for its date. -/
def Fires (c : Ck) (last : Option Nat) (m : Nat) : Prop := c.minuteMatches m = true ∧ ∀ f ∈ last, f < m / 1440

/-- A match in the minute at the start is recorded. -/
theorem ck_testStart_fires (h : Fires s.ck s.ck.lastFired s.localMin) : (testStart s).ck =
    { s.ck with lastFired := some (s.localMin / 1440)
                outbox := s.ck.outbox ++ [s.makeRec (.DAY_CLOSE DayCounts.zero)] } := by
  obtain ⟨hmatch, hlast⟩ := h
  unfold testStart
  rw [hmatch, (mayFire_iff _ _).2 hlast]
  rfl

theorem testStart_quiet (h : ¬Fires s.ck s.ck.lastFired s.localMin) : testStart s = s := by
  unfold Fires at h
  rw [← mayFire_iff, ← Bool.and_eq_true] at h
  exact if_neg h

/-! ## The restored clock (R33) -/

/-- The restore noted at a power-up: the present time, where the clock is set. -/
def restoreOf (c : Ck) : Option Nat := if c.isSet then some c.count else none

/-- The clock before the late day close. -/
def restored (c : Ck) (r : LogRec) : Ck :=
  { c with lastRestore := (restoreOf c).or c.lastRestore, outbox := [r], dst := c.inForce, minuteDue := false }

theorem ck_clockRestore (s : State) : ∃ (q : State) (r : LogRec), (clockRestore s).ck = (lateClose s.ck q).ck ∧
    q.ck = restored s.ck r ∧ r.body = .POWER s.ck.latestLoss (restoreOf s.ck) := by
  unfold clockRestore
  dsimp only
  refine ⟨_, (s.modCk fun c => { c with lastRestore := (restoreOf s.ck).or c.lastRestore, outbox := [] }).makeRec
    (.POWER s.ck.latestLoss (restoreOf s.ck)), ck_raise .., ?_, rfl⟩
  rw [ck_raiseIf]
  rfl

/-! ## The firings at the start -/

/-- What fires at a start: the last fired date, and the records made. -/
structure Fired (c : Ck) (late : Option Nat) (m : Nat) (rs : List LogRec) (d : Ck) : Prop where
  clock : d = { c with lastFired := d.lastFired, outbox := d.outbox }
  fires : Fires c (late.or c.lastFired) m → d.lastFired = some (m / 1440) ∧ d.outbox.map (·.body) =
    rs.map (·.body) ++ ((late.toList.map fun _ => .DAY_CLOSE DayCounts.zero) ++ [.DAY_CLOSE DayCounts.zero])
  quiet : ¬Fires c (late.or c.lastFired) m → d.lastFired = late.or c.lastFired ∧ d.outbox.map (·.body) =
    rs.map (·.body) ++ late.toList.map fun _ => .DAY_CLOSE DayCounts.zero

theorem fired_lateClose (old : Ck) (h : s.ck.isSet = true) :
    Fired s.ck (lateOf old s) s.localMin s.ck.outbox (lateClose old s).ck := by
  rw [lateClose_set old h]
  generalize lateOf old s = late
  have hck := ck_fireLate late s
  have hmin : (fireLate late s).localMin = s.localMin := by
    unfold State.localMin
    rw [hck]
    rfl
  have hiff : Fires (fireLate late s).ck (fireLate late s).ck.lastFired (fireLate late s).localMin ↔
      Fires s.ck (late.or s.ck.lastFired) s.localMin := by
    rw [hmin, hck]
    exact .rfl
  have hbodies : (fireLate late s).ck.outbox.map (·.body) =
      s.ck.outbox.map (·.body) ++ late.toList.map fun _ => .DAY_CLOSE DayCounts.zero := by
    rw [hck]
    simp only [List.map_append, List.map_map]
    rfl
  refine ⟨?_, fun hf => ?_, fun hf => ?_⟩
  · unfold testStart
    split
    · rw [ck_fireQuiet, hck]
    · rw [hck]
  · rw [ck_testStart_fires (hiff.2 hf), hmin, List.map_append, hbodies, List.append_assoc]
    exact ⟨rfl, rfl⟩
  · rw [testStart_quiet fun h => hf (hiff.1 h)]
    exact ⟨by rw [hck], hbodies⟩

end Sys2Proof.Proofs.LateClose

/-! PROOFS. The date of the late day close: the latest of nine with a matching minute that passed untested (R30). -/

namespace Sys2Proof.Proofs.LateClose

open Sys2Proof Sys2Proof.Machine Sys2Proof.Laws.Basic Sys2Proof.Proofs.ClockRows

variable {c : Ck}

/-! ## The times of a date that match (R28) -/

/-- The values that a field of the match allows. -/
theorem mem_fieldValues {field : Option Nat} {bound n : Nat} (hlegal : ∀ v ∈ field, v < bound) :
    n ∈ field.elim (List.range bound) (fun v => [v]) ↔ n < bound ∧ fieldMatches field n = true := by
  unfold fieldMatches
  rcases field with _ | v
  · simp
  · have hv : v < bound := hlegal v rfl
    simp only [Option.elim_some, List.mem_singleton, Option.all_some, beq_iff_eq]
    exact ⟨fun h => ⟨h ▸ hv, h.symm⟩, fun h => h.2.symm⟩

theorem mem_matchTimes (hlegal : MatchLegal c) (t : Nat) : t ∈ matchTimes c ↔
    t < 1440 ∧ fieldMatches c.matchMin (t % 60) = true ∧ fieldMatches c.matchHour (t / 60) = true := by
  obtain ⟨hmin, hhour, -⟩ := hlegal
  have hmins (n : Nat) := mem_fieldValues (n := n) (bound := 60) fun v hv => Nat.lt_succ_of_le (hmin v hv)
  have hhours (n : Nat) := mem_fieldValues (n := n) (bound := 24) fun v hv => Nat.lt_succ_of_le (hhour v hv)
  unfold matchTimes
  simp only [List.mem_flatMap, List.mem_map, hmins, hhours]
  constructor
  · rintro ⟨h, ⟨hlt, hh⟩, m, ⟨mlt, hm⟩, rfl⟩
    rw [show (60 * h + m) % 60 = m by omega, show (60 * h + m) / 60 = h by omega]
    exact ⟨by omega, hm, hh⟩
  · rintro ⟨hlt, hm, hh⟩
    exact ⟨t / 60, ⟨by omega, hh⟩, t % 60, ⟨by omega, hm⟩, by omega⟩

/-- A minute of a date matches by its time and its weekday. -/
theorem minuteMatches_date (d : Nat) {t : Nat} (ht : t < 1440) : c.minuteMatches (1440 * d + t) = true ↔
    (fieldMatches c.matchMin (t % 60) = true ∧ fieldMatches c.matchHour (t / 60) = true) ∧
      fieldMatches c.matchWday (weekday d) = true := by
  unfold Ck.minuteMatches
  rw [show (1440 * d + t) % 60 = t % 60 by omega, show (1440 * d + t) / 60 % 24 = t / 60 by omega,
    show (1440 * d + t) / 1440 = d by omega, Bool.and_eq_true, Bool.and_eq_true]

/-! ## Minutes that passed untested (R30) -/

/-- A minute passed untested after a known loss. -/
theorem minutePassed_iff {l : Nat} (hloss : c.latestLoss = some l) (now m : Nat) :
    minutePassed c (c.untested l) now m = true ↔ PassedUntested c now m := by
  have hwithin (k : Nat) : (c.untested l).minute ≤ k ∧ k < now ↔
      (l / 60 < k ∨ (c.minuteDue = true ∧ k = l / 60)) ∧ k < now := by
    unfold Ck.untested
    cases c.minuteDue
    · simp only [Bool.false_eq_true, if_false, false_and, or_false]
      omega
    · simp only [if_true, true_and]
      omega
  have hskip (i : Nat) : (c.untested l).skip ≤ i ↔ if c.dstAtLoss = inForceAt c.fwd c.rev l then l / 60 < i
      else reachedInstant c.fwd c.rev l / 60 ≤ i := by
    unfold Ck.untested
    simp only [beq_iff_eq]
    split
    · exact Nat.succ_le_iff
    · exact .rfl
  unfold PassedUntested minutePassed
  simp only [hloss, Option.some.injEq, exists_eq_left', Bool.or_eq_true, Bool.and_eq_true, Bool.not_eq_true',
    decide_eq_true_iff, Option.any_eq_true, hwithin, hskip, or_assoc, and_assoc, Bool.not_eq_false', Bool.and_eq_false_iff,
    decide_eq_false_iff_not, not_le, Option.mem_def]
  exact or_congr .rfl (or_congr .rfl (and_congr .rfl (and_congr .rfl (exists_congr fun f => and_congr .rfl and_comm))))

/-! ## The latest of nine dates (R30) -/

/-- A date that the search takes. -/
theorem date_missed_iff (hlegal : MatchLegal c) {l : Nat} (hloss : c.latestLoss = some l) (now d : Nat) :
    (c.mayFire d && (matchTimes c).any fun t =>
      fieldMatches c.matchWday (weekday d) && minutePassed c (c.untested l) now (1440 * d + t)) = true ↔ DayMissed c now d := by
  unfold DayMissed
  rw [Bool.and_eq_true, mayFire_iff, List.any_eq_true]
  refine and_congr .rfl ⟨?_, ?_⟩
  · rintro ⟨t, ht, hpassed⟩
    obtain ⟨hlt, hmin, hhour⟩ := (mem_matchTimes hlegal t).1 ht
    obtain ⟨hday, hpassed⟩ := Bool.and_eq_true_iff.1 hpassed
    exact ⟨⟨t, hlt⟩, (minuteMatches_date d hlt).2 ⟨⟨hmin, hhour⟩, hday⟩, (minutePassed_iff hloss now _).1 hpassed⟩
  · rintro ⟨t, hmatch, hpassed⟩
    obtain ⟨⟨hmin, hhour⟩, hday⟩ := (minuteMatches_date d t.isLt).1 hmatch
    exact ⟨t, (mem_matchTimes hlegal t).2 ⟨t.isLt, hmin, hhour⟩,
      Bool.and_eq_true_iff.2 ⟨hday, (minutePassed_iff hloss now _).2 hpassed⟩⟩

/-- The first that a search over nine dates backwards takes. -/
theorem find?_nine {f : Nat → Bool} {today : Nat} :
    (((List.range 9).map fun i => today - i).find? f = none → ∀ d ≤ today, today ≤ d + 8 → f d = false) ∧
      ∀ d, ((List.range 9).map fun i => today - i).find? f = some d →
        d ≤ today ∧ f d = true ∧ ∀ d' ≤ today, f d' = true → d' ≤ d := by
  refine ⟨fun h d hd hnine => ?_, fun d h => ?_⟩
  · have hmem : d ∈ (List.range 9).map fun i => today - i := List.mem_map.2 ⟨today - d, List.mem_range.2 (by omega), by omega⟩
    exact Bool.eq_false_iff.2 (List.find?_eq_none.1 h d hmem)
  · obtain ⟨hf, i, hi, hget, hbefore⟩ := List.find?_eq_some_iff_getElem.1 h
    have hlength : i < 9 := by simpa using hi
    have hd : d = today - i := by simpa using hget.symm
    refine ⟨by omega, hf, fun d' hd' hf' => ?_⟩
    by_contra hlater
    have hbefore' := hbefore (today - d') (by omega)
    rw [List.getElem_map, List.getElem_range, show today - (today - d') = d' by omega, hf'] at hbefore'
    exact nomatch hbefore'

/-- The date of the late day close at a restored clock (R30, R33). -/
theorem lateOf_restored (hlegal : MatchLegal c) {q : State} {r : LogRec} (hq : q.ck = restored c r) :
    let today := (c.count + dstOffset c.inForce) / 60 / 1440
    (lateOf c q = none → ∀ d ≤ today, today ≤ d + 8 → ¬DayMissed c (c.count / 60) d) ∧
      ∀ d, lateOf c q = some d → d ≤ today ∧ DayMissed c (c.count / 60) d ∧
        ∀ d' ≤ today, DayMissed c (c.count / 60) d' → d' ≤ d := by
  intro today
  have hnow : q.nowMin = c.count / 60 := by rw [State.nowMin, hq]; rfl
  have hloss : q.ck.latestLoss = c.latestLoss := by rw [hq]; rfl
  unfold lateOf
  rw [hnow, hloss, hq]
  rcases hl : c.latestLoss with _ | l
  · refine ⟨fun _ d _ _ hmissed => ?_, nofun⟩
    obtain ⟨-, -, -, l, hmem, -⟩ := hmissed
    exact nomatch hl.symm.trans hmem
  · have htoday : (60 * (c.count / 60) + dstOffset c.inForce) / daySeconds = today := by
      simp only [today, daySeconds, dstOffset]
      split <;> omega
    have hsearch : lateDate (restored c r) (c.untested l) (c.count / 60) =
        ((List.range 9).map fun i => today - i).find? fun d => c.mayFire d && (matchTimes c).any fun t =>
          fieldMatches c.matchWday (weekday d) && minutePassed c (c.untested l) (c.count / 60) (1440 * d + t) := by
      rw [← htoday]
      rfl
    rw [Option.bind_some, hsearch]
    obtain ⟨hnone, hsome⟩ := find?_nine (today := today) (f := fun d => c.mayFire d && (matchTimes c).any fun t =>
      fieldMatches c.matchWday (weekday d) && minutePassed c (c.untested l) (c.count / 60) (1440 * d + t))
    refine ⟨fun h d hd hnine hmissed => ?_, fun d h => ?_⟩
    · exact Bool.eq_false_iff.1 (hnone h d hd hnine) ((date_missed_iff hlegal hl _ d).2 hmissed)
    · obtain ⟨hd, hf, hlatest⟩ := hsome d h
      exact ⟨hd, (date_missed_iff hlegal hl _ d).1 hf,
        fun d' hd' hmissed => hlatest d' hd' ((date_missed_iff hlegal hl _ d').2 hmissed)⟩

end Sys2Proof.Proofs.LateClose

/-! PROOFS. What warm starts keep of the bays and record of the loss (R30, R33, R64, R107, R137, R138). -/

namespace Sys2Proof.Proofs.WarmStarts

open Sys2Proof Sys2Proof.Machine Sys2Proof.Laws.Basic Sys2Proof.Proofs.Keeping Sys2Proof.Proofs.Starts
open Sys2Proof.Proofs.StartTells Sys2Proof.Proofs.WarmBays Sys2Proof.Proofs.LateClose

/-! ## The clock after a power-up (R33) -/

theorem ck_startCommon (k : StartKind) (e : StartEnv) (s : State) : (startCommon k e s).ck = s.ck := by
  rw [startCommon_frame]
  rfl

/-- A warm start from power loss restores the clock, then makes the late day close and tests the minute. -/
theorem warmStart_clock (e : StartEnv) {s : State} (h : s.supply = false) : ∃ (t q : State) (r : LogRec),
    exec (.warmStart e) s = .next t ∧ t.ck = (lateClose s.ck q).ck ∧ q.ck = restored s.ck r ∧
      r.body = .POWER s.ck.latestLoss (restoreOf s.ck) := by
  have hseen : lossSeen s = s := if_neg (by rw [h]; exact Bool.false_ne_true)
  have hbase : (warmBase .WARM e s).ck = s.ck := ck_startCommon .WARM e s
  obtain ⟨q, r, hck, hq, hbody⟩ := ck_clockRestore (warmBase .WARM e s)
  obtain ⟨-, -, hclock, -⟩ := units_started (k := .WARM) (restarting_warmClock (k := .WARM) nofun true e s)
  rw [hbase] at hck hq hbody
  refine ⟨_, q, r, rfl, ?_, hq, hbody⟩
  rw [hseen]
  exact hclock.trans hck

/-- What the clock keeps at a power-up, what it notes, and its first record. -/
structure Restored (c d : Ck) : Prop where
  kept : d = { c with lastRestore := (restoreOf c).or c.lastRestore, dst := c.inForce, minuteDue := false,
                      lastFired := d.lastFired, outbox := d.outbox }
  power : d.outbox.head?.map (·.body) = some (.POWER c.latestLoss (restoreOf c))
  unset : c.isSet = false → d.lastFired = c.lastFired ∧ d.outbox.length = 1

theorem restored_lateClose {c : Ck} {q : State} {r : LogRec} (hq : q.ck = restored c r)
    (hbody : r.body = .POWER c.latestLoss (restoreOf c)) : Restored c (lateClose c q).ck := by
  have hset : q.ck.isSet = c.isSet := by rw [hq]; rfl
  cases hc : c.isSet
  · rw [lateClose_unset c (hset.trans hc), hq]
    exact ⟨rfl, congrArg some hbody, fun _ => ⟨rfl, rfl⟩⟩
  · obtain ⟨hclock, hfires, hquiet⟩ := fired_lateClose c (hset.trans hc)
    rw [hq] at hclock hfires hquiet
    refine ⟨hclock, ?_, fun h => nomatch hc.symm.trans h⟩
    have hhead (bs : List Body) (h : (lateClose c q).ck.outbox.map (·.body) = [r].map (·.body) ++ bs) :
        (lateClose c q).ck.outbox.head?.map (·.body) = some (.POWER c.latestLoss (restoreOf c)) := by
      rw [← List.head?_map, h, ← hbody]
      rfl
    by_cases hf : Fires (restored c r) ((lateOf c q).or (restored c r).lastFired) q.localMin
    · exact hhead _ (hfires hf).2
    · exact hhead _ (hquiet hf).2

/-- Settles O21: the bays by their turns, the clock by its restore, the late day close by the search over nine dates. -/
theorem warmStartsKeepBaysAndRecordTheLoss : Obligations.WarmStartsKeepBaysAndRecordTheLoss := by
  refine ⟨fun e s c hc => ?_, fun e s hsupply => ?_, fun e s hsupply hset hlegal => ?_⟩
  · obtain ⟨k, p, Q, hexec, hbefore, hleft, hclock⟩ := start_restarting hc
    obtain ⟨hdt, hcp, hck, hst, -, hdl⟩ := units_started (k := k) hbefore
    obtain ⟨hday, hhigh, hsegs⟩ := log_started e s.dl
    have hfate := fate_started hbefore hleft
    dsimp only
    generalize pump (startPosts k e (restartBays p)) = t at *
    refine ⟨t, hexec, ?_, ?_, fun h => hck.trans (hclock h), by rw [hst]; rfl, ⟨?_, ?_, fun hw hs => ?_⟩, fun b => ⟨(hfate b).told, ?_⟩⟩
    · rw [hdt]
      refine congrArg (fun l : List Driver => ({ s.dt.warm with drivers := l } : Dt)) ?_
      refine (List.map_map ..).trans (List.map_congr_left fun x _ => ?_)
      have haway (h : ∀ b, x.status ≠ .AT_BAY b) :=
        startedDriver_away (s.st.storeGood && e.settingsGood) p (x := { x with pend := false }) h
      cases hx : x.status with
      | AT_BAY b => exact startedDriver_atBay hbefore _ (x := { x with pend := false }) hx rfl
      | ABSENT => exact (haway fun b => by rw [hx]; nofun).trans (by rw [hx])
      | ON_SITE => exact (haway fun b => by rw [hx]; nofun).trans (by rw [hx])
      | ON_TRIP => exact (haway fun b => by rw [hx]; nofun).trans (by rw [hx])
    · rw [hcp]
      refine congrArg (Cp.mk · none) (List.map_congr_left fun x _ => ?_)
      cases hx : x.state with
      | BOUND b => exact startedDoc_bound hbefore _ hx
      | DRAFT => exact startedDoc_unbound _ p fun b => by rw [hx]; nofun
      | RELEASED => exact startedDoc_unbound _ p fun b => by rw [hx]; nofun
    · rw [hdl]
      exact hday
    · rw [hdl]
      exact hhigh
    · rw [hdl]
      exact hsegs hw hs
    · have hb := hfate b
      cases hstate : (s.bay b).state
      case CLOSED => exact (hb.of_closed hbefore hstate).trans (by rw [ite_self]; rfl)
      case IDLE => exact hb.of_idle hbefore hstate
      case DISPATCHED => exact hb.of_dispatched hbefore hstate
      case DISPATCHING => exact hb.of_dispatching hbefore hstate
      case ASSIGNED => exact hb.of_assigned hbefore (.inl hstate)
      case HELD => exact hb.of_assigned hbefore (.inr hstate)
      case LOADING => exact fun cx d hctx hread => hb.of_flowing hbefore (.inl hstate) hctx hread
      case PAUSED => exact fun cx d hctx hread => hb.of_flowing hbefore (.inr (.inl hstate)) hctx hread
      case FINISHING => exact fun cx d hctx hread => hb.of_flowing hbefore (.inr (.inr hstate)) hctx hread
  · obtain ⟨t, q, r, hexec, hck, hq, hbody⟩ := warmStart_clock e hsupply
    obtain ⟨hkept, hpower, hunset⟩ := hck ▸ restored_lateClose hq hbody
    refine ⟨t, hexec, ?_, ?_, ?_, ?_, ?_, ?_, ?_, ?_, ?_, ?_, ?_, hpower, hunset⟩
    all_goals rw [hkept]
    rfl
  · obtain ⟨t, q, r, hexec, hck, hq, hbody⟩ := warmStart_clock e hsupply
    obtain ⟨hnone, hsome⟩ := lateOf_restored hlegal hq
    obtain ⟨-, hfires, hquiet⟩ := fired_lateClose (s := q) s.ck (by rw [hq]; exact hset)
    have hmin : q.localMin = (s.ck.count + dstOffset s.ck.inForce) / 60 := by
      rw [State.localMin, hq]
      rfl
    have hrestore : restoreOf s.ck = some s.ck.count := if_pos hset
    rw [← hck, hmin, hq] at hfires hquiet
    rw [hrestore] at hbody
    refine ⟨t, lateOf s.ck q, hexec, hnone, hsome, fun hf => ?_, fun hf => ?_⟩
    · obtain ⟨hlast, hout⟩ := hfires hf
      exact ⟨hlast, hout.trans (by rw [← hbody]; rfl)⟩
    · obtain ⟨hlast, hout⟩ := hquiet hf
      exact ⟨hlast, hout.trans (by rw [← hbody]; rfl)⟩

end Sys2Proof.Proofs.WarmStarts
